-- ==== Sys2Proof/Word.lean ====
section
/-!
DEFINITION. The widths the manual gives its quantities: the 32-bit register word (R47), the byte, and the wider
quantities that occupy register pairs (R51).
-/

namespace Sys2Proof

/-- A register: 32 bits wide (R47). -/
abbrev Word := BitVec 32

/-- A byte of a memory or of a frame. -/
abbrev Byte := BitVec 8

/-- A 64-bit quantity: a register pair (R51), a FIFO word (R385), a bundle (R122). -/
abbrev DWord := BitVec 64

/-- A Leaf accumulator: 72 bits, signed (R107). -/
abbrev Acc := BitVec 72

end Sys2Proof
end

