-- ==== Sys2Proof/Machine/Bits.lean ====
section
/-!
DEFINITION. Bit fields of a register word, signed readings, saturation and the byte order of the windows: the plain
helpers every block uses.
-/

namespace Sys2Proof.Machine

/-- Bits `hi` down to `lo` of a word, as a number. -/
def fld (w : Word) (hi lo : Nat) : Nat := (w.toNat >>> lo) % 2 ^ (hi + 1 - lo)

/-- Bit `i` of a word. -/
def bit (w : Word) (i : Nat) : Bool := w.toNat.testBit i

/-- The mask of bits `hi` down to `lo`. -/
def fmask (hi lo : Nat) : Word := BitVec.ofNat 32 ((2 ^ (hi + 1 - lo) - 1) * 2 ^ lo)

/-- Replace bits `hi` down to `lo` by `v`. -/
def putFld (w : Word) (hi lo : Nat) (v : Nat) : Word :=
  (w &&& ~~~(fmask hi lo)) ||| (BitVec.ofNat 32 (v * 2 ^ lo) &&& fmask hi lo)

/-- The word with the one bit `i` set. -/
def oneBit (i : Nat) : Word := BitVec.ofNat 32 (2 ^ i)

/-- A truth value as a number. -/
def b2n (b : Bool) : Nat := if b then 1 else 0

/-- A truth value as a word. -/
def b2w (b : Bool) : Word := if b then 1#32 else 0#32

/-- The value `v` limited to the range from `lo` to `hi`. -/
def clampI (lo hi v : Int) : Int := if v < lo then lo else if hi < v then hi else v

/-- Saturation of an exact result to `n` signed bits. -/
def satI (n : Nat) (v : Int) : Int := clampI (-(2 ^ (n - 1))) (2 ^ (n - 1) - 1) v

/-- Saturation of an exact natural result to `n` unsigned bits. -/
def satN (n : Nat) (v : Nat) : Nat := min v (2 ^ n - 1)

/-- A word from an exact integer, modulo 2^32. -/
def wOf (v : Int) : Word := BitVec.ofInt 32 v

/-- A signed field: the two's complement reading of the low `n` bits of `v`. -/
def signedN (n : Nat) (v : Nat) : Int :=
  if 2 ^ (n - 1) ≤ v % 2 ^ n then (v % 2 ^ n : Nat) - (2 ^ n : Nat) else (v % 2 ^ n : Nat)

/-- Arithmetic right shift of an exact integer: the floor of the division by 2^n. -/
def asr (v : Int) (n : Nat) : Int := v.fdiv (2 ^ n)

/-- A rounded right shift: half of the last place is added before the floor; no shift, no rounding. -/
def rsh (v : Int) (n : Nat) : Int := if n = 0 then v else asr (v + 2 ^ (n - 1)) n

/-- The little-endian bytes of the low `n` bytes of a number. -/
def leBytes : Nat → Nat → List Byte
  | 0, _ => []
  | n + 1, v => BitVec.ofNat 8 v :: leBytes n (v / 256)

/-- The number whose little-endian bytes are given. -/
def ofLE : List Byte → Nat
  | [] => 0
  | b :: bs => b.toNat + 256 * ofLE bs

/-- The big-endian bytes of the low `n` bytes of a number (network order). -/
def beBytes (n v : Nat) : List Byte := (leBytes n v).reverse

/-- The number whose big-endian bytes are given. -/
def ofBE (bs : List Byte) : Nat := ofLE bs.reverse

/-- Forward distance from `a` to `b` on a wrapping 32-bit scale, read as signed (R86). -/
def diff32 (b a : Word) : Int := (b - a).toInt

/-- The numbers below `n` that satisfy `p`, ascending. -/
def below (n : Nat) (p : Nat → Bool) : List Nat := (List.range n).filter p

/-- Run an action once for each number of a list, in order. -/
def each {σ : Type} (l : List Nat) (f : Nat → σ → σ) (s : σ) : σ := l.foldl (fun t i => f i t) s

/-- The first number below `n` that satisfies `p`. -/
def firstBelow (n : Nat) (p : Nat → Bool) : Option Nat := (List.range n).find? p

end Sys2Proof.Machine
end

