-- ==== Sys2Proof/Machine/Tab.lean ====
section
/-!
DEFINITION. Sparse data by key in one canonical form: a list of (key, value) pairs, keys strictly rising, no entry
equal to what an unlisted key reads as.  Registers, memories and the arrays of units are held this way, so that equal
contents are equal data.
-/

namespace Sys2Proof.Machine

/-- A sparse table: keys strictly rising, no entry that equals its default. -/
abbrev Tab (α : Type) := List (Nat × α)

/-- What key `k` reads as: its entry, or the default where none is listed. -/
def Tab.get {α : Type} (d : Nat → α) : Tab α → Nat → α
  | [], k => d k
  | (a, v) :: t, k => if k = a then v else Tab.get d t k

/-- Remove every entry whose key satisfies `p`, so that those keys read their defaults. -/
def Tab.drop {α : Type} (t : Tab α) (p : Nat → Bool) : Tab α := t.filter (fun e => !p e.1)

/-- List an entry at the place of its key. -/
def Tab.insert {α : Type} : Tab α → Nat → α → Tab α
  | [], k, v => [(k, v)]
  | (a, w) :: t, k, v => if k < a then (k, v) :: (a, w) :: t else (a, w) :: Tab.insert t k v

/-- Enter `v` at key `k` in place of what stood there; an entry equal to the default is not kept. -/
def Tab.set {α : Type} [DecidableEq α] (d : Nat → α) (t : Tab α) (k : Nat) (v : α) : Tab α :=
  let rest := t.drop (fun a => decide (a = k))
  if v = d k then rest else rest.insert k v

/-- The keys stand above `lo` in strictly rising order and no entry equals its default. -/
def Tab.okFrom {α : Type} [DecidableEq α] (d : Nat → α) : Option Nat → Tab α → Bool
  | _, [] => true
  | lo, (a, v) :: t =>
    (match lo with | none => true | some l => decide (l < a)) && decide (v ≠ d a) && Tab.okFrom d (some a) t

/-- The canonical form of a table. -/
def Tab.wf {α : Type} [DecidableEq α] (d : Nat → α) (t : Tab α) : Bool := Tab.okFrom d none t

end Sys2Proof.Machine
end

