-- ==== Sys2Proof/Machine/RegMap.lean ====
section
/-!
DEFINITION. The register map: every page of Table 2.2, its header (Tables 2.4 to 2.9) and every block-specific register
row of the chapters, field by field with its access code (Table 2.1) and reset value; and the addresses by name.
-/

namespace Sys2Proof.Machine

/-- Access codes of Table 2.1; `tc` is a trouble counter, read only until `PG_CTRL.ERR_RC` makes it clear on read
(R440). -/
inductive Access where
  | ro | rw | rwc | w1c | w1s | wo | rc | tc
  deriving DecidableEq, Repr

/-- A field of a register: its bits, access code and reset value. -/
structure Field where
  hi : Nat
  lo : Nat
  acc : Access
  reset : Nat
  deriving DecidableEq, Repr

/-- A register row of a page: `count` registers, `stride` bytes apart, with the same fields. -/
structure RegRow where
  off : Nat
  stride : Nat
  count : Nat
  flds : List Field
  deriving DecidableEq, Repr

/-- A block of Table 2.2. -/
structure PageRow where
  /-- Block type code. -/
  type : Nat
  base : Nat
  count : Nat
  /-- `PG_CTRL.EN` at reset. -/
  en : Nat
  /-- `PG_CAP.BLOCK`. -/
  cap : Nat
  /-- Locked after reset (R60). -/
  locked : Bool
  rows : List RegRow
  deriving DecidableEq, Repr

/-- Registers of the CHIP page (R73): CHIP_ID, COMMIT, COMMIT_STAT, COMMIT_LAST, REFUSE_ADDR, COMMIT_OK, COMMIT_REF, CCNT_SEL, CCNT_LO, CCNT_HI, PCTL, PGATE_OPEN, PGATE_CLOSE. -/
def rowsCHIP : List RegRow := [
  ⟨0x040, 0x4, 1, [⟨31, 16, .ro, 0x256⟩, ⟨15, 12, .ro, 1⟩, ⟨7, 0, .ro, 0xa1⟩]⟩,
  ⟨0x048, 0x4, 1, [⟨15, 0, .wo, 0⟩]⟩,
  ⟨0x04C, 0x4, 1, [⟨31, 16, .ro, 0⟩, ⟨15, 0, .ro, 0⟩]⟩,
  ⟨0x050, 0x4, 1, [⟨31, 28, .ro, 0⟩, ⟨27, 24, .ro, 0⟩, ⟨23, 23, .ro, 0⟩, ⟨15, 0, .ro, 0⟩]⟩,
  ⟨0x054, 0x4, 1, [⟨24, 0, .ro, 0⟩]⟩,
  ⟨0x058, 0x4, 1, [⟨31, 0, .ro, 0⟩]⟩,
  ⟨0x05C, 0x4, 1, [⟨31, 0, .rc, 0⟩]⟩,
  ⟨0x100, 0x10, 16, [⟨31, 31, .rw, 0⟩, ⟨30, 30, .rw, 0⟩, ⟨29, 29, .rw, 0⟩, ⟨15, 12, .rw, 8⟩, ⟨7, 0, .rw, 0⟩]⟩,
  ⟨0x104, 0x10, 16, [⟨31, 0, .rw, 0⟩]⟩,
  ⟨0x108, 0x10, 16, [⟨15, 0, .rw, 0⟩]⟩,
  ⟨0x200, 0x4, 1, [⟨1, 1, .w1s, 0⟩, ⟨0, 0, .rw, 0⟩]⟩,
  ⟨0x204, 0x4, 1, [⟨17, 0, .rw, 0⟩]⟩,
  ⟨0x208, 0x4, 1, [⟨17, 0, .rw, 0⟩]⟩]

/-- Registers of the TICK page (R88): TICK_CTRL, TICK_STAT, START_AT, TICK_NO_LO, TICK_NO_HI, T0_FAST, OFS_NOW, CP, MC_CTRL, MC_TICK_LO, MC_TICK_HI, MC_STAT, MC_DONE, MC_ABANDON, LINE_STAT, RIVAL_LO, RIVAL_HI, START_TENURE, MODE_PERIOD, MODE_GATHER_OFS, MODE_GATHER_LATE, MODE_POUR_CLOSE, MODE_SVC_OPEN, MODE_SVC. -/
def rowsTICKA : List RegRow := [
  ⟨0x040, 0x4, 1, [⟨31, 31, .rw, 0⟩, ⟨2, 0, .rw, 0⟩]⟩,
  ⟨0x044, 0x4, 1, [⟨31, 31, .ro, 0⟩, ⟨18, 16, .ro, 0⟩, ⟨7, 0, .ro, 0⟩]⟩,
  ⟨0x048, 0x4, 1, [⟨31, 0, .rw, 0⟩]⟩,
  ⟨0x04C, 0x4, 1, [⟨31, 0, .rw, 0⟩]⟩,
  ⟨0x050, 0x4, 1, [⟨31, 0, .rw, 0⟩]⟩,
  ⟨0x054, 0x4, 1, [⟨31, 0, .ro, 0⟩]⟩,
  ⟨0x058, 0x4, 1, [⟨17, 0, .ro, 0⟩]⟩,
  ⟨0x060, 0x4, 8, [⟨31, 31, .rwc, 0⟩, ⟨17, 0, .rwc, 0⟩]⟩,
  ⟨0x080, 0x4, 1, [⟨31, 31, .w1s, 0⟩, ⟨30, 30, .w1s, 0⟩, ⟨20, 16, .rw, 4⟩, ⟨2, 0, .rw, 0⟩]⟩,
  ⟨0x084, 0x4, 1, [⟨31, 0, .rw, 0⟩]⟩,
  ⟨0x088, 0x4, 1, [⟨31, 0, .rw, 0⟩]⟩,
  ⟨0x08C, 0x4, 1, [⟨31, 28, .ro, 0⟩, ⟨27, 24, .ro, 0⟩, ⟨20, 16, .ro, 0⟩, ⟨11, 8, .ro, 0⟩, ⟨2, 0, .ro, 0⟩]⟩,
  ⟨0x090, 0x4, 1, [⟨31, 0, .ro, 0⟩]⟩,
  ⟨0x094, 0x4, 1, [⟨31, 0, .tc, 0⟩]⟩,
  ⟨0x0C0, 0x4, 1, [⟨31, 28, .ro, 0⟩, ⟨27, 24, .ro, 0⟩]⟩,
  ⟨0x0C4, 0x4, 1, [⟨31, 0, .ro, 0⟩]⟩,
  ⟨0x0C8, 0x4, 1, [⟨7, 0, .ro, 0⟩]⟩,
  ⟨0x0CC, 0x4, 1, [⟨15, 0, .ro, 0⟩]⟩,
  ⟨0x100, 0x20, 8, [⟨17, 0, .rw, 0x7a12⟩]⟩,
  ⟨0x104, 0x20, 8, [⟨17, 0, .rw, 0x320⟩]⟩,
  ⟨0x108, 0x20, 8, [⟨17, 0, .rw, 0x4268⟩]⟩,
  ⟨0x10C, 0x20, 8, [⟨17, 0, .rw, 0x4a38⟩]⟩,
  ⟨0x110, 0x20, 8, [⟨17, 0, .rw, 0x6978⟩]⟩,
  ⟨0x114, 0x20, 8, [⟨18, 16, .rw, 3⟩, ⟨11, 0, .rw, 0x4b0⟩]⟩]

/-- Registers of the TICK page (R88): MODE_STAT, NOW_PERIOD, NOW_GATHER_OFS, NOW_GATHER_LATE, NOW_POUR_CLOSE, NOW_SVC_OPEN, NOW_SVC, NOW_STAT. -/
def rowsTICKB : List RegRow := [
  ⟨0x118, 0x20, 8, [⟨31, 31, .ro, 1⟩, ⟨4, 0, .ro, 0⟩]⟩,
  ⟨0x200, 0x4, 1, [⟨17, 0, .ro, 0x7a12⟩]⟩,
  ⟨0x204, 0x4, 1, [⟨17, 0, .ro, 0x320⟩]⟩,
  ⟨0x208, 0x4, 1, [⟨17, 0, .ro, 0x4268⟩]⟩,
  ⟨0x20C, 0x4, 1, [⟨17, 0, .ro, 0x4a38⟩]⟩,
  ⟨0x210, 0x4, 1, [⟨17, 0, .ro, 0x6978⟩]⟩,
  ⟨0x214, 0x4, 1, [⟨18, 16, .ro, 3⟩, ⟨11, 0, .ro, 0x4b0⟩]⟩,
  ⟨0x218, 0x4, 1, [⟨31, 31, .ro, 1⟩, ⟨4, 0, .ro, 0⟩]⟩]

/-- Registers of the TIME page (R79): NS, SEC_LO, SEC_HI, FAST_NS, ADDEND, ADDEND_NOW, SLEW, SLEW_LEFT, SLEW_RATE, SET_NS, SET_SEC_LO, SET_SEC_HI, TIME_CTRL, MARK, MARK_FAST, SNAP_NS, SNAP_SEC_LO, SNAP_SEC_HI, SNAP_FAST, SNAP_TICK_LO, SNAP_TICK_HI, SNAP_OFS. -/
def rowsTIME : List RegRow := [
  ⟨0x040, 0x4, 1, [⟨29, 0, .ro, 0⟩]⟩,
  ⟨0x044, 0x4, 1, [⟨31, 0, .ro, 0⟩]⟩,
  ⟨0x048, 0x4, 1, [⟨15, 0, .ro, 0⟩]⟩,
  ⟨0x04C, 0x4, 1, [⟨31, 0, .ro, 0⟩]⟩,
  ⟨0x050, 0x4, 1, [⟨31, 0, .rw, 0⟩]⟩,
  ⟨0x054, 0x4, 1, [⟨31, 0, .ro, 0⟩]⟩,
  ⟨0x058, 0x4, 1, [⟨31, 0, .wo, 0⟩]⟩,
  ⟨0x05C, 0x4, 1, [⟨31, 0, .ro, 0⟩]⟩,
  ⟨0x060, 0x4, 1, [⟨19, 0, .rw, 0x3e8⟩]⟩,
  ⟨0x064, 0x4, 1, [⟨29, 0, .rw, 0⟩]⟩,
  ⟨0x068, 0x4, 1, [⟨31, 0, .rw, 0⟩]⟩,
  ⟨0x06C, 0x4, 1, [⟨15, 0, .rw, 0⟩]⟩,
  ⟨0x070, 0x4, 1, [⟨5, 4, .rw, 0⟩, ⟨1, 1, .w1s, 0⟩, ⟨0, 0, .w1s, 0⟩]⟩,
  ⟨0x074, 0x4, 1, [⟨31, 0, .wo, 0⟩]⟩,
  ⟨0x078, 0x4, 1, [⟨31, 0, .ro, 0⟩]⟩,
  ⟨0x080, 0x4, 1, [⟨29, 0, .ro, 0⟩]⟩,
  ⟨0x084, 0x4, 1, [⟨31, 0, .ro, 0⟩]⟩,
  ⟨0x088, 0x4, 1, [⟨15, 0, .ro, 0⟩]⟩,
  ⟨0x08C, 0x4, 1, [⟨31, 0, .ro, 0⟩]⟩,
  ⟨0x090, 0x4, 1, [⟨31, 0, .ro, 0⟩]⟩,
  ⟨0x094, 0x4, 1, [⟨31, 0, .ro, 0⟩]⟩,
  ⟨0x098, 0x4, 1, [⟨17, 0, .ro, 0⟩]⟩]

/-- Registers of the PTP page (R98): PTP_CTRL, DOMAIN, PRIO, TX_LAT, RX_LAT, SYNC_LOG, ANN_LOG, PTP_STAT, OFFSET, MEAN_DELAY, UTC_OFS. -/
def rowsPTP : List RegRow := [
  ⟨0x040, 0x4, 1, [⟨31, 31, .rw, 0⟩, ⟨9, 8, .rw, 0⟩, ⟨4, 4, .rw, 0⟩, ⟨0, 0, .rw, 0⟩]⟩,
  ⟨0x044, 0x4, 1, [⟨6, 0, .rw, 0⟩]⟩,
  ⟨0x048, 0x4, 1, [⟨15, 8, .rw, 0x80⟩, ⟨7, 0, .rw, 0x80⟩]⟩,
  ⟨0x04C, 0x4, 1, [⟨15, 0, .rw, 0⟩]⟩,
  ⟨0x050, 0x4, 1, [⟨15, 0, .rw, 0⟩]⟩,
  ⟨0x054, 0x4, 1, [⟨7, 0, .rw, 0xfd⟩]⟩,
  ⟨0x058, 0x4, 1, [⟨7, 0, .rw, 1⟩]⟩,
  ⟨0x05C, 0x4, 1, [⟨3, 0, .ro, 0⟩]⟩,
  ⟨0x060, 0x4, 1, [⟨31, 0, .ro, 0⟩]⟩,
  ⟨0x064, 0x4, 1, [⟨31, 0, .ro, 0⟩]⟩,
  ⟨0x068, 0x4, 1, [⟨15, 0, .rw, 0⟩]⟩]

/-- Registers of the PWR page (R484): DOM_REQ, DOM_ON, DOM_BUSY, REFUSED, LAST_REF. -/
def rowsPWR : List RegRow := [
  ⟨0x040, 0x4, 1, [⟨15, 0, .rw, 3⟩]⟩,
  ⟨0x044, 0x4, 1, [⟨15, 0, .ro, 3⟩]⟩,
  ⟨0x048, 0x4, 1, [⟨15, 0, .ro, 0⟩]⟩,
  ⟨0x04C, 0x4, 1, [⟨31, 0, .tc, 0⟩]⟩,
  ⟨0x050, 0x4, 1, [⟨31, 28, .ro, 0⟩, ⟨3, 0, .ro, 0⟩]⟩]

/-- Registers of the RST page (R484): LAST, SEEN, RESETS, CTRL. -/
def rowsRST : List RegRow := [
  ⟨0x040, 0x4, 1, [⟨31, 28, .ro, 0⟩]⟩,
  ⟨0x044, 0x4, 1, [⟨9, 0, .w1c, 1⟩]⟩,
  ⟨0x048, 0x4, 1, [⟨31, 0, .ro, 0⟩]⟩,
  ⟨0x04C, 0x4, 1, [⟨0, 0, .rw, 0⟩]⟩]

/-- Registers of the CLK page (R484): LOCK, HOLDOVER, UNLOCK. -/
def rowsCLK : List RegRow := [
  ⟨0x040, 0x4, 1, [⟨8, 8, .ro, 0⟩, ⟨4, 0, .ro, 0⟩]⟩,
  ⟨0x044, 0x4, 1, [⟨0, 0, .ro, 0⟩]⟩,
  ⟨0x048, 0x4, 5, [⟨31, 0, .tc, 0⟩]⟩]

/-- Registers of the IRQ page (R437): RAW, EN, PEND, EOI, INSERV, PIN_STAT, MSGS, MAP. -/
def rowsIRQ : List RegRow := [
  ⟨0x040, 0x4, 3, [⟨31, 0, .ro, 0⟩]⟩,
  ⟨0x050, 0x4, 3, [⟨31, 0, .rw, 0⟩]⟩,
  ⟨0x060, 0x4, 3, [⟨31, 0, .ro, 0⟩]⟩,
  ⟨0x070, 0x4, 1, [⟨31, 0, .w1s, 0⟩]⟩,
  ⟨0x074, 0x4, 1, [⟨31, 0, .ro, 0⟩]⟩,
  ⟨0x078, 0x4, 1, [⟨3, 0, .ro, 0⟩]⟩,
  ⟨0x07C, 0x4, 1, [⟨31, 0, .ro, 0⟩]⟩,
  ⟨0x100, 0x4, 96, [⟨31, 31, .rw, 0⟩, ⟨25, 24, .rw, 0⟩, ⟨15, 15, .rw, 1⟩, ⟨4, 0, .rw, 0⟩]⟩]

/-- Registers of the HOSTIF page (R428): LINK, PARTIAL_WR, UNMAPPED, DOMAIN_OFF, TRAY_WR_REF, QSPI_ERR, MG_LAUNCH_LATE, RING_LO, RING_HI, DMA_CFG, HEAD, TAIL, DESC_DONE, ERR, MBX_IN, MBX_OUT, MB_IN_BUF, MB_OUT_BUF, MSIX_TABLE, PBA0, PBA1. -/
def rowsHOSTIF : List RegRow := [
  ⟨0x040, 0x4, 1, [⟨31, 28, .ro, 0⟩, ⟨27, 24, .ro, 0⟩, ⟨0, 0, .ro, 0⟩]⟩,
  ⟨0x044, 0x4, 1, [⟨31, 0, .tc, 0⟩]⟩,
  ⟨0x048, 0x4, 1, [⟨31, 0, .tc, 0⟩]⟩,
  ⟨0x04C, 0x4, 1, [⟨31, 0, .tc, 0⟩]⟩,
  ⟨0x050, 0x4, 1, [⟨31, 0, .tc, 0⟩]⟩,
  ⟨0x054, 0x4, 1, [⟨31, 0, .tc, 0⟩]⟩,
  ⟨0x058, 0x4, 1, [⟨31, 0, .tc, 0⟩]⟩,
  ⟨0x100, 0x20, 5, [⟨31, 0, .rw, 0⟩]⟩,
  ⟨0x104, 0x20, 5, [⟨31, 0, .rw, 0⟩]⟩,
  ⟨0x108, 0x20, 5, [⟨31, 31, .rw, 0⟩, ⟨19, 4, .rw, 0⟩, ⟨3, 0, .rw, 4⟩]⟩,
  ⟨0x10C, 0x20, 5, [⟨11, 0, .ro, 0⟩]⟩,
  ⟨0x110, 0x20, 5, [⟨11, 0, .rw, 0⟩]⟩,
  ⟨0x114, 0x20, 5, [⟨31, 0, .ro, 0⟩]⟩,
  ⟨0x118, 0x20, 5, [⟨31, 0, .tc, 0⟩]⟩,
  ⟨0x200, 0x10, 2, [⟨31, 31, .w1s, 0⟩, ⟨30, 30, .ro, 0⟩, ⟨29, 29, .w1c, 0⟩, ⟨23, 16, .ro, 0⟩, ⟨8, 0, .rw, 0⟩]⟩,
  ⟨0x220, 0x10, 2, [⟨31, 31, .w1c, 0⟩, ⟨8, 0, .ro, 0⟩]⟩,
  ⟨0x400, 0x4, 128, [⟨31, 0, .rw, 0⟩]⟩,
  ⟨0x600, 0x4, 128, [⟨31, 0, .ro, 0⟩]⟩,
  ⟨0x800, 0x4, 128, [⟨31, 0, .rw, 0⟩]⟩,
  ⟨0xA00, 0x4, 1, [⟨31, 0, .ro, 0⟩]⟩,
  ⟨0xA04, 0x4, 1, [⟨31, 0, .ro, 0⟩]⟩]

/-- Registers of the TRAY page (R429): GEN, LATEST_GEN, HOLD, PUB_FAST, HOLD_EXP. -/
def rowsTRAY : List RegRow := [
  ⟨0x040, 0x4, 1, [⟨31, 0, .ro, 0⟩]⟩,
  ⟨0x044, 0x4, 1, [⟨31, 0, .ro, 0⟩]⟩,
  ⟨0x048, 0x4, 1, [⟨11, 8, .ro, 0⟩, ⟨0, 0, .rw, 0⟩]⟩,
  ⟨0x04C, 0x4, 1, [⟨31, 0, .ro, 0⟩]⟩,
  ⟨0x050, 0x4, 1, [⟨31, 0, .tc, 0⟩]⟩]

/-- Registers of the STBY page (R368): CFG, RECLAIM_QUIET, ARM_WIN, CTRL, TEN, DEPOSE, DEPOSE_TICK, PEER_ID_LO, PEER, CATCH, QUIET, XS_LAST, XS_TICK, MISMATCH, NOCMP, XS_HEAD, XS_STBY, XS_OTHER, OOS, SILENT, TAKEOVERS, DEPOSED, OLD_TENURE, RING_DIFF. -/
def rowsSTBYA : List RegRow := [
  ⟨0x040, 0x4, 1, [⟨9, 8, .rw, 2⟩, ⟨5, 5, .rw, 1⟩, ⟨4, 4, .rw, 0⟩, ⟨1, 0, .rw, 2⟩]⟩,
  ⟨0x044, 0x4, 1, [⟨31, 0, .rw, 0x7d00⟩]⟩,
  ⟨0x048, 0x4, 1, [⟨7, 0, .rw, 0x10⟩]⟩,
  ⟨0x04C, 0x4, 1, [⟨1, 1, .w1s, 0⟩, ⟨0, 0, .w1s, 0⟩]⟩,
  ⟨0x050, 0x4, 1, [⟨31, 16, .ro, 0⟩, ⟨15, 0, .ro, 0⟩]⟩,
  ⟨0x054, 0x4, 1, [⟨31, 28, .ro, 0⟩, ⟨27, 24, .ro, 0⟩, ⟨15, 0, .ro, 0⟩]⟩,
  ⟨0x058, 0x4, 1, [⟨31, 0, .ro, 0⟩]⟩,
  ⟨0x05C, 0x4, 1, [⟨31, 0, .ro, 0⟩]⟩,
  ⟨0x060, 0x4, 1, [⟨14, 12, .ro, 0⟩, ⟨9, 8, .ro, 0⟩, ⟨7, 0, .ro, 0⟩]⟩,
  ⟨0x064, 0x4, 1, [⟨31, 28, .ro, 0xf⟩, ⟨8, 0, .ro, 0⟩]⟩,
  ⟨0x068, 0x4, 1, [⟨31, 0, .tc, 0⟩]⟩,
  ⟨0x06C, 0x4, 1, [⟨31, 31, .ro, 0⟩, ⟨30, 28, .ro, 0⟩, ⟨21, 16, .ro, 0⟩, ⟨7, 0, .ro, 0⟩]⟩,
  ⟨0x070, 0x4, 1, [⟨31, 0, .ro, 0⟩]⟩,
  ⟨0x080, 0x4, 1, [⟨31, 0, .tc, 0⟩]⟩,
  ⟨0x084, 0x4, 1, [⟨31, 0, .tc, 0⟩]⟩,
  ⟨0x088, 0x4, 1, [⟨31, 0, .tc, 0⟩]⟩,
  ⟨0x08C, 0x4, 1, [⟨31, 0, .tc, 0⟩]⟩,
  ⟨0x090, 0x4, 1, [⟨31, 0, .tc, 0⟩]⟩,
  ⟨0x094, 0x4, 1, [⟨31, 0, .tc, 0⟩]⟩,
  ⟨0x098, 0x4, 1, [⟨31, 0, .tc, 0⟩]⟩,
  ⟨0x09C, 0x4, 1, [⟨31, 0, .ro, 0⟩]⟩,
  ⟨0x0A0, 0x4, 1, [⟨31, 0, .ro, 0⟩]⟩,
  ⟨0x0A4, 0x4, 1, [⟨31, 0, .tc, 0⟩]⟩,
  ⟨0x0A8, 0x4, 1, [⟨31, 0, .tc, 0⟩]⟩]

/-- Registers of the STBY page (R368): LINK_ERR, LINK_DOWNS. -/
def rowsSTBYB : List RegRow := [
  ⟨0x0AC, 0x4, 1, [⟨31, 0, .tc, 0⟩]⟩,
  ⟨0x0B0, 0x4, 1, [⟨31, 0, .tc, 0⟩]⟩]

/-- Registers of the KTL page (R470): STAT, BOOT, CTRL, CFG, FW_VER, FW_SVN, UNIT_ID_LO, UNIT_ID_HI, KRESTARTS, FAILED_STARTS, OTP_STAT. -/
def rowsKTL : List RegRow := [
  ⟨0x040, 0x4, 1, [⟨31, 28, .ro, 0⟩, ⟨27, 27, .ro, 0⟩, ⟨26, 25, .ro, 0⟩, ⟨24, 24, .ro, 0⟩, ⟨23, 23, .ro, 0⟩]⟩,
  ⟨0x044, 0x4, 1, [⟨31, 28, .ro, 0⟩, ⟨27, 24, .ro, 0⟩, ⟨2, 2, .ro, 0⟩, ⟨1, 0, .ro, 0⟩]⟩,
  ⟨0x048, 0x4, 1, [⟨2, 2, .w1s, 0⟩, ⟨1, 1, .w1s, 0⟩, ⟨0, 0, .w1s, 0⟩]⟩,
  ⟨0x04C, 0x4, 1, [⟨31, 16, .rw, 0x4c59⟩, ⟨0, 0, .rw, 0⟩]⟩,
  ⟨0x050, 0x4, 1, [⟨31, 0, .ro, 0⟩]⟩,
  ⟨0x054, 0x4, 1, [⟨24, 16, .ro, 0⟩, ⟨8, 0, .ro, 0⟩]⟩,
  ⟨0x058, 0x4, 1, [⟨31, 0, .ro, 0⟩]⟩,
  ⟨0x05C, 0x4, 1, [⟨7, 0, .ro, 0⟩]⟩,
  ⟨0x060, 0x4, 1, [⟨31, 0, .tc, 0⟩]⟩,
  ⟨0x064, 0x4, 1, [⟨31, 0, .tc, 0⟩]⟩,
  ⟨0x068, 0x4, 1, [⟨2, 2, .ro, 0⟩, ⟨1, 1, .ro, 0⟩, ⟨0, 0, .ro, 0⟩]⟩]

/-- Registers of the SENS page (R470): TS, VM, THR_TS, THR_VM, HYS, TCRIT, HI_STAT, LO_STAT, TMAX. -/
def rowsSENS : List RegRow := [
  ⟨0x040, 0x4, 4, [⟨15, 0, .ro, 0⟩]⟩,
  ⟨0x050, 0x4, 16, [⟨15, 0, .ro, 0⟩]⟩,
  ⟨0x100, 0x8, 4, [⟨31, 16, .rw, 0xfec0⟩, ⟨15, 0, .rw, 0x398⟩]⟩,
  ⟨0x120, 0x8, 16, [⟨31, 16, .rw, 0⟩, ⟨15, 0, .rw, 0x7fff⟩]⟩,
  ⟨0x104, 0x8, 20, [⟨15, 0, .rw, 0x10⟩]⟩,
  ⟨0x1A0, 0x4, 1, [⟨15, 0, .rw, 0x438⟩]⟩,
  ⟨0x1A4, 0x4, 1, [⟨19, 0, .ro, 0⟩]⟩,
  ⟨0x1A8, 0x4, 1, [⟨19, 0, .ro, 0⟩]⟩,
  ⟨0x1AC, 0x4, 1, [⟨15, 0, .rc, 0x8000⟩]⟩]

/-- Registers of the LOG page (R470): WR_SEQ, RD_SEQ, RD, RD_STAT, PERSIST, STREAM, PERSIST_SEQ, LOST, FLASH_ERR. -/
def rowsLOG : List RegRow := [
  ⟨0x040, 0x4, 1, [⟨31, 0, .ro, 0⟩]⟩,
  ⟨0x044, 0x4, 1, [⟨31, 0, .rw, 0⟩]⟩,
  ⟨0x048, 0x4, 4, [⟨31, 0, .ro, 0⟩]⟩,
  ⟨0x058, 0x4, 1, [⟨1, 1, .ro, 0⟩, ⟨0, 0, .ro, 0⟩]⟩,
  ⟨0x05C, 0x4, 1, [⟨1, 0, .rw, 1⟩]⟩,
  ⟨0x060, 0x4, 1, [⟨1, 1, .w1s, 0⟩, ⟨0, 0, .rw, 0⟩]⟩,
  ⟨0x064, 0x4, 1, [⟨31, 0, .ro, 0⟩]⟩,
  ⟨0x068, 0x4, 1, [⟨31, 0, .tc, 0⟩]⟩,
  ⟨0x06C, 0x4, 1, [⟨31, 0, .tc, 0⟩]⟩]

/-- Registers of the EVX page (R409): LEVEL_LO, LEVEL_HI, LEVT_LO, LEVT_HI, LEN_LO, LEN_HI, LINE. -/
def rowsEVX : List RegRow := [
  ⟨0x040, 0x4, 1, [⟨31, 0, .ro, 0⟩]⟩,
  ⟨0x044, 0x4, 1, [⟨31, 0, .ro, 0⟩]⟩,
  ⟨0x048, 0x4, 1, [⟨31, 0, .w1c, 0⟩]⟩,
  ⟨0x04C, 0x4, 1, [⟨31, 0, .w1c, 0⟩]⟩,
  ⟨0x050, 0x4, 1, [⟨31, 0, .rw, 0⟩]⟩,
  ⟨0x054, 0x4, 1, [⟨31, 0, .rw, 0⟩]⟩,
  ⟨0x100, 0x4, 64, [⟨31, 31, .rwc, 1⟩, ⟨30, 30, .rwc, 0⟩, ⟨29, 28, .rwc, 0⟩, ⟨27, 26, .rwc, 0⟩, ⟨15, 8, .rwc, 0⟩, ⟨7, 0, .rwc, 0⟩]⟩]

/-- Registers of the POT page (R180): PCTRL, ENTRY_FULL, ENTRY_TORQUE, ENTRY_AUX, SLOW_ENTRY, QLEN, SLACK_MIN, CUPS_HOME, STOLEN_OUT, LATE, RERUN, SLOW_LATE, SLOW_SKIP, SMEM_CE, PMEM_CE, QTICK. -/
def rowsPOT : List RegRow := [
  ⟨0x040, 0x4, 1, [⟨9, 9, .rwc, 1⟩, ⟨8, 8, .rwc, 1⟩, ⟨1, 1, .w1s, 0⟩, ⟨0, 0, .w1s, 0⟩]⟩,
  ⟨0x044, 0x4, 1, [⟨14, 0, .rwc, 0⟩]⟩,
  ⟨0x048, 0x4, 1, [⟨14, 0, .rwc, 0⟩]⟩,
  ⟨0x04C, 0x4, 1, [⟨14, 0, .rwc, 0⟩]⟩,
  ⟨0x050, 0x4, 8, [⟨14, 0, .rwc, 0⟩]⟩,
  ⟨0x070, 0x4, 1, [⟨23, 16, .rc, 0⟩, ⟨15, 8, .ro, 0⟩, ⟨7, 0, .ro, 0⟩]⟩,
  ⟨0x074, 0x4, 1, [⟨31, 0, .rc, 0x7fffffff⟩]⟩,
  ⟨0x078, 0x4, 1, [⟨31, 0, .ro, 0⟩]⟩,
  ⟨0x07C, 0x4, 1, [⟨31, 0, .ro, 0⟩]⟩,
  ⟨0x080, 0x4, 1, [⟨31, 0, .tc, 0⟩]⟩,
  ⟨0x084, 0x4, 1, [⟨31, 0, .tc, 0⟩]⟩,
  ⟨0x088, 0x4, 1, [⟨31, 0, .tc, 0⟩]⟩,
  ⟨0x08C, 0x4, 1, [⟨31, 0, .tc, 0⟩]⟩,
  ⟨0x090, 0x4, 1, [⟨31, 0, .tc, 0⟩]⟩,
  ⟨0x094, 0x4, 1, [⟨31, 0, .tc, 0⟩]⟩,
  ⟨0x098, 0x4, 1, [⟨31, 0, .ro, 0⟩]⟩]

/-- Registers of the LEAF page (R133): LCTRL, QTICK, QAXIS, FLAG_SUM, CUPS, STOLEN, LATE, PREEMPT, ECC_CORR, IC_PERR, DBG_PC, DBG_SEL, DBG_DATA, PCNT_SEL, PCNT_LO, PCNT_HI, PCTL. -/
def rowsLEAF : List RegRow := [
  ⟨0x040, 0x4, 1, [⟨3, 3, .w1s, 0⟩, ⟨1, 1, .w1s, 0⟩, ⟨0, 0, .w1s, 0⟩]⟩,
  ⟨0x044, 0x4, 1, [⟨31, 0, .ro, 0⟩]⟩,
  ⟨0x048, 0x4, 1, [⟨31, 31, .ro, 0⟩, ⟨7, 0, .ro, 0⟩]⟩,
  ⟨0x04C, 0x4, 1, [⟨4, 0, .w1c, 0⟩]⟩,
  ⟨0x050, 0x4, 1, [⟨31, 0, .ro, 0⟩]⟩,
  ⟨0x054, 0x4, 1, [⟨31, 0, .ro, 0⟩]⟩,
  ⟨0x058, 0x4, 1, [⟨31, 0, .tc, 0⟩]⟩,
  ⟨0x05C, 0x4, 1, [⟨31, 0, .ro, 0⟩]⟩,
  ⟨0x060, 0x4, 1, [⟨31, 0, .tc, 0⟩]⟩,
  ⟨0x064, 0x4, 1, [⟨31, 0, .tc, 0⟩]⟩,
  ⟨0x080, 0x4, 1, [⟨14, 0, .rw, 0⟩]⟩,
  ⟨0x084, 0x4, 1, [⟨8, 8, .rw, 0⟩, ⟨7, 5, .rw, 0⟩, ⟨4, 0, .rw, 0⟩]⟩,
  ⟨0x088, 0x4, 1, [⟨31, 0, .rw, 0⟩]⟩,
  ⟨0x100, 0x10, 4, [⟨31, 31, .rw, 0⟩, ⟨30, 30, .rw, 0⟩, ⟨29, 29, .rw, 0⟩, ⟨7, 0, .rw, 0⟩]⟩,
  ⟨0x104, 0x10, 4, [⟨31, 0, .rw, 0⟩]⟩,
  ⟨0x108, 0x10, 4, [⟨15, 0, .rw, 0⟩]⟩,
  ⟨0x140, 0x4, 1, [⟨1, 1, .w1s, 0⟩, ⟨0, 0, .rw, 0⟩]⟩]

/-- Registers of the SEG page (R293): GATHER_DROP, GATHER_DIFF, GATHER_MISS, HOLD_TICKS, LATE_APPLY, LAUNCH_LATE, HDR_ERR, FCS_ERR, B_TICKS, NODE_PRESENT, NODE_AFS, NODE_ALARM, GA_TX, GB_TX, GA_END, GB_END, POUR_TX, SVC_SOF, SVC_INFO, BELSY_CFG, MBX_TX, MBX_TX_STAT, MBX_RX_STAT, MBX_TO. -/
def rowsSEGA : List RegRow := [
  ⟨0x040, 0x4, 1, [⟨31, 0, .tc, 0⟩]⟩,
  ⟨0x044, 0x4, 1, [⟨31, 0, .tc, 0⟩]⟩,
  ⟨0x048, 0x4, 1, [⟨31, 0, .tc, 0⟩]⟩,
  ⟨0x04C, 0x4, 1, [⟨31, 0, .tc, 0⟩]⟩,
  ⟨0x050, 0x4, 1, [⟨31, 0, .tc, 0⟩]⟩,
  ⟨0x054, 0x4, 1, [⟨31, 0, .tc, 0⟩]⟩,
  ⟨0x058, 0x4, 1, [⟨31, 0, .tc, 0⟩]⟩,
  ⟨0x05C, 0x4, 1, [⟨31, 0, .tc, 0⟩]⟩,
  ⟨0x060, 0x4, 1, [⟨31, 0, .ro, 0⟩]⟩,
  ⟨0x064, 0x4, 1, [⟨16, 1, .ro, 0⟩]⟩,
  ⟨0x068, 0x4, 1, [⟨16, 1, .ro, 0⟩]⟩,
  ⟨0x06C, 0x4, 1, [⟨16, 1, .ro, 0⟩]⟩,
  ⟨0x070, 0x4, 1, [⟨31, 0, .ro, 0⟩]⟩,
  ⟨0x074, 0x4, 1, [⟨31, 0, .ro, 0⟩]⟩,
  ⟨0x078, 0x4, 1, [⟨31, 0, .ro, 0⟩]⟩,
  ⟨0x07C, 0x4, 1, [⟨31, 0, .ro, 0⟩]⟩,
  ⟨0x080, 0x4, 1, [⟨31, 0, .ro, 0⟩]⟩,
  ⟨0x084, 0x4, 1, [⟨31, 0, .ro, 0⟩]⟩,
  ⟨0x088, 0x4, 1, [⟨8, 8, .ro, 0⟩, ⟨4, 0, .ro, 0⟩]⟩,
  ⟨0x08C, 0x4, 1, [⟨15, 0, .rwc, 0x88b5⟩]⟩,
  ⟨0x0C0, 0x4, 1, [⟨31, 31, .w1s, 0⟩, ⟨30, 30, .w1s, 0⟩, ⟨20, 16, .rw, 0⟩, ⟨10, 0, .rw, 0⟩]⟩,
  ⟨0x0C4, 0x4, 1, [⟨31, 31, .ro, 0⟩, ⟨30, 30, .w1c, 0⟩, ⟨29, 29, .w1c, 0⟩, ⟨23, 20, .ro, 0⟩, ⟨10, 0, .ro, 0⟩]⟩,
  ⟨0x0C8, 0x4, 1, [⟨31, 31, .w1c, 0⟩, ⟨30, 30, .w1c, 0⟩, ⟨20, 16, .ro, 0⟩, ⟨10, 0, .ro, 0⟩]⟩,
  ⟨0x0CC, 0x4, 1, [⟨15, 0, .rw, 0x400⟩]⟩]

/-- Registers of the SEG page (R293): NPARAM, NODE_MISS, OWN, APPLY_M, APPLY, ADMIT_CFG, NODE_ADMIT, NODE_SYNC, NODE_DRIFT, NODE_REFUSED, REFUSE, SLOT_EDGE, SVC_CUT, HOP_A, HOP_B, DLY_ROUNDS, DLY_FAIL, PATH, SVC_REF, DESC, TX_BUF, RX_BUF. -/
def rowsSEGB : List RegRow := [
  ⟨0x100, 0x4, 16, [⟨31, 24, .rwc, 3⟩, ⟨15, 0, .rwc, 0⟩]⟩,
  ⟨0x140, 0x4, 16, [⟨31, 0, .tc, 0⟩]⟩,
  ⟨0x200, 0x4, 64, [⟨31, 0, .rw, 0⟩]⟩,
  ⟨0x300, 0x4, 8, [⟨31, 31, .rw, 0⟩, ⟨30, 30, .rw, 0⟩, ⟨17, 0, .rw, 0x6978⟩]⟩,
  ⟨0x320, 0x4, 1, [⟨31, 31, .ro, 0⟩, ⟨30, 30, .ro, 0⟩, ⟨17, 0, .ro, 0x6978⟩]⟩,
  ⟨0x324, 0x4, 1, [⟨7, 0, .rwc, 8⟩]⟩,
  ⟨0x328, 0x4, 1, [⟨16, 1, .ro, 0⟩]⟩,
  ⟨0x32C, 0x4, 1, [⟨16, 1, .ro, 0⟩]⟩,
  ⟨0x330, 0x4, 1, [⟨16, 1, .ro, 0⟩]⟩,
  ⟨0x334, 0x4, 1, [⟨16, 1, .ro, 0⟩]⟩,
  ⟨0x338, 0x4, 2, [⟨31, 0, .ro, 0⟩]⟩,
  ⟨0x340, 0x4, 8, [⟨31, 16, .tc, 0⟩, ⟨15, 0, .tc, 0⟩]⟩,
  ⟨0x360, 0x4, 1, [⟨31, 0, .tc, 0⟩]⟩,
  ⟨0x364, 0x4, 1, [⟨31, 31, .ro, 0⟩, ⟨20, 16, .ro, 0⟩, ⟨15, 0, .ro, 0⟩]⟩,
  ⟨0x368, 0x4, 1, [⟨31, 31, .ro, 0⟩, ⟨20, 16, .ro, 0⟩, ⟨15, 0, .ro, 0⟩]⟩,
  ⟨0x36C, 0x4, 1, [⟨31, 0, .ro, 0⟩]⟩,
  ⟨0x370, 0x4, 1, [⟨31, 0, .tc, 0⟩]⟩,
  ⟨0x380, 0x4, 16, [⟨31, 16, .ro, 0xffff⟩, ⟨15, 0, .ro, 0xffff⟩]⟩,
  ⟨0x3C0, 0x4, 1, [⟨31, 0, .ro, 0⟩]⟩,
  ⟨0x400, 0x4, 128, [⟨31, 0, .ro, 0⟩]⟩,
  ⟨0x800, 0x4, 256, [⟨31, 0, .rw, 0⟩]⟩,
  ⟨0xC00, 0x4, 256, [⟨31, 0, .ro, 0⟩]⟩]

/-- Registers of the LP page (R341): LP_CFG, LQ_CFG, CABLE_CTRL, CABLE_STAT, LINK_AT, LQ_LOWEST, LINK_DOWNS, FEC_CORR, FEC_UNC, SYM_ERR, RX_FRAMES, TX_FRAMES, RX_FCS, RX_ABORT, RX_OTHER, TX_SOF, RX_SOF, RX_EOF. -/
def rowsLP : List RegRow := [
  ⟨0x040, 0x4, 1, [⟨8, 8, .rwc, 0⟩, ⟨5, 4, .rwc, 0⟩, ⟨2, 0, .rwc, 0⟩]⟩,
  ⟨0x044, 0x4, 1, [⟨2, 0, .rw, 3⟩]⟩,
  ⟨0x048, 0x4, 1, [⟨0, 0, .w1s, 0⟩]⟩,
  ⟨0x04C, 0x4, 1, [⟨31, 30, .ro, 0⟩, ⟨15, 0, .ro, 0⟩]⟩,
  ⟨0x050, 0x4, 1, [⟨31, 0, .ro, 0⟩]⟩,
  ⟨0x054, 0x4, 1, [⟨2, 0, .rc, 7⟩]⟩,
  ⟨0x060, 0x4, 1, [⟨31, 0, .tc, 0⟩]⟩,
  ⟨0x064, 0x4, 1, [⟨31, 0, .ro, 0⟩]⟩,
  ⟨0x068, 0x4, 1, [⟨31, 0, .tc, 0⟩]⟩,
  ⟨0x06C, 0x4, 1, [⟨31, 0, .tc, 0⟩]⟩,
  ⟨0x070, 0x4, 1, [⟨31, 0, .ro, 0⟩]⟩,
  ⟨0x074, 0x4, 1, [⟨31, 0, .ro, 0⟩]⟩,
  ⟨0x078, 0x4, 1, [⟨31, 0, .tc, 0⟩]⟩,
  ⟨0x07C, 0x4, 1, [⟨31, 0, .tc, 0⟩]⟩,
  ⟨0x080, 0x4, 1, [⟨31, 0, .tc, 0⟩]⟩,
  ⟨0x090, 0x4, 1, [⟨31, 0, .ro, 0⟩]⟩,
  ⟨0x094, 0x4, 1, [⟨31, 0, .ro, 0⟩]⟩,
  ⟨0x098, 0x4, 1, [⟨31, 0, .ro, 0⟩]⟩]

/-- Registers of the LF page (R232): LF_CFG, V_LO, V_HI, STILL_T, PRESET, LF_CTRL, COUNT_LIVE, S_COUNT, S_EDGE, S_STAT, S_STAMP, SPEED, FSTAT, IDX_COUNT, IDX_STAMP, CMP, PITCH, CMP_CTRL, CMP_STAT, SKIPPED, HITS, ERR_QUAD, ERR_RATE, CMP_MERGE. -/
def rowsLF : List RegRow := [
  ⟨0x040, 0x4, 1, [⟨17, 16, .rwc, 2⟩, ⟨11, 8, .rwc, 0⟩, ⟨5, 4, .rwc, 0⟩, ⟨3, 3, .rwc, 0⟩, ⟨2, 0, .rwc, 0⟩]⟩,
  ⟨0x044, 0x4, 1, [⟨30, 0, .rwc, 0x271000⟩]⟩,
  ⟨0x048, 0x4, 1, [⟨30, 0, .rwc, 0x4e2000⟩]⟩,
  ⟨0x04C, 0x4, 1, [⟨31, 0, .rwc, 0x2faf080⟩]⟩,
  ⟨0x050, 0x4, 1, [⟨31, 0, .rwc, 0⟩]⟩,
  ⟨0x054, 0x4, 1, [⟨1, 1, .w1s, 0⟩, ⟨0, 0, .rwc, 0⟩]⟩,
  ⟨0x058, 0x4, 1, [⟨31, 0, .ro, 0⟩]⟩,
  ⟨0x060, 0x4, 1, [⟨31, 0, .ro, 0⟩]⟩,
  ⟨0x064, 0x4, 1, [⟨31, 0, .ro, 0x7fffffff⟩]⟩,
  ⟨0x068, 0x4, 1, [⟨31, 0, .ro, 0⟩]⟩,
  ⟨0x06C, 0x4, 1, [⟨31, 0, .ro, 0⟩]⟩,
  ⟨0x070, 0x4, 1, [⟨31, 0, .ro, 0⟩]⟩,
  ⟨0x074, 0x4, 1, [⟨31, 0, .ro, 0⟩]⟩,
  ⟨0x078, 0x4, 1, [⟨31, 0, .ro, 0⟩]⟩,
  ⟨0x07C, 0x4, 1, [⟨31, 0, .ro, 0⟩]⟩,
  ⟨0x080, 0x4, 1, [⟨31, 0, .rw, 0⟩]⟩,
  ⟨0x084, 0x4, 1, [⟨30, 0, .rw, 0⟩]⟩,
  ⟨0x088, 0x4, 1, [⟨31, 31, .rw, 0⟩, ⟨8, 8, .rw, 0⟩, ⟨7, 0, .rw, 1⟩]⟩,
  ⟨0x08C, 0x4, 1, [⟨1, 1, .ro, 0⟩, ⟨0, 0, .w1c, 0⟩]⟩,
  ⟨0x090, 0x4, 1, [⟨31, 0, .ro, 0⟩]⟩,
  ⟨0x094, 0x4, 1, [⟨31, 0, .ro, 0⟩]⟩,
  ⟨0x098, 0x4, 1, [⟨31, 0, .tc, 0⟩]⟩,
  ⟨0x09C, 0x4, 1, [⟨31, 0, .tc, 0⟩]⟩,
  ⟨0x0A0, 0x4, 1, [⟨31, 0, .tc, 0⟩]⟩]

/-- Registers of the EP page (R408): EP_CFG, STR0, STR1, EP_STAT, EP_LATCH, EP_CTRL, STAMP, CNT. -/
def rowsEP : List RegRow := [
  ⟨0x040, 0x4, 8, [⟨31, 31, .rwc, 0⟩, ⟨30, 30, .rwc, 0⟩, ⟨29, 28, .rwc, 0⟩, ⟨27, 27, .rwc, 0⟩, ⟨26, 26, .rwc, 0⟩, ⟨25, 24, .rwc, 0⟩, ⟨21, 16, .rwc, 0⟩, ⟨15, 0, .rwc, 0⟩]⟩,
  ⟨0x060, 0x8, 8, [⟨31, 16, .rwc, 0⟩, ⟨15, 8, .rwc, 0⟩, ⟨7, 7, .rwc, 0⟩]⟩,
  ⟨0x064, 0x8, 8, [⟨15, 0, .rwc, 0⟩]⟩,
  ⟨0x0A0, 0x4, 1, [⟨31, 24, .ro, 0⟩, ⟨23, 16, .ro, 0⟩, ⟨15, 8, .ro, 0⟩, ⟨7, 0, .ro, 0⟩]⟩,
  ⟨0x0A4, 0x4, 1, [⟨7, 0, .ro, 0⟩]⟩,
  ⟨0x0A8, 0x4, 1, [⟨7, 0, .w1s, 0⟩]⟩,
  ⟨0x0C0, 0x4, 8, [⟨31, 0, .ro, 0⟩]⟩,
  ⟨0x0E0, 0x4, 8, [⟨31, 16, .tc, 0⟩, ⟨15, 0, .tc, 0⟩]⟩]

/-- Registers of the CU page (R384): SRC, RATE, TRIG, LEVEL, HYST, ALLOC, PRE, POST, CU_CTRL, CU_STAT, WR_SEQ, FILL, TRIG_SEQ, TRIG_STAMP, MARK, OLDEST, RD_SEQ, LOST_RECS, RECORDS, CADDY_CE, CADDY_UE, CADDY_WR_REF. -/
def rowsCU : List RegRow := [
  ⟨0x040, 0x4, 1, [⟨31, 30, .rw, 0⟩, ⟨23, 16, .rw, 0⟩, ⟨3, 0, .rw, 0⟩]⟩,
  ⟨0x044, 0x4, 1, [⟨31, 31, .rw, 0⟩, ⟨30, 30, .rw, 0⟩, ⟨15, 0, .rw, 0⟩]⟩,
  ⟨0x048, 0x4, 1, [⟨31, 30, .rw, 0⟩, ⟨29, 28, .rw, 0⟩, ⟨5, 0, .rw, 0⟩]⟩,
  ⟨0x04C, 0x4, 1, [⟨31, 0, .rw, 0⟩]⟩,
  ⟨0x050, 0x4, 1, [⟨30, 0, .rw, 0⟩]⟩,
  ⟨0x054, 0x4, 1, [⟨27, 16, .rw, 1⟩, ⟨10, 0, .rw, 0⟩]⟩,
  ⟨0x058, 0x4, 1, [⟨20, 0, .rw, 0⟩]⟩,
  ⟨0x05C, 0x4, 1, [⟨20, 0, .rw, 1⟩]⟩,
  ⟨0x060, 0x4, 1, [⟨5, 5, .rw, 0⟩, ⟨4, 4, .w1s, 0⟩, ⟨3, 3, .w1s, 0⟩, ⟨2, 2, .w1s, 0⟩, ⟨1, 1, .w1s, 0⟩, ⟨0, 0, .w1s, 0⟩]⟩,
  ⟨0x064, 0x4, 1, [⟨31, 28, .ro, 0⟩, ⟨6, 6, .ro, 0⟩, ⟨5, 5, .w1c, 0⟩, ⟨4, 4, .w1c, 0⟩, ⟨3, 3, .w1c, 0⟩, ⟨2, 2, .w1c, 0⟩, ⟨1, 1, .w1c, 0⟩]⟩,
  ⟨0x068, 0x4, 1, [⟨31, 0, .ro, 0⟩]⟩,
  ⟨0x06C, 0x4, 1, [⟨20, 0, .ro, 0⟩]⟩,
  ⟨0x070, 0x4, 1, [⟨31, 0, .ro, 0xffffffff⟩]⟩,
  ⟨0x074, 0x4, 1, [⟨31, 0, .ro, 0⟩]⟩,
  ⟨0x078, 0x4, 1, [⟨31, 0, .rw, 0⟩]⟩,
  ⟨0x07C, 0x4, 1, [⟨31, 0, .ro, 0⟩]⟩,
  ⟨0x080, 0x4, 1, [⟨31, 0, .ro, 0⟩]⟩,
  ⟨0x084, 0x4, 1, [⟨31, 0, .tc, 0⟩]⟩,
  ⟨0x088, 0x4, 1, [⟨31, 0, .ro, 0⟩]⟩,
  ⟨0x0C0, 0x4, 1, [⟨31, 0, .tc, 0⟩]⟩,
  ⟨0x0C4, 0x4, 1, [⟨31, 0, .tc, 0⟩]⟩,
  ⟨0x0C8, 0x4, 1, [⟨31, 0, .tc, 0⟩]⟩]

/-- Registers of the SF page (R394): SF_CFG, WM, FILL, CREDIT, DATA_LO, DATA_HI, SF_STAT, SF_CTRL, OVERRUN, UNDERRUN, CORR, UE, PAIR_ERR, WORDS. -/
def rowsSF : List RegRow := [
  ⟨0x040, 0x4, 1, [⟨12, 8, .rw, 0x1f⟩, ⟨4, 4, .rw, 0⟩, ⟨0, 0, .rw, 0⟩]⟩,
  ⟨0x044, 0x4, 1, [⟨27, 16, .rw, 0x600⟩, ⟨11, 0, .rw, 0x200⟩]⟩,
  ⟨0x048, 0x4, 1, [⟨11, 0, .ro, 0⟩]⟩,
  ⟨0x04C, 0x4, 1, [⟨11, 0, .ro, 0⟩]⟩,
  ⟨0x050, 0x4, 1, [⟨31, 0, .wo, 0⟩]⟩,
  ⟨0x054, 0x4, 1, [⟨31, 0, .wo, 0⟩]⟩,
  ⟨0x058, 0x4, 1, [⟨3, 2, .ro, 0⟩, ⟨1, 1, .ro, 0⟩, ⟨0, 0, .ro, 0⟩]⟩,
  ⟨0x05C, 0x4, 1, [⟨1, 1, .w1s, 0⟩, ⟨0, 0, .w1s, 0⟩]⟩,
  ⟨0x060, 0x4, 1, [⟨31, 0, .tc, 0⟩]⟩,
  ⟨0x064, 0x4, 1, [⟨31, 0, .tc, 0⟩]⟩,
  ⟨0x068, 0x4, 1, [⟨31, 0, .ro, 0⟩]⟩,
  ⟨0x06C, 0x4, 1, [⟨31, 0, .tc, 0⟩]⟩,
  ⟨0x070, 0x4, 1, [⟨31, 0, .tc, 0⟩]⟩,
  ⟨0x074, 0x4, 1, [⟨31, 0, .ro, 0⟩]⟩]

/-- Registers of the SEQ page (R260): CMD, CFG, PT, T_LOCKS, T_MOVES, DWELL, OBS_HOLD, PROVE, ISO_TQ, MEM, POS_A, POS_B, BAND, STAT, ENTRY_TICK, OBS, CYCLES, CMD_LOST, CMD_IGN, SEQ_STALE, SVC_CFG, PT_OFS, SVC_TAB, SIG_CFG. -/
def rowsSEQA : List RegRow := [
  ⟨0x040, 0x4, 1, [⟨3, 0, .rwc, 0⟩]⟩,
  ⟨0x044, 0x4, 1, [⟨31, 31, .rwc, 0⟩, ⟨30, 30, .rwc, 0⟩, ⟨23, 16, .rwc, 3⟩, ⟨15, 8, .rwc, 2⟩, ⟨7, 0, .rwc, 2⟩]⟩,
  ⟨0x048, 0x4, 1, [⟨28, 24, .rwc, 0⟩, ⟨20, 16, .rwc, 0⟩, ⟨12, 8, .rwc, 0⟩, ⟨4, 0, .rwc, 0⟩]⟩,
  ⟨0x04C, 0x4, 1, [⟨31, 16, .rwc, 0xc8⟩, ⟨15, 0, .rwc, 0xc8⟩]⟩,
  ⟨0x050, 0x4, 1, [⟨31, 16, .rwc, 0x1770⟩, ⟨15, 0, .rwc, 0x1770⟩]⟩,
  ⟨0x054, 0x4, 1, [⟨31, 16, .rwc, 0xbb8⟩, ⟨15, 0, .rwc, 0x1770⟩]⟩,
  ⟨0x058, 0x4, 1, [⟨15, 0, .rwc, 0xa⟩]⟩,
  ⟨0x05C, 0x4, 1, [⟨31, 31, .rwc, 0⟩, ⟨30, 30, .rwc, 0⟩, ⟨29, 24, .rwc, 0⟩, ⟨23, 23, .rwc, 0⟩, ⟨22, 22, .rwc, 0⟩, ⟨21, 16, .rwc, 0⟩]⟩,
  ⟨0x060, 0x4, 1, [⟨15, 0, .rwc, 0⟩]⟩,
  ⟨0x080, 0x4, 16, [⟨31, 31, .rwc, 0⟩, ⟨30, 29, .rwc, 0⟩, ⟨26, 24, .rwc, 0⟩, ⟨7, 0, .rwc, 0⟩]⟩,
  ⟨0x0C0, 0x8, 16, [⟨31, 0, .rwc, 0⟩]⟩,
  ⟨0x0C4, 0x8, 16, [⟨31, 0, .rwc, 0⟩]⟩,
  ⟨0x140, 0x4, 16, [⟨30, 0, .rwc, 0⟩]⟩,
  ⟨0x180, 0x4, 1, [⟨31, 28, .ro, 0xf⟩, ⟨27, 24, .ro, 0⟩, ⟨23, 16, .ro, 0⟩, ⟨15, 8, .ro, 0⟩, ⟨7, 7, .ro, 0⟩, ⟨3, 0, .ro, 0⟩]⟩,
  ⟨0x184, 0x4, 1, [⟨31, 0, .ro, 0⟩]⟩,
  ⟨0x188, 0x4, 1, [⟨31, 31, .ro, 0⟩, ⟨7, 0, .ro, 0⟩]⟩,
  ⟨0x18C, 0x4, 1, [⟨31, 0, .ro, 0⟩]⟩,
  ⟨0x190, 0x4, 1, [⟨31, 0, .tc, 0⟩]⟩,
  ⟨0x194, 0x4, 1, [⟨31, 0, .tc, 0⟩]⟩,
  ⟨0x198, 0x4, 1, [⟨31, 0, .tc, 0⟩]⟩,
  ⟨0x1C0, 0x4, 1, [⟨13, 12, .rwc, 1⟩, ⟨9, 8, .rwc, 1⟩]⟩,
  ⟨0x1C4, 0x4, 1, [⟨18, 0, .rwc, 0x40000⟩]⟩,
  ⟨0x1C8, 0x4, 1, [⟨18, 0, .rwc, 0x41000⟩]⟩,
  ⟨0x1CC, 0x4, 1, [⟨26, 16, .rwc, 0⟩, ⟨10, 0, .rwc, 0⟩]⟩]

/-- Registers of the SEQ page (R260): SIG_WR, SIG_OVW. -/
def rowsSEQB : List RegRow := [
  ⟨0x1D0, 0x4, 1, [⟨31, 0, .ro, 0⟩]⟩,
  ⟨0x1D4, 0x4, 1, [⟨31, 0, .tc, 0⟩]⟩]

/-- Registers of the AXIS page (R207): MAP, PLACE, LMODE, CASC, BANK, STAT, HOLD_CNT, LSTAT, FLAG_CLR, SP_POS, SP_VEL, SP_ID, SP_TQ, FF, TQ_LIMIT, COMM_OFS, COMM_GAIN, COMM_SH, ADV_K, ADV_SH, FB_CFG, V_LO, V_HI, STILL_T. -/
def rowsAXISA : List RegRow := [
  ⟨0x040, 0x4, 1, [⟨31, 31, .rwc, 0⟩, ⟨27, 24, .rwc, 0⟩, ⟨20, 16, .rwc, 0⟩, ⟨9, 8, .rwc, 0⟩]⟩,
  ⟨0x044, 0x4, 1, [⟨2, 0, .rwc, 0⟩]⟩,
  ⟨0x048, 0x4, 1, [⟨12, 12, .rwc, 0⟩, ⟨9, 8, .rwc, 0⟩, ⟨5, 4, .rwc, 0⟩, ⟨1, 0, .rwc, 0⟩]⟩,
  ⟨0x04C, 0x4, 1, [⟨10, 8, .rwc, 0⟩, ⟨5, 4, .rwc, 2⟩, ⟨3, 2, .rwc, 1⟩, ⟨1, 0, .rwc, 0⟩]⟩,
  ⟨0x050, 0x4, 1, [⟨3, 0, .rwc, 0⟩]⟩,
  ⟨0x054, 0x4, 1, [⟨31, 31, .w1c, 0⟩, ⟨30, 30, .ro, 0⟩, ⟨29, 29, .ro, 0⟩, ⟨28, 28, .ro, 0⟩]⟩,
  ⟨0x058, 0x4, 1, [⟨31, 0, .ro, 0⟩]⟩,
  ⟨0x05C, 0x4, 1, [⟨31, 0, .ro, 0⟩]⟩,
  ⟨0x060, 0x4, 1, [⟨31, 0, .rwc, 0⟩]⟩,
  ⟨0x064, 0x4, 1, [⟨31, 0, .rwc, 0⟩]⟩,
  ⟨0x068, 0x4, 1, [⟨31, 0, .rwc, 0⟩]⟩,
  ⟨0x06C, 0x4, 1, [⟨31, 0, .rwc, 0⟩]⟩,
  ⟨0x070, 0x4, 1, [⟨31, 0, .rwc, 0⟩]⟩,
  ⟨0x074, 0x4, 1, [⟨31, 0, .rwc, 0⟩]⟩,
  ⟨0x078, 0x4, 1, [⟨15, 0, .rwc, 0x7fff⟩]⟩,
  ⟨0x080, 0x4, 1, [⟨31, 0, .rwc, 0⟩]⟩,
  ⟨0x084, 0x4, 1, [⟨31, 0, .rwc, 0⟩]⟩,
  ⟨0x088, 0x4, 1, [⟨4, 0, .rwc, 0⟩]⟩,
  ⟨0x090, 0x4, 1, [⟨31, 0, .rwc, 0⟩]⟩,
  ⟨0x094, 0x4, 1, [⟨4, 0, .rwc, 0⟩]⟩,
  ⟨0x300, 0x4, 1, [⟨31, 31, .rwc, 0⟩, ⟨27, 24, .rwc, 0⟩, ⟨17, 16, .rwc, 2⟩, ⟨8, 8, .rwc, 0⟩, ⟨7, 0, .rwc, 8⟩]⟩,
  ⟨0x304, 0x4, 1, [⟨30, 0, .rwc, 0x271000⟩]⟩,
  ⟨0x308, 0x4, 1, [⟨30, 0, .rwc, 0x4e2000⟩]⟩,
  ⟨0x30C, 0x4, 1, [⟨31, 0, .rwc, 0x2faf080⟩]⟩]

/-- Registers of the AXIS page (R207): SEC_GAIN, SEC_SH, SLIP_TOL, FB_CTRL, POS_LO, POS_HI, SPEED, FSTAT, SEC_SPEED, OBS_CFG, KT, KT_SH, KJ, KJ_SH, KB, KB_SH, FS, F_ABS, LEARN, STROKE_LO, OBS_TQ, RELIEF, F_EST, OBS_WORD. -/
def rowsAXISB : List RegRow := [
  ⟨0x310, 0x4, 1, [⟨31, 0, .rwc, 0⟩]⟩,
  ⟨0x314, 0x4, 1, [⟨4, 0, .rwc, 0⟩]⟩,
  ⟨0x318, 0x4, 1, [⟨30, 0, .rwc, 0⟩]⟩,
  ⟨0x31C, 0x4, 1, [⟨0, 0, .rwc, 0⟩]⟩,
  ⟨0x320, 0x4, 1, [⟨31, 0, .ro, 0⟩]⟩,
  ⟨0x324, 0x4, 1, [⟨31, 0, .ro, 0⟩]⟩,
  ⟨0x328, 0x4, 1, [⟨31, 0, .ro, 0⟩]⟩,
  ⟨0x32C, 0x4, 1, [⟨31, 0, .ro, 0⟩]⟩,
  ⟨0x330, 0x4, 1, [⟨31, 0, .ro, 0⟩]⟩,
  ⟨0x400, 0x4, 1, [⟨31, 31, .rwc, 0⟩, ⟨30, 30, .rwc, 1⟩, ⟨23, 16, .rwc, 8⟩, ⟨11, 8, .rwc, 4⟩, ⟨4, 0, .rwc, 9⟩]⟩,
  ⟨0x404, 0x4, 1, [⟨31, 0, .rwc, 0⟩]⟩,
  ⟨0x408, 0x4, 1, [⟨4, 0, .rwc, 0⟩]⟩,
  ⟨0x40C, 0x4, 1, [⟨31, 0, .rwc, 0⟩]⟩,
  ⟨0x410, 0x4, 1, [⟨4, 0, .rwc, 0⟩]⟩,
  ⟨0x414, 0x4, 1, [⟨31, 0, .rwc, 0⟩]⟩,
  ⟨0x418, 0x4, 1, [⟨4, 0, .rwc, 0⟩]⟩,
  ⟨0x41C, 0x4, 1, [⟨15, 0, .rwc, 0⟩]⟩,
  ⟨0x420, 0x4, 1, [⟨15, 0, .rwc, 0xffff⟩]⟩,
  ⟨0x424, 0x4, 1, [⟨18, 16, .rwc, 4⟩, ⟨15, 0, .rwc, 0⟩]⟩,
  ⟨0x428, 0x4, 1, [⟨31, 0, .rwc, 0⟩]⟩,
  ⟨0x42C, 0x4, 1, [⟨15, 0, .rwc, 0⟩]⟩,
  ⟨0x430, 0x4, 1, [⟨15, 0, .rwc, 0⟩]⟩,
  ⟨0x440, 0x4, 1, [⟨31, 0, .ro, 0⟩]⟩,
  ⟨0x444, 0x4, 1, [⟨31, 0, .ro, 0⟩]⟩]

/-- Registers of the AXIS page (R207): OBS_TICK, KP, KP_SH, KI, KI_SH, KD, KD_SH, KF, KF_SH, ILO, IHI, ULO, UHI, LAW, BAND, DWELL. -/
def rowsAXISC : List RegRow := [
  ⟨0x448, 0x4, 1, [⟨31, 0, .ro, 0⟩]⟩,
  ⟨0x100, 0x40, 8, [⟨31, 0, .rwc, 0⟩]⟩,
  ⟨0x104, 0x40, 8, [⟨4, 0, .rwc, 0⟩]⟩,
  ⟨0x108, 0x40, 8, [⟨31, 0, .rwc, 0⟩]⟩,
  ⟨0x10C, 0x40, 8, [⟨4, 0, .rwc, 0⟩]⟩,
  ⟨0x110, 0x40, 8, [⟨31, 0, .rwc, 0⟩]⟩,
  ⟨0x114, 0x40, 8, [⟨4, 0, .rwc, 0⟩]⟩,
  ⟨0x118, 0x40, 8, [⟨31, 0, .rwc, 0⟩]⟩,
  ⟨0x11C, 0x40, 8, [⟨4, 0, .rwc, 0⟩]⟩,
  ⟨0x120, 0x40, 8, [⟨31, 0, .rwc, 0⟩]⟩,
  ⟨0x124, 0x40, 8, [⟨31, 0, .rwc, 0⟩]⟩,
  ⟨0x128, 0x40, 8, [⟨31, 0, .rwc, 0⟩]⟩,
  ⟨0x12C, 0x40, 8, [⟨31, 0, .rwc, 0⟩]⟩,
  ⟨0x130, 0x40, 8, [⟨15, 12, .rwc, 0⟩, ⟨9, 8, .rwc, 0⟩, ⟨4, 4, .rwc, 0⟩, ⟨3, 3, .rwc, 0⟩, ⟨2, 2, .rwc, 0⟩, ⟨0, 0, .rwc, 0⟩]⟩,
  ⟨0x134, 0x40, 8, [⟨31, 0, .rwc, 0⟩]⟩,
  ⟨0x138, 0x40, 8, [⟨15, 0, .rwc, 0⟩]⟩]

/-- Table 2.2, in ascending base address. -/
def pageRows : List PageRow := [
  ⟨0x01, 0x0, 1, 0, 0x0, false, rowsCHIP⟩,
  ⟨0x02, 0x1000, 1, 1, 0x0, false, rowsTICKA ++ rowsTICKB⟩,
  ⟨0x03, 0x2000, 1, 0, 0x0, false, rowsTIME⟩,
  ⟨0x04, 0x3000, 1, 0, 0x0, false, rowsPTP⟩,
  ⟨0x05, 0x4000, 1, 1, 0x10, true, rowsPWR⟩,
  ⟨0x06, 0x5000, 1, 1, 0xA, true, rowsRST⟩,
  ⟨0x07, 0x6000, 1, 1, 0x5, true, rowsCLK⟩,
  ⟨0x08, 0x7000, 1, 1, 0x2060, false, rowsIRQ⟩,
  ⟨0x09, 0x8000, 1, 1, 0x5, false, rowsHOSTIF⟩,
  ⟨0x0A, 0x9000, 1, 1, 0x3, false, rowsTRAY⟩,
  ⟨0x0B, 0xA000, 1, 1, 0x3, true, rowsSTBYA ++ rowsSTBYB⟩,
  ⟨0x0C, 0xB000, 1, 1, 0x2, true, rowsKTL⟩,
  ⟨0x0D, 0xC000, 1, 1, 0x1004, false, rowsSENS⟩,
  ⟨0x0E, 0xD000, 1, 1, 0x1000, false, rowsLOG⟩,
  ⟨0x0F, 0xE000, 1, 1, 0x8A40, false, rowsEVX⟩,
  ⟨0x10, 0x10000, 8, 0, 0x808, false, rowsPOT⟩,
  ⟨0x11, 0x20000, 64, 0, 0x1020, false, rowsLEAF⟩,
  ⟨0x12, 0x60000, 16, 0, 0x2010, false, rowsSEGA ++ rowsSEGB⟩,
  ⟨0x13, 0x70000, 32, 0, 0x7, false, rowsLP⟩,
  ⟨0x14, 0x90000, 16, 0, 0x1F, false, rowsLF⟩,
  ⟨0x15, 0xA0000, 6, 1, 0x8, false, rowsEP⟩,
  ⟨0x16, 0xB0000, 16, 1, 0x800, false, rowsCU⟩,
  ⟨0x17, 0xC0000, 4, 0, 0x800, false, rowsSF⟩,
  ⟨0x18, 0xD0000, 32, 0, 0x0, false, rowsSEQA ++ rowsSEQB⟩,
  ⟨0x19, 0x100000, 256, 1, 0x14, false, rowsAXISA ++ rowsAXISB ++ rowsAXISC⟩]

/-- Block-specific event bits of a page type, bits [28:0] of PG_EVT_RAW (R58 and the blocks' chapters).  Bit 6 of a CU
page exists on CU0 only (R384). -/
def evtBlock (type inst : Nat) : Nat :=
  match type with
  | 0x01 => 0x1
  | 0x02 => 0x3FFF
  | 0x03 => 0xF
  | 0x05 => 0x7
  | 0x07 => 0x3F
  | 0x09 => 0x7F1F1F
  | 0x0A => 0x3
  | 0x0B => 0x3FF
  | 0x0C => 0x1F
  | 0x0D => 0xF
  | 0x0E => 0x7
  | 0x10 => 0x3F
  | 0x11 => 0x3F
  | 0x12 => 0x7FFF
  | 0x13 => 0x3F
  | 0x14 => 0x1F
  | 0x15 => 0xFFFFFF
  | 0x16 => if inst = 0 then 0x7F else 0x3F
  | 0x17 => 0x3F
  | 0x18 => 0x1F
  | 0x19 => 0x3F
  | _ => 0

/-- The fields of the header registers (Tables 2.5 to 2.9, 2.12) that hold a value of their own. -/
def headerFlds (type inst off : Nat) : List Field :=
  let ev := evtBlock type inst
  match off with
  | 0x08 => [⟨11, 8, .rw, 0⟩, ⟨5, 5, .rw, 0⟩, ⟨4, 4, .rw, 0⟩, ⟨1, 1, .w1s, 0⟩, ⟨0, 0, .rwc, 0⟩]
  | 0x10 => ⟨31, 29, .w1c, 0⟩ :: ((List.range 29).filter (Nat.testBit ev)).map (fun i => ⟨i, i, .w1c, 0⟩)
  | 0x14 => ⟨31, 29, .rw, 0⟩ :: ((List.range 29).filter (Nat.testBit ev)).map (fun i => ⟨i, i, .rw, 0⟩)
  | 0x18 => ⟨31, 29, .w1s, 0⟩ :: ((List.range 29).filter (Nat.testBit ev)).map (fun i => ⟨i, i, .w1s, 0⟩)
  | 0x1C => [⟨2, 1, .ro, 0⟩, ⟨0, 0, .w1s, 0⟩]
  | 0x20 => [⟨31, 0, .tc, 0⟩]
  | 0x24 => [⟨31, 31, .ro, 0⟩, ⟨15, 0, .wo, 0⟩]
  | _ => []

/-- Rows that stand on one instance of a block only: the Caddy counters on CU0 (R384), `BELSY_CFG` on SEG0 (R293), the
service registers on SEQ0 (R233). -/
def rowHere (type inst off : Nat) : Bool :=
  match type with
  | 0x12 => decide (off ≠ 0x8C ∨ inst = 0)
  | 0x16 => decide (off < 0xC0 ∨ inst = 0)
  | 0x18 => decide (off < 0x1C0 ∨ inst = 0)
  | _ => true

/-- Where a BAR0 offset stands: its block's row, the instance and the offset in the page. -/
structure PageAt where
  page : PageRow
  inst : Nat
  off : Nat
  deriving DecidableEq, Repr

/-- The register page of a BAR0 offset (R53). -/
def pageAt (a : Nat) : Option PageAt :=
  match pageRows.find? (fun p => decide (p.base ≤ a ∧ a < p.base + 0x1000 * p.count)) with
  | some p => some ⟨p, (a - p.base) / 0x1000, (a - p.base) % 0x1000⟩
  | none => none

/-- The row of a page that holds an offset, with the register's number in the row. -/
def rowAt (p : PageAt) : Option (RegRow × Nat) :=
  match p.page.rows.find? (fun r =>
      decide (r.off ≤ p.off ∧ (p.off - r.off) % r.stride = 0 ∧ (p.off - r.off) / r.stride < r.count)) with
  | some r => if rowHere p.page.type p.inst p.off then some (r, (p.off - r.off) / r.stride) else none
  | none => none

/-- The fields of the register at a place: none where the offset is reserved (R50). -/
def fldsAt (p : PageAt) : List Field :=
  if p.off < 0x40 then headerFlds p.page.type p.inst p.off
  else match rowAt p with
    | some (r, _) => r.flds
    | none => []

/-- The mask of a field. -/
def Field.mask (f : Field) : Word := fmask f.hi f.lo

/-- The mask of the fields of a register that satisfy a condition. -/
def maskOf (l : List Field) (p : Access → Bool) : Word :=
  l.foldl (fun m f => if p f.acc then m ||| f.mask else m) 0#32

/-- The reset word that the field tables of a register give. -/
def fldReset (l : List Field) : Word := l.foldl (fun w f => w ||| BitVec.ofNat 32 (f.reset * 2 ^ f.lo)) 0#32

/-- `PG_CAP.STAGED`: the page holds RWC registers at offset 0x040 or above (Table 2.6). -/
def PageRow.staged (p : PageRow) : Bool := p.rows.any (fun r => r.flds.any (fun f => decide (f.acc = .rwc)))

/-- `PG_CAP.BLOCK` of an instance: the stream FIFO pages name their direction (R394). -/
def capBlock (p : PageRow) (inst : Nat) : Nat :=
  if p.type = 0x17 ∧ 2 ≤ inst then 0x1800 else p.cap

/-- Reset value of a header register (Tables 2.4 to 2.9). -/
def headerReset (p : PageAt) : Word :=
  match p.off with
  | 0x00 => BitVec.ofNat 32 (p.page.type * 2 ^ 24 + p.inst * 2 ^ 16 + 0x100)
  | 0x04 => BitVec.ofNat 32 ((if p.page.staged then 2 ^ 31 else 0) + 2 ^ 30 + capBlock p.page p.inst)
  | 0x08 => BitVec.ofNat 32 p.page.en
  | 0x24 => if p.page.locked then oneBit 31 else 0#32
  | _ => 0#32

/-- Reset values that a table gives by a rule: the routing of source n (Table 17.2), Service ownership (R297), the
input of event line n (R405), the home Pot of an axis (R154) and the mask bits of the MSI-X table. -/
def ruleReset (type inst off : Nat) : Option Word :=
  match type with
  -- the mask bit of a vector's control word (PRESUMED, log 44: PCI Express)
  | 0x09 => if 0x800 ≤ off ∧ off < 0xA00 ∧ off / 4 % 4 = 3 then some 1#32 else none
  | 0x08 => if 0x100 ≤ off ∧ off < 0x280 then some (BitVec.ofNat 32 (0x8000 + (off - 0x100) / 4 % 32)) else none
  | 0x0F => if 0x100 ≤ off ∧ off < 0x200 then some (BitVec.ofNat 32 (0x80000000 + (off - 0x100) / 4)) else none
  | 0x12 =>
    if 0x200 ≤ off ∧ off < 0x300 then
      some (BitVec.ofNat 32 (ofLE ((List.range 4).map (fun j => BitVec.ofNat 8 ((off - 0x200 + j) % 16 + 1)))))
    else none
  | 0x19 => if off = 0x44 then some (BitVec.ofNat 32 (inst % 8)) else none
  | _ => none

/-- What a register reads while nothing has written it: its reset value (R51 to R60 and the field tables of the
chapters); 0 at reserved offsets (R50) and outside the pages. -/
def regReset (a : Nat) : Word :=
  match pageAt a with
  | none => 0#32
  | some p =>
    if p.off < 0x40 then headerReset p
    else match ruleReset p.page.type p.inst p.off with
      | some w => w
      | none => match rowAt p with
        | some (r, _) => fldReset r.flds
        | none => 0#32

/-- The base address of the page that holds an address. -/
def pageBase (a : Nat) : Nat := a / 0x1000 * 0x1000

/-- Header registers of the page at base `b` (Table 2.4). -/
def pgCtrl (b : Nat) : Nat := b + 0x08
/-- PG_EVT_RAW of the page at base `b`. -/
def pgEvtRaw (b : Nat) : Nat := b + 0x10
/-- PG_EVT_EN of the page at base `b`. -/
def pgEvtEn (b : Nat) : Nat := b + 0x14
/-- PG_ERRCNT of the page at base `b`. -/
def pgErrcnt (b : Nat) : Nat := b + 0x20
/-- PG_LOCK of the page at base `b`. -/
def pgLock (b : Nat) : Nat := b + 0x24


/-- Base address of the CHIP page (Table 2.2). -/
def pgChip : Nat := 0x0
/-- Base address of the TICK page (Table 2.2). -/
def pgTick : Nat := 0x1000
/-- Base address of the TIME page (Table 2.2). -/
def pgTime : Nat := 0x2000
/-- Base address of the PTP page (Table 2.2). -/
def pgPtp : Nat := 0x3000
/-- Base address of the PWR page (Table 2.2). -/
def pgPwr : Nat := 0x4000
/-- Base address of the RST page (Table 2.2). -/
def pgRst : Nat := 0x5000
/-- Base address of the CLK page (Table 2.2). -/
def pgClk : Nat := 0x6000
/-- Base address of the IRQ page (Table 2.2). -/
def pgIrq : Nat := 0x7000
/-- Base address of the HOSTIF page (Table 2.2). -/
def pgHostif : Nat := 0x8000
/-- Base address of the TRAY page (Table 2.2). -/
def pgTray : Nat := 0x9000
/-- Base address of the STBY page (Table 2.2). -/
def pgStby : Nat := 0xA000
/-- Base address of the KTL page (Table 2.2). -/
def pgKtl : Nat := 0xB000
/-- Base address of the SENS page (Table 2.2). -/
def pgSens : Nat := 0xC000
/-- Base address of the LOG page (Table 2.2). -/
def pgLog : Nat := 0xD000
/-- Base address of the EVX page (Table 2.2). -/
def pgEvx : Nat := 0xE000
/-- Base address of the POT page (Table 2.2). -/
def pgPot (n : Nat) : Nat := 0x10000 + 0x1000 * n
/-- Base address of the LEAF page (Table 2.2). -/
def pgLeaf (n : Nat) : Nat := 0x20000 + 0x1000 * n
/-- Base address of the SEG page (Table 2.2). -/
def pgSeg (n : Nat) : Nat := 0x60000 + 0x1000 * n
/-- Base address of the LP page (Table 2.2). -/
def pgLp (n : Nat) : Nat := 0x70000 + 0x1000 * n
/-- Base address of the LF page (Table 2.2). -/
def pgLf (n : Nat) : Nat := 0x90000 + 0x1000 * n
/-- Base address of the EP page (Table 2.2). -/
def pgEp (n : Nat) : Nat := 0xA0000 + 0x1000 * n
/-- Base address of the CU page (Table 2.2). -/
def pgCu (n : Nat) : Nat := 0xB0000 + 0x1000 * n
/-- Base address of the SF page (Table 2.2). -/
def pgSf (n : Nat) : Nat := 0xC0000 + 0x1000 * n
/-- Base address of the SEQ page (Table 2.2). -/
def pgSeq (n : Nat) : Nat := 0xD0000 + 0x1000 * n
/-- Base address of the AXIS page (Table 2.2). -/
def pgAxis (n : Nat) : Nat := 0x100000 + 0x1000 * n
/-! Addresses by name: `n` is the page instance, `i` the register of an array. -/

/-- `CHIP.CHIP_ID`, PART [31:16] GRADE [15:12] REV [7:0] (R4). -/
def CHIP.CHIP_ID : Nat := 0x40
/-- `CHIP.COMMIT`, GRP [15:0] (R73). -/
def CHIP.COMMIT : Nat := 0x48
/-- `CHIP.COMMIT_STAT`, STAGED [31:16] CAPTURED [15:0] (R73). -/
def CHIP.COMMIT_STAT : Nat := 0x4C
/-- `CHIP.COMMIT_LAST`, REASON [31:28] GRP [27:24] AUTO [23:23] TICK_LO [15:0] (R73). -/
def CHIP.COMMIT_LAST : Nat := 0x50
/-- `CHIP.REFUSE_ADDR`, ADDR [24:0] (R73). -/
def CHIP.REFUSE_ADDR : Nat := 0x54
/-- `CHIP.COMMIT_OK`, APPLIED [31:0] (R73). -/
def CHIP.COMMIT_OK : Nat := 0x58
/-- `CHIP.COMMIT_REF`, REFUSED [31:0] (R73). -/
def CHIP.COMMIT_REF : Nat := 0x5C
/-- `CHIP.CCNT_SEL`, EN [31:31] MODE [30:30] GATE [29:29] SCOPE [15:12] EVENT [7:0] (R442). -/
def CHIP.CCNT_SEL (i : Nat) : Nat := 0x100 + 0x10 * i
/-- `CHIP.CCNT_LO`, LO [31:0] (R442). -/
def CHIP.CCNT_LO (i : Nat) : Nat := 0x104 + 0x10 * i
/-- `CHIP.CCNT_HI`, HI [15:0] (R442). -/
def CHIP.CCNT_HI (i : Nat) : Nat := 0x108 + 0x10 * i
/-- `CHIP.PCTL`, CLR [1:1] FREEZE [0:0] (R442). -/
def CHIP.PCTL : Nat := 0x200
/-- `CHIP.PGATE_OPEN`, OPEN [17:0] (R443). -/
def CHIP.PGATE_OPEN : Nat := 0x204
/-- `CHIP.PGATE_CLOSE`, CLOSE [17:0] (R443). -/
def CHIP.PGATE_CLOSE : Nat := 0x208
/-- `TICK.TICK_CTRL`, RUN [31:31] START_MODE [2:0] (R90). -/
def TICK.TICK_CTRL : Nat := 0x1040
/-- `TICK.TICK_STAT`, RUNNING [31:31] MODE_NOW [18:16] CP_IDLE [7:0] (R88). -/
def TICK.TICK_STAT : Nat := 0x1044
/-- `TICK.START_AT`, START_AT [31:0] (R90). -/
def TICK.START_AT : Nat := 0x1048
/-- `TICK.TICK_NO_LO`, TICK_NO_LO [31:0] (R90). -/
def TICK.TICK_NO_LO : Nat := 0x104C
/-- `TICK.TICK_NO_HI`, TICK_NO_HI [31:0] (R90). -/
def TICK.TICK_NO_HI : Nat := 0x1050
/-- `TICK.T0_FAST`, T0_FAST [31:0] (R91). -/
def TICK.T0_FAST : Nat := 0x1054
/-- `TICK.OFS_NOW`, OFS_NOW [17:0] (R88). -/
def TICK.OFS_NOW : Nat := 0x1058
/-- `TICK.CP`, EN [31:31] OFS [17:0] (R92). -/
def TICK.CP (i : Nat) : Nat := 0x1060 + 0x4 * i
/-- `TICK.MC_CTRL`, GO [31:31] ABORT [30:30] ANN [20:16] TARGET [2:0] (R306). -/
def TICK.MC_CTRL : Nat := 0x1080
/-- `TICK.MC_TICK_LO`, MC_TICK_LO [31:0] (R306). -/
def TICK.MC_TICK_LO : Nat := 0x1084
/-- `TICK.MC_TICK_HI`, MC_TICK_HI [31:0] (R306). -/
def TICK.MC_TICK_HI : Nat := 0x1088
/-- `TICK.MC_STAT`, STATE [31:28] REASON [27:24] NODE [20:16] SEG [11:8] TGT [2:0] (R310). -/
def TICK.MC_STAT : Nat := 0x108C
/-- `TICK.MC_DONE`, MC_DONE [31:0] (R307). -/
def TICK.MC_DONE : Nat := 0x1090
/-- `TICK.MC_ABANDON`, MC_ABANDON [31:0] (R310). -/
def TICK.MC_ABANDON : Nat := 0x1094
/-- `TICK.LINE_STAT`, LSTATE [31:28] CAUSE [27:24] (R320). -/
def TICK.LINE_STAT : Nat := 0x10C0
/-- `TICK.RIVAL_LO`, RIVAL_LO [31:0] (R320). -/
def TICK.RIVAL_LO : Nat := 0x10C4
/-- `TICK.RIVAL_HI`, RIVAL_HI [7:0] (R320). -/
def TICK.RIVAL_HI : Nat := 0x10C8
/-- `TICK.START_TENURE`, START_TENURE [15:0] (R322). -/
def TICK.START_TENURE : Nat := 0x10CC
/-- `TICK.MODE_PERIOD`, PERIOD [17:0] (R88). -/
def TICK.MODE_PERIOD (i : Nat) : Nat := 0x1100 + 0x20 * i
/-- `TICK.MODE_GATHER_OFS`, GATHER_OFS [17:0] (R88). -/
def TICK.MODE_GATHER_OFS (i : Nat) : Nat := 0x1104 + 0x20 * i
/-- `TICK.MODE_GATHER_LATE`, GATHER_LATE [17:0] (R88). -/
def TICK.MODE_GATHER_LATE (i : Nat) : Nat := 0x1108 + 0x20 * i
/-- `TICK.MODE_POUR_CLOSE`, POUR_CLOSE [17:0] (R88). -/
def TICK.MODE_POUR_CLOSE (i : Nat) : Nat := 0x110C + 0x20 * i
/-- `TICK.MODE_SVC_OPEN`, SVC_OPEN [17:0] (R88). -/
def TICK.MODE_SVC_OPEN (i : Nat) : Nat := 0x1110 + 0x20 * i
/-- `TICK.MODE_SVC`, SVC_COUNT [18:16] SVC_SLOT [11:0] (R88). -/
def TICK.MODE_SVC (i : Nat) : Nat := 0x1114 + 0x20 * i
/-- `TICK.MODE_STAT`, OK [31:31] FAIL [4:0] (R89). -/
def TICK.MODE_STAT (i : Nat) : Nat := 0x1118 + 0x20 * i
/-- `TICK.NOW_PERIOD`, PERIOD [17:0] (R89). -/
def TICK.NOW_PERIOD : Nat := 0x1200
/-- `TICK.NOW_GATHER_OFS`, GATHER_OFS [17:0] (R89). -/
def TICK.NOW_GATHER_OFS : Nat := 0x1204
/-- `TICK.NOW_GATHER_LATE`, GATHER_LATE [17:0] (R89). -/
def TICK.NOW_GATHER_LATE : Nat := 0x1208
/-- `TICK.NOW_POUR_CLOSE`, POUR_CLOSE [17:0] (R89). -/
def TICK.NOW_POUR_CLOSE : Nat := 0x120C
/-- `TICK.NOW_SVC_OPEN`, SVC_OPEN [17:0] (R89). -/
def TICK.NOW_SVC_OPEN : Nat := 0x1210
/-- `TICK.NOW_SVC`, SVC_COUNT [18:16] SVC_SLOT [11:0] (R89). -/
def TICK.NOW_SVC : Nat := 0x1214
/-- `TICK.NOW_STAT`, OK [31:31] FAIL [4:0] (R89). -/
def TICK.NOW_STAT : Nat := 0x1218
/-- `TIME.NS`, NS [29:0] (R74). -/
def TIME.NS : Nat := 0x2040
/-- `TIME.SEC_LO`, SEC_LO [31:0] (R74). -/
def TIME.SEC_LO : Nat := 0x2044
/-- `TIME.SEC_HI`, SEC_HI [15:0] (R74). -/
def TIME.SEC_HI : Nat := 0x2048
/-- `TIME.FAST_NS`, FAST_NS [31:0] (R74). -/
def TIME.FAST_NS : Nat := 0x204C
/-- `TIME.ADDEND`, ADDEND [31:0] (R76). -/
def TIME.ADDEND : Nat := 0x2050
/-- `TIME.ADDEND_NOW`, ADDEND_NOW [31:0] (R76). -/
def TIME.ADDEND_NOW : Nat := 0x2054
/-- `TIME.SLEW`, SLEW [31:0] (R77). -/
def TIME.SLEW : Nat := 0x2058
/-- `TIME.SLEW_LEFT`, SLEW_LEFT [31:0] (R77). -/
def TIME.SLEW_LEFT : Nat := 0x205C
/-- `TIME.SLEW_RATE`, SLEW_RATE [19:0] (R75). -/
def TIME.SLEW_RATE : Nat := 0x2060
/-- `TIME.SET_NS`, SET_NS [29:0] (R78). -/
def TIME.SET_NS : Nat := 0x2064
/-- `TIME.SET_SEC_LO`, SET_SEC_LO [31:0] (R78). -/
def TIME.SET_SEC_LO : Nat := 0x2068
/-- `TIME.SET_SEC_HI`, SET_SEC_HI [15:0] (R78). -/
def TIME.SET_SEC_HI : Nat := 0x206C
/-- `TIME.TIME_CTRL`, SRC [5:4] SET [1:1] SNAP [0:0] (R79). -/
def TIME.TIME_CTRL : Nat := 0x2070
/-- `TIME.MARK`, MARK [31:0] (R85). -/
def TIME.MARK : Nat := 0x2074
/-- `TIME.MARK_FAST`, MARK_FAST [31:0] (R85). -/
def TIME.MARK_FAST : Nat := 0x2078
/-- `TIME.SNAP_NS`, SNAP_NS [29:0] (R80). -/
def TIME.SNAP_NS : Nat := 0x2080
/-- `TIME.SNAP_SEC_LO`, SNAP_SEC_LO [31:0] (R80). -/
def TIME.SNAP_SEC_LO : Nat := 0x2084
/-- `TIME.SNAP_SEC_HI`, SNAP_SEC_HI [15:0] (R80). -/
def TIME.SNAP_SEC_HI : Nat := 0x2088
/-- `TIME.SNAP_FAST`, SNAP_FAST [31:0] (R80). -/
def TIME.SNAP_FAST : Nat := 0x208C
/-- `TIME.SNAP_TICK_LO`, SNAP_TICK_LO [31:0] (R80). -/
def TIME.SNAP_TICK_LO : Nat := 0x2090
/-- `TIME.SNAP_TICK_HI`, SNAP_TICK_HI [31:0] (R80). -/
def TIME.SNAP_TICK_HI : Nat := 0x2094
/-- `TIME.SNAP_OFS`, SNAP_OFS [17:0] (R80). -/
def TIME.SNAP_OFS : Nat := 0x2098
/-- `PTP.PTP_CTRL`, EN [31:31] ROLE [9:8] MECH [4:4] TRANSPORT [0:0] (R99). -/
def PTP.PTP_CTRL : Nat := 0x3040
/-- `PTP.DOMAIN`, DOMAIN [6:0] (R99). -/
def PTP.DOMAIN : Nat := 0x3044
/-- `PTP.PRIO`, PRIO1 [15:8] PRIO2 [7:0] (R99). -/
def PTP.PRIO : Nat := 0x3048
/-- `PTP.TX_LAT`, TX_LAT [15:0] (R84). -/
def PTP.TX_LAT : Nat := 0x304C
/-- `PTP.RX_LAT`, RX_LAT [15:0] (R84). -/
def PTP.RX_LAT : Nat := 0x3050
/-- `PTP.SYNC_LOG`, SYNC_LOG [7:0] (R99). -/
def PTP.SYNC_LOG : Nat := 0x3054
/-- `PTP.ANN_LOG`, ANN_LOG [7:0] (R99). -/
def PTP.ANN_LOG : Nat := 0x3058
/-- `PTP.PTP_STAT`, PORT_STATE [3:0] (R99). -/
def PTP.PTP_STAT : Nat := 0x305C
/-- `PTP.OFFSET`, OFFSET [31:0] (R98). -/
def PTP.OFFSET : Nat := 0x3060
/-- `PTP.MEAN_DELAY`, MEAN_DELAY [31:0] (R98). -/
def PTP.MEAN_DELAY : Nat := 0x3064
/-- `PTP.UTC_OFS`, UTC_OFS [15:0] (R99). -/
def PTP.UTC_OFS : Nat := 0x3068
/-- `PWR.DOM_REQ`, REQ [15:0] (R472). -/
def PWR.DOM_REQ : Nat := 0x4040
/-- `PWR.DOM_ON`, ON [15:0] (R473). -/
def PWR.DOM_ON : Nat := 0x4044
/-- `PWR.DOM_BUSY`, BUSY [15:0] (R473). -/
def PWR.DOM_BUSY : Nat := 0x4048
/-- `PWR.REFUSED`, REFUSED [31:0] (R472). -/
def PWR.REFUSED : Nat := 0x404C
/-- `PWR.LAST_REF`, REASON [31:28] DOM [3:0] (R472). -/
def PWR.LAST_REF : Nat := 0x4050
/-- `RST.LAST`, SRC [31:28] (R477). -/
def RST.LAST : Nat := 0x5040
/-- `RST.SEEN`, SEEN [9:0] (R477). -/
def RST.SEEN : Nat := 0x5044
/-- `RST.RESETS`, RESETS [31:0] (R484). -/
def RST.RESETS : Nat := 0x5048
/-- `RST.CTRL`, ALIVE_OFF [0:0] (R480). -/
def RST.CTRL : Nat := 0x504C
/-- `CLK.LOCK`, REFCLK_OK [8:8] LOCKED [4:0] (R479). -/
def CLK.LOCK : Nat := 0x6040
/-- `CLK.HOLDOVER`, HOLDOVER [0:0] (R479). -/
def CLK.HOLDOVER : Nat := 0x6044
/-- `CLK.UNLOCK`, UNLOCK [31:0] (R479). -/
def CLK.UNLOCK (i : Nat) : Nat := 0x6048 + 0x4 * i
/-- `IRQ.RAW`, RAW [31:0] (R430). -/
def IRQ.RAW (i : Nat) : Nat := 0x7040 + 0x4 * i
/-- `IRQ.EN`, EN [31:0] (R434). -/
def IRQ.EN (i : Nat) : Nat := 0x7050 + 0x4 * i
/-- `IRQ.PEND`, PEND [31:0] (R434). -/
def IRQ.PEND (i : Nat) : Nat := 0x7060 + 0x4 * i
/-- `IRQ.EOI`, EOI [31:0] (R435). -/
def IRQ.EOI : Nat := 0x7070
/-- `IRQ.INSERV`, INSERV [31:0] (R435). -/
def IRQ.INSERV : Nat := 0x7074
/-- `IRQ.PIN_STAT`, PIN [3:0] (R436). -/
def IRQ.PIN_STAT : Nat := 0x7078
/-- `IRQ.MSGS`, MSGS [31:0] (R437). -/
def IRQ.MSGS : Nat := 0x707C
/-- `IRQ.MAP`, PIN_EN [31:31] PIN [25:24] VEC_EN [15:15] VEC [4:0] (R434). -/
def IRQ.MAP (i : Nat) : Nat := 0x7100 + 0x4 * i
/-- `HOSTIF.LINK`, SPEED_NOW [31:28] WIDTH [27:24] DL_UP [0:0] (R428). -/
def HOSTIF.LINK : Nat := 0x8040
/-- `HOSTIF.PARTIAL_WR`, PARTIAL_WR [31:0] (R48). -/
def HOSTIF.PARTIAL_WR : Nat := 0x8044
/-- `HOSTIF.UNMAPPED`, UNMAPPED [31:0] (R54). -/
def HOSTIF.UNMAPPED : Nat := 0x8048
/-- `HOSTIF.DOMAIN_OFF`, DOMAIN_OFF [31:0] (R411). -/
def HOSTIF.DOMAIN_OFF : Nat := 0x804C
/-- `HOSTIF.TRAY_WR_REF`, TRAY_WR_REF [31:0] (R423). -/
def HOSTIF.TRAY_WR_REF : Nat := 0x8050
/-- `HOSTIF.QSPI_ERR`, QSPI_ERR [31:0] (R414). -/
def HOSTIF.QSPI_ERR : Nat := 0x8054
/-- `HOSTIF.MG_LAUNCH_LATE`, MG_LAUNCH_LATE [31:0] (R420). -/
def HOSTIF.MG_LAUNCH_LATE : Nat := 0x8058
/-- `HOSTIF.RING_LO`, RING_LO [31:0] (R418). -/
def HOSTIF.RING_LO (i : Nat) : Nat := 0x8100 + 0x20 * i
/-- `HOSTIF.RING_HI`, RING_HI [31:0] (R418). -/
def HOSTIF.RING_HI (i : Nat) : Nat := 0x8104 + 0x20 * i
/-- `HOSTIF.DMA_CFG`, EN [31:31] IDLE [19:4] RSIZE [3:0] (R421). -/
def HOSTIF.DMA_CFG (i : Nat) : Nat := 0x8108 + 0x20 * i
/-- `HOSTIF.HEAD`, HEAD [11:0] (R418). -/
def HOSTIF.HEAD (i : Nat) : Nat := 0x810C + 0x20 * i
/-- `HOSTIF.TAIL`, TAIL [11:0] (R418). -/
def HOSTIF.TAIL (i : Nat) : Nat := 0x8110 + 0x20 * i
/-- `HOSTIF.DESC_DONE`, DESC_DONE [31:0] (R418). -/
def HOSTIF.DESC_DONE (i : Nat) : Nat := 0x8114 + 0x20 * i
/-- `HOSTIF.ERR`, ERR [31:0] (R421). -/
def HOSTIF.ERR (i : Nat) : Nat := 0x8118 + 0x20 * i
/-- `HOSTIF.MBX_IN`, GO [31:31] BUSY [30:30] DONE [29:29] RESULT [23:16] LEN [8:0] (R427). -/
def HOSTIF.MBX_IN (i : Nat) : Nat := 0x8200 + 0x10 * i
/-- `HOSTIF.MBX_OUT`, FULL [31:31] LEN [8:0] (R427). -/
def HOSTIF.MBX_OUT (i : Nat) : Nat := 0x8220 + 0x10 * i
/-- `HOSTIF.MB_IN_BUF`, WORD [31:0] (R427). -/
def HOSTIF.MB_IN_BUF (i : Nat) : Nat := 0x8400 + 0x4 * i
/-- `HOSTIF.MB_OUT_BUF`, WORD [31:0] (R427). -/
def HOSTIF.MB_OUT_BUF (i : Nat) : Nat := 0x8600 + 0x4 * i
/-- `HOSTIF.MSIX_TABLE`, WORD [31:0] (R410). -/
def HOSTIF.MSIX_TABLE (i : Nat) : Nat := 0x8800 + 0x4 * i
/-- `HOSTIF.PBA0`, PBA [31:0] (R435). -/
def HOSTIF.PBA0 : Nat := 0x8A00
/-- `HOSTIF.PBA1`, PBA [31:0] (R435). -/
def HOSTIF.PBA1 : Nat := 0x8A04
/-- `TRAY.GEN`, GEN [31:0] (R425). -/
def TRAY.GEN : Nat := 0x9040
/-- `TRAY.LATEST_GEN`, LATEST_GEN [31:0] (R425). -/
def TRAY.LATEST_GEN : Nat := 0x9044
/-- `TRAY.HOLD`, LEFT [11:8] HOLD [0:0] (R425). -/
def TRAY.HOLD : Nat := 0x9048
/-- `TRAY.PUB_FAST`, PUB_FAST [31:0] (R429). -/
def TRAY.PUB_FAST : Nat := 0x904C
/-- `TRAY.HOLD_EXP`, HOLD_EXP [31:0] (R425). -/
def TRAY.HOLD_EXP : Nat := 0x9050
/-- `STBY.CFG`, RECLAIM [9:8] CMP_EN [5:5] PAIR_EN [4:4] ROLE [1:0] (R342). -/
def STBY.CFG : Nat := 0xA040
/-- `STBY.RECLAIM_QUIET`, RECLAIM_QUIET [31:0] (R367). -/
def STBY.RECLAIM_QUIET : Nat := 0xA044
/-- `STBY.ARM_WIN`, ARM_WIN [7:0] (R358). -/
def STBY.ARM_WIN : Nat := 0xA048
/-- `STBY.CTRL`, HANDOVER [1:1] REJOIN [0:0] (R366). -/
def STBY.CTRL : Nat := 0xA04C
/-- `STBY.TEN`, TENURE_RET [31:16] TENURE [15:0] (R362). -/
def STBY.TEN : Nat := 0xA050
/-- `STBY.DEPOSE`, REASON [31:28] FAULT [27:24] BY_TENURE [15:0] (R363). -/
def STBY.DEPOSE : Nat := 0xA054
/-- `STBY.DEPOSE_TICK`, DEPOSE_TICK [31:0] (R363). -/
def STBY.DEPOSE_TICK : Nat := 0xA058
/-- `STBY.PEER_ID_LO`, PEER_ID_LO [31:0] (R368). -/
def STBY.PEER_ID_LO : Nat := 0xA05C
/-- `STBY.PEER`, PEER_LSTATE [14:12] PEER_ROLE [9:8] PEER_ID_HI [7:0] (R368). -/
def STBY.PEER : Nat := 0xA060
/-- `STBY.CATCH`, PHASE [31:28] CAUGHT [8:0] (R352). -/
def STBY.CATCH : Nat := 0xA064
/-- `STBY.QUIET`, QUIET [31:0] (R367). -/
def STBY.QUIET : Nat := 0xA068
/-- `STBY.XS_LAST`, VALID [31:31] VERDICT [30:28] LEAF [21:16] AXIS [7:0] (R356). -/
def STBY.XS_LAST : Nat := 0xA06C
/-- `STBY.XS_TICK`, XS_TICK [31:0] (R356). -/
def STBY.XS_TICK : Nat := 0xA070
/-- `STBY.MISMATCH`, MISMATCH [31:0] (R355). -/
def STBY.MISMATCH : Nat := 0xA080
/-- `STBY.NOCMP`, NOCMP [31:0] (R355). -/
def STBY.NOCMP : Nat := 0xA084
/-- `STBY.XS_HEAD`, XS_HEAD [31:0] (R356). -/
def STBY.XS_HEAD : Nat := 0xA088
/-- `STBY.XS_STBY`, XS_STBY [31:0] (R356). -/
def STBY.XS_STBY : Nat := 0xA08C
/-- `STBY.XS_OTHER`, XS_OTHER [31:0] (R356). -/
def STBY.XS_OTHER : Nat := 0xA090
/-- `STBY.OOS`, OOS [31:0] (R351). -/
def STBY.OOS : Nat := 0xA094
/-- `STBY.SILENT`, SILENT [31:0] (R357). -/
def STBY.SILENT : Nat := 0xA098
/-- `STBY.TAKEOVERS`, TAKEOVERS [31:0] (R358). -/
def STBY.TAKEOVERS : Nat := 0xA09C
/-- `STBY.DEPOSED`, DEPOSED [31:0] (R363). -/
def STBY.DEPOSED : Nat := 0xA0A0
/-- `STBY.OLD_TENURE`, OLD_TENURE [31:0] (R364). -/
def STBY.OLD_TENURE : Nat := 0xA0A4
/-- `STBY.RING_DIFF`, RING_DIFF [31:0] (R349). -/
def STBY.RING_DIFF : Nat := 0xA0A8
/-- `STBY.LINK_ERR`, LINK_ERR [31:0] (R347). -/
def STBY.LINK_ERR : Nat := 0xA0AC
/-- `STBY.LINK_DOWNS`, LINK_DOWNS [31:0] (R348). -/
def STBY.LINK_DOWNS : Nat := 0xA0B0
/-- `KTL.STAT`, KSTATE [31:28] ACTIVE [27:27] PENDING [26:25] LAST_SLOT [24:24] CONF_SEEN [23:23] (R470). -/
def KTL.STAT : Nat := 0xB040
/-- `KTL.BOOT`, BOOT_CAUSE [31:28] DECAF_CAUSE [27:24] DECAF_NEXT [2:2] BOOT_TRIES [1:0] (R454). -/
def KTL.BOOT : Nat := 0xB044
/-- `KTL.CTRL`, DECAF_REQ [2:2] RESET [1:1] CONFIRM [0:0] (R469). -/
def KTL.CTRL : Nat := 0xB048
/-- `KTL.CFG`, MGMT_UDP [31:16] HOST_CONFIRM [0:0] (R456). -/
def KTL.CFG : Nat := 0xB04C
/-- `KTL.FW_VER`, FW_VER [31:0] (R452). -/
def KTL.FW_VER : Nat := 0xB050
/-- `KTL.FW_SVN`, COUNTER [24:16] FW_SVN [8:0] (R449). -/
def KTL.FW_SVN : Nat := 0xB054
/-- `KTL.UNIT_ID_LO`, UNIT_ID_LO [31:0] (R449). -/
def KTL.UNIT_ID_LO : Nat := 0xB058
/-- `KTL.UNIT_ID_HI`, UNIT_ID_HI [7:0] (R449). -/
def KTL.UNIT_ID_HI : Nat := 0xB05C
/-- `KTL.KRESTARTS`, KRESTARTS [31:0] (R457). -/
def KTL.KRESTARTS : Nat := 0xB060
/-- `KTL.FAILED_STARTS`, FAILED_STARTS [31:0] (R455). -/
def KTL.FAILED_STARTS : Nat := 0xB064
/-- `KTL.OTP_STAT`, KEY1 [2:2] OTP_CE [1:1] OTP_UE [0:0] (R449). -/
def KTL.OTP_STAT : Nat := 0xB068
/-- `SENS.TS`, TS [15:0] (R460). -/
def SENS.TS (i : Nat) : Nat := 0xC040 + 0x4 * i
/-- `SENS.VM`, VM [15:0] (R460). -/
def SENS.VM (i : Nat) : Nat := 0xC050 + 0x4 * i
/-- `SENS.THR_TS`, LO [31:16] HI [15:0] (R461). -/
def SENS.THR_TS (i : Nat) : Nat := 0xC100 + 0x8 * i
/-- `SENS.THR_VM`, LO [31:16] HI [15:0] (R461). -/
def SENS.THR_VM (i : Nat) : Nat := 0xC120 + 0x8 * i
/-- `SENS.HYS`, HYS [15:0] (R461). -/
def SENS.HYS (i : Nat) : Nat := 0xC104 + 0x8 * i
/-- `SENS.TCRIT`, TCRIT [15:0] (R461). -/
def SENS.TCRIT : Nat := 0xC1A0
/-- `SENS.HI_STAT`, HI_STAT [19:0] (R461). -/
def SENS.HI_STAT : Nat := 0xC1A4
/-- `SENS.LO_STAT`, LO_STAT [19:0] (R461). -/
def SENS.LO_STAT : Nat := 0xC1A8
/-- `SENS.TMAX`, TMAX [15:0] (R470). -/
def SENS.TMAX : Nat := 0xC1AC
/-- `LOG.WR_SEQ`, WR_SEQ [31:0] (R462). -/
def LOG.WR_SEQ : Nat := 0xD040
/-- `LOG.RD_SEQ`, RD_SEQ [31:0] (R465). -/
def LOG.RD_SEQ : Nat := 0xD044
/-- `LOG.RD`, RD [31:0] (R465). -/
def LOG.RD (i : Nat) : Nat := 0xD048 + 0x4 * i
/-- `LOG.RD_STAT`, BUSY [1:1] MISS [0:0] (R465). -/
def LOG.RD_STAT : Nat := 0xD058
/-- `LOG.PERSIST`, SEV_MIN [1:0] (R463). -/
def LOG.PERSIST : Nat := 0xD05C
/-- `LOG.STREAM`, FROM_OLDEST [1:1] EN [0:0] (R464). -/
def LOG.STREAM : Nat := 0xD060
/-- `LOG.PERSIST_SEQ`, PERSIST_SEQ [31:0] (R463). -/
def LOG.PERSIST_SEQ : Nat := 0xD064
/-- `LOG.LOST`, LOST [31:0] (R464). -/
def LOG.LOST : Nat := 0xD068
/-- `LOG.FLASH_ERR`, FLASH_ERR [31:0] (R463). -/
def LOG.FLASH_ERR : Nat := 0xD06C
/-- `EVX.LEVEL_LO`, LEVEL_LO [31:0] (R409). -/
def EVX.LEVEL_LO : Nat := 0xE040
/-- `EVX.LEVEL_HI`, LEVEL_HI [31:0] (R409). -/
def EVX.LEVEL_HI : Nat := 0xE044
/-- `EVX.LEVT_LO`, LEVT_LO [31:0] (R407). -/
def EVX.LEVT_LO : Nat := 0xE048
/-- `EVX.LEVT_HI`, LEVT_HI [31:0] (R407). -/
def EVX.LEVT_HI : Nat := 0xE04C
/-- `EVX.LEN_LO`, LEN_LO [31:0] (R407). -/
def EVX.LEN_LO : Nat := 0xE050
/-- `EVX.LEN_HI`, LEN_HI [31:0] (R407). -/
def EVX.LEN_HI : Nat := 0xE054
/-- `EVX.LINE`, EN [31:31] INV [30:30] OP [29:28] IEDGE [27:26] SRC_B [15:8] SRC_A [7:0] (R404). -/
def EVX.LINE (i : Nat) : Nat := 0xE100 + 0x4 * i
/-- `POT.PCTRL`, STEAL_IN [9:9] STEAL_OUT [8:8] RELEASE [1:1] QUAR [0:0] (R165). -/
def POT.PCTRL (n : Nat) : Nat := 0x10040 + 0x1000 * n
/-- `POT.ENTRY_FULL`, ENTRY_FULL [14:0] (R159). -/
def POT.ENTRY_FULL (n : Nat) : Nat := 0x10044 + 0x1000 * n
/-- `POT.ENTRY_TORQUE`, ENTRY_TORQUE [14:0] (R159). -/
def POT.ENTRY_TORQUE (n : Nat) : Nat := 0x10048 + 0x1000 * n
/-- `POT.ENTRY_AUX`, ENTRY_AUX [14:0] (R159). -/
def POT.ENTRY_AUX (n : Nat) : Nat := 0x1004C + 0x1000 * n
/-- `POT.SLOW_ENTRY`, SLOW_ENTRY [14:0] (R170). -/
def POT.SLOW_ENTRY (n : Nat) (i : Nat) : Nat := 0x10050 + 0x1000 * n + 0x4 * i
/-- `POT.QLEN`, PEAK [23:16] BLOCKED [15:8] TAKEABLE [7:0] (R180). -/
def POT.QLEN (n : Nat) : Nat := 0x10070 + 0x1000 * n
/-- `POT.SLACK_MIN`, SLACK_MIN [31:0] (R176). -/
def POT.SLACK_MIN (n : Nat) : Nat := 0x10074 + 0x1000 * n
/-- `POT.CUPS_HOME`, CUPS_HOME [31:0] (R180). -/
def POT.CUPS_HOME (n : Nat) : Nat := 0x10078 + 0x1000 * n
/-- `POT.STOLEN_OUT`, STOLEN_OUT [31:0] (R180). -/
def POT.STOLEN_OUT (n : Nat) : Nat := 0x1007C + 0x1000 * n
/-- `POT.LATE`, LATE [31:0] (R176). -/
def POT.LATE (n : Nat) : Nat := 0x10080 + 0x1000 * n
/-- `POT.RERUN`, RERUN [31:0] (R166). -/
def POT.RERUN (n : Nat) : Nat := 0x10084 + 0x1000 * n
/-- `POT.SLOW_LATE`, SLOW_LATE [31:0] (R172). -/
def POT.SLOW_LATE (n : Nat) : Nat := 0x10088 + 0x1000 * n
/-- `POT.SLOW_SKIP`, SLOW_SKIP [31:0] (R169). -/
def POT.SLOW_SKIP (n : Nat) : Nat := 0x1008C + 0x1000 * n
/-- `POT.SMEM_CE`, SMEM_CE [31:0] (R178). -/
def POT.SMEM_CE (n : Nat) : Nat := 0x10090 + 0x1000 * n
/-- `POT.PMEM_CE`, PMEM_CE [31:0] (R178). -/
def POT.PMEM_CE (n : Nat) : Nat := 0x10094 + 0x1000 * n
/-- `POT.QTICK`, QTICK [31:0] (R178). -/
def POT.QTICK (n : Nat) : Nat := 0x10098 + 0x1000 * n
/-- `LEAF.LCTRL`, STEP [3:3] RELEASE [1:1] QUAR [0:0] (R130). -/
def LEAF.LCTRL (n : Nat) : Nat := 0x20040 + 0x1000 * n
/-- `LEAF.QTICK`, QTICK [31:0] (R131). -/
def LEAF.QTICK (n : Nat) : Nat := 0x20044 + 0x1000 * n
/-- `LEAF.QAXIS`, VALID [31:31] AXIS [7:0] (R131). -/
def LEAF.QAXIS (n : Nat) : Nat := 0x20048 + 0x1000 * n
/-- `LEAF.FLAG_SUM`, FLAG_SUM [4:0] (R113). -/
def LEAF.FLAG_SUM (n : Nat) : Nat := 0x2004C + 0x1000 * n
/-- `LEAF.CUPS`, CUPS [31:0] (R120). -/
def LEAF.CUPS (n : Nat) : Nat := 0x20050 + 0x1000 * n
/-- `LEAF.STOLEN`, STOLEN [31:0] (R133). -/
def LEAF.STOLEN (n : Nat) : Nat := 0x20054 + 0x1000 * n
/-- `LEAF.LATE`, LATE [31:0] (R133). -/
def LEAF.LATE (n : Nat) : Nat := 0x20058 + 0x1000 * n
/-- `LEAF.PREEMPT`, PREEMPT [31:0] (R118). -/
def LEAF.PREEMPT (n : Nat) : Nat := 0x2005C + 0x1000 * n
/-- `LEAF.ECC_CORR`, ECC_CORR [31:0] (R125). -/
def LEAF.ECC_CORR (n : Nat) : Nat := 0x20060 + 0x1000 * n
/-- `LEAF.IC_PERR`, IC_PERR [31:0] (R126). -/
def LEAF.IC_PERR (n : Nat) : Nat := 0x20064 + 0x1000 * n
/-- `LEAF.DBG_PC`, DBG_PC [14:0] (R133). -/
def LEAF.DBG_PC (n : Nat) : Nat := 0x20080 + 0x1000 * n
/-- `LEAF.DBG_SEL`, BANK [8:8] CLASS [7:5] IDX [4:0] (R133). -/
def LEAF.DBG_SEL (n : Nat) : Nat := 0x20084 + 0x1000 * n
/-- `LEAF.DBG_DATA`, DBG_DATA [31:0] (R133). -/
def LEAF.DBG_DATA (n : Nat) : Nat := 0x20088 + 0x1000 * n
/-- `LEAF.PCNT_SEL`, EN [31:31] MODE [30:30] GATE [29:29] EVENT [7:0] (R442). -/
def LEAF.PCNT_SEL (n : Nat) (i : Nat) : Nat := 0x20100 + 0x1000 * n + 0x10 * i
/-- `LEAF.PCNT_LO`, LO [31:0] (R442). -/
def LEAF.PCNT_LO (n : Nat) (i : Nat) : Nat := 0x20104 + 0x1000 * n + 0x10 * i
/-- `LEAF.PCNT_HI`, HI [15:0] (R442). -/
def LEAF.PCNT_HI (n : Nat) (i : Nat) : Nat := 0x20108 + 0x1000 * n + 0x10 * i
/-- `LEAF.PCTL`, CLR [1:1] FREEZE [0:0] (R442). -/
def LEAF.PCTL (n : Nat) : Nat := 0x20140 + 0x1000 * n
/-- `SEG.GATHER_DROP`, GATHER_DROP [31:0] (R21). -/
def SEG.GATHER_DROP (n : Nat) : Nat := 0x60040 + 0x1000 * n
/-- `SEG.GATHER_DIFF`, GATHER_DIFF [31:0] (R274). -/
def SEG.GATHER_DIFF (n : Nat) : Nat := 0x60044 + 0x1000 * n
/-- `SEG.GATHER_MISS`, GATHER_MISS [31:0] (R24). -/
def SEG.GATHER_MISS (n : Nat) : Nat := 0x60048 + 0x1000 * n
/-- `SEG.HOLD_TICKS`, HOLD_TICKS [31:0] (R31). -/
def SEG.HOLD_TICKS (n : Nat) : Nat := 0x6004C + 0x1000 * n
/-- `SEG.LATE_APPLY`, LATE_APPLY [31:0] (R276). -/
def SEG.LATE_APPLY (n : Nat) : Nat := 0x60050 + 0x1000 * n
/-- `SEG.LAUNCH_LATE`, LAUNCH_LATE [31:0] (R95). -/
def SEG.LAUNCH_LATE (n : Nat) : Nat := 0x60054 + 0x1000 * n
/-- `SEG.HDR_ERR`, HDR_ERR [31:0] (R267). -/
def SEG.HDR_ERR (n : Nat) : Nat := 0x60058 + 0x1000 * n
/-- `SEG.FCS_ERR`, FCS_ERR [31:0] (R267). -/
def SEG.FCS_ERR (n : Nat) : Nat := 0x6005C + 0x1000 * n
/-- `SEG.B_TICKS`, B_TICKS [31:0] (R274). -/
def SEG.B_TICKS (n : Nat) : Nat := 0x60060 + 0x1000 * n
/-- `SEG.NODE_PRESENT`, NODE_PRESENT [16:1] (R275). -/
def SEG.NODE_PRESENT (n : Nat) : Nat := 0x60064 + 0x1000 * n
/-- `SEG.NODE_AFS`, NODE_AFS [16:1] (R276). -/
def SEG.NODE_AFS (n : Nat) : Nat := 0x60068 + 0x1000 * n
/-- `SEG.NODE_ALARM`, NODE_ALARM [16:1] (R276). -/
def SEG.NODE_ALARM (n : Nat) : Nat := 0x6006C + 0x1000 * n
/-- `SEG.GA_TX`, GA_TX [31:0] (R82). -/
def SEG.GA_TX (n : Nat) : Nat := 0x60070 + 0x1000 * n
/-- `SEG.GB_TX`, GB_TX [31:0] (R82). -/
def SEG.GB_TX (n : Nat) : Nat := 0x60074 + 0x1000 * n
/-- `SEG.GA_END`, GA_END [31:0] (R82). -/
def SEG.GA_END (n : Nat) : Nat := 0x60078 + 0x1000 * n
/-- `SEG.GB_END`, GB_END [31:0] (R82). -/
def SEG.GB_END (n : Nat) : Nat := 0x6007C + 0x1000 * n
/-- `SEG.POUR_TX`, POUR_TX [31:0] (R82). -/
def SEG.POUR_TX (n : Nat) : Nat := 0x60080 + 0x1000 * n
/-- `SEG.SVC_SOF`, SVC_SOF [31:0] (R82). -/
def SEG.SVC_SOF (n : Nat) : Nat := 0x60084 + 0x1000 * n
/-- `SEG.SVC_INFO`, SVC_PORT [8:8] SVC_NODE [4:0] (R293). -/
def SEG.SVC_INFO (n : Nat) : Nat := 0x60088 + 0x1000 * n
/-- `SEG.BELSY_CFG`, ETYPE [15:0] (R293). -/
def SEG.BELSY_CFG (n : Nat) : Nat := 0x6008C + 0x1000 * n
/-- `SEG.MBX_TX`, GO [31:31] ABORT [30:30] NODE [20:16] LEN [10:0] (R286). -/
def SEG.MBX_TX (n : Nat) : Nat := 0x600C0 + 0x1000 * n
/-- `SEG.MBX_TX_STAT`, BUSY [31:31] DONE [30:30] ERR [29:29] ECODE [23:20] ACKED [10:0] (R286). -/
def SEG.MBX_TX_STAT (n : Nat) : Nat := 0x600C4 + 0x1000 * n
/-- `SEG.MBX_RX_STAT`, FULL [31:31] BAD [30:30] NODE [20:16] LEN [10:0] (R286). -/
def SEG.MBX_RX_STAT (n : Nat) : Nat := 0x600C8 + 0x1000 * n
/-- `SEG.MBX_TO`, TO [15:0] (R286). -/
def SEG.MBX_TO (n : Nat) : Nat := 0x600CC + 0x1000 * n
/-- `SEG.NPARAM`, GLOSS [31:24] FS_ACT [15:0] (R287). -/
def SEG.NPARAM (n : Nat) (i : Nat) : Nat := 0x60100 + 0x1000 * n + 0x4 * i
/-- `SEG.NODE_MISS`, NODE_MISS [31:0] (R275). -/
def SEG.NODE_MISS (n : Nat) (i : Nat) : Nat := 0x60140 + 0x1000 * n + 0x4 * i
/-- `SEG.OWN`, OWN [31:0] (R297). -/
def SEG.OWN (n : Nat) (i : Nat) : Nat := 0x60200 + 0x1000 * n + 0x4 * i
/-- `SEG.APPLY_M`, MODE [31:31] CYCLE4 [30:30] AT [17:0] (R296). -/
def SEG.APPLY_M (n : Nat) (i : Nat) : Nat := 0x60300 + 0x1000 * n + 0x4 * i
/-- `SEG.APPLY`, MODE [31:31] CYCLE4 [30:30] AT [17:0] (R294). -/
def SEG.APPLY (n : Nat) : Nat := 0x60320 + 0x1000 * n
/-- `SEG.ADMIT_CFG`, LOSS [7:0] (R326). -/
def SEG.ADMIT_CFG (n : Nat) : Nat := 0x60324 + 0x1000 * n
/-- `SEG.NODE_ADMIT`, NODE_ADMIT [16:1] (R324). -/
def SEG.NODE_ADMIT (n : Nat) : Nat := 0x60328 + 0x1000 * n
/-- `SEG.NODE_SYNC`, NODE_SYNC [16:1] (R328). -/
def SEG.NODE_SYNC (n : Nat) : Nat := 0x6032C + 0x1000 * n
/-- `SEG.NODE_DRIFT`, NODE_DRIFT [16:1] (R304). -/
def SEG.NODE_DRIFT (n : Nat) : Nat := 0x60330 + 0x1000 * n
/-- `SEG.NODE_REFUSED`, NODE_REFUSED [16:1] (R324). -/
def SEG.NODE_REFUSED (n : Nat) : Nat := 0x60334 + 0x1000 * n
/-- `SEG.REFUSE`, REFUSE [31:0] (R324). -/
def SEG.REFUSE (n : Nat) (i : Nat) : Nat := 0x60338 + 0x1000 * n + 0x4 * i
/-- `SEG.SLOT_EDGE`, EDGE_HI [31:16] EDGE_LO [15:0] (R302). -/
def SEG.SLOT_EDGE (n : Nat) (i : Nat) : Nat := 0x60340 + 0x1000 * n + 0x4 * i
/-- `SEG.SVC_CUT`, SVC_CUT [31:0] (R303). -/
def SEG.SVC_CUT (n : Nat) : Nat := 0x60360 + 0x1000 * n
/-- `SEG.HOP_A`, VALID [31:31] FROM [20:16] HOP [15:0] (R315). -/
def SEG.HOP_A (n : Nat) : Nat := 0x60364 + 0x1000 * n
/-- `SEG.HOP_B`, VALID [31:31] FROM [20:16] HOP [15:0] (R315). -/
def SEG.HOP_B (n : Nat) : Nat := 0x60368 + 0x1000 * n
/-- `SEG.DLY_ROUNDS`, DLY_ROUNDS [31:0] (R315). -/
def SEG.DLY_ROUNDS (n : Nat) : Nat := 0x6036C + 0x1000 * n
/-- `SEG.DLY_FAIL`, DLY_FAIL [31:0] (R315). -/
def SEG.DLY_FAIL (n : Nat) : Nat := 0x60370 + 0x1000 * n
/-- `SEG.PATH`, PATH_B [31:16] PATH_A [15:0] (R301). -/
def SEG.PATH (n : Nat) (i : Nat) : Nat := 0x60380 + 0x1000 * n + 0x4 * i
/-- `SEG.SVC_REF`, SVC_REF [31:0] (R302). -/
def SEG.SVC_REF (n : Nat) : Nat := 0x603C0 + 0x1000 * n
/-- `SEG.DESC`, DESC [31:0] (R324). -/
def SEG.DESC (n : Nat) (i : Nat) : Nat := 0x60400 + 0x1000 * n + 0x4 * i
/-- `SEG.TX_BUF`, WORD [31:0] (R286). -/
def SEG.TX_BUF (n : Nat) (i : Nat) : Nat := 0x60800 + 0x1000 * n + 0x4 * i
/-- `SEG.RX_BUF`, WORD [31:0] (R286). -/
def SEG.RX_BUF (n : Nat) (i : Nat) : Nat := 0x60C00 + 0x1000 * n + 0x4 * i
/-- `LP.LP_CFG`, SPEED [8:8] ROLE [5:4] TEST [2:0] (R335). -/
def LP.LP_CFG (n : Nat) : Nat := 0x70040 + 0x1000 * n
/-- `LP.LQ_CFG`, LQ_MIN [2:0] (R336). -/
def LP.LQ_CFG (n : Nat) : Nat := 0x70044 + 0x1000 * n
/-- `LP.CABLE_CTRL`, GO [0:0] (R337). -/
def LP.CABLE_CTRL (n : Nat) : Nat := 0x70048 + 0x1000 * n
/-- `LP.CABLE_STAT`, RESULT [31:30] DIST [15:0] (R337). -/
def LP.CABLE_STAT (n : Nat) : Nat := 0x7004C + 0x1000 * n
/-- `LP.LINK_AT`, LINK_AT [31:0] (R341). -/
def LP.LINK_AT (n : Nat) : Nat := 0x70050 + 0x1000 * n
/-- `LP.LQ_LOWEST`, LOWEST [2:0] (R336). -/
def LP.LQ_LOWEST (n : Nat) : Nat := 0x70054 + 0x1000 * n
/-- `LP.LINK_DOWNS`, LINK_DOWNS [31:0] (R334). -/
def LP.LINK_DOWNS (n : Nat) : Nat := 0x70060 + 0x1000 * n
/-- `LP.FEC_CORR`, FEC_CORR [31:0] (R336). -/
def LP.FEC_CORR (n : Nat) : Nat := 0x70064 + 0x1000 * n
/-- `LP.FEC_UNC`, FEC_UNC [31:0] (R336). -/
def LP.FEC_UNC (n : Nat) : Nat := 0x70068 + 0x1000 * n
/-- `LP.SYM_ERR`, SYM_ERR [31:0] (R336). -/
def LP.SYM_ERR (n : Nat) : Nat := 0x7006C + 0x1000 * n
/-- `LP.RX_FRAMES`, RX_FRAMES [31:0] (R341). -/
def LP.RX_FRAMES (n : Nat) : Nat := 0x70070 + 0x1000 * n
/-- `LP.TX_FRAMES`, TX_FRAMES [31:0] (R341). -/
def LP.TX_FRAMES (n : Nat) : Nat := 0x70074 + 0x1000 * n
/-- `LP.RX_FCS`, RX_FCS [31:0] (R341). -/
def LP.RX_FCS (n : Nat) : Nat := 0x70078 + 0x1000 * n
/-- `LP.RX_ABORT`, RX_ABORT [31:0] (R330). -/
def LP.RX_ABORT (n : Nat) : Nat := 0x7007C + 0x1000 * n
/-- `LP.RX_OTHER`, RX_OTHER [31:0] (R330). -/
def LP.RX_OTHER (n : Nat) : Nat := 0x70080 + 0x1000 * n
/-- `LP.TX_SOF`, TX_SOF [31:0] (R82). -/
def LP.TX_SOF (n : Nat) : Nat := 0x70090 + 0x1000 * n
/-- `LP.RX_SOF`, RX_SOF [31:0] (R82). -/
def LP.RX_SOF (n : Nat) : Nat := 0x70094 + 0x1000 * n
/-- `LP.RX_EOF`, RX_EOF [31:0] (R82). -/
def LP.RX_EOF (n : Nat) : Nat := 0x70098 + 0x1000 * n
/-- `LF.LF_CFG`, CW [17:16] FLT [11:8] ZMODE [5:4] INV [3:3] MODE [2:0] (R211). -/
def LF.LF_CFG (n : Nat) : Nat := 0x90040 + 0x1000 * n
/-- `LF.V_LO`, V_LO [30:0] (R217). -/
def LF.V_LO (n : Nat) : Nat := 0x90044 + 0x1000 * n
/-- `LF.V_HI`, V_HI [30:0] (R217). -/
def LF.V_HI (n : Nat) : Nat := 0x90048 + 0x1000 * n
/-- `LF.STILL_T`, STILL_T [31:0] (R217). -/
def LF.STILL_T (n : Nat) : Nat := 0x9004C + 0x1000 * n
/-- `LF.PRESET`, PRESET [31:0] (R214). -/
def LF.PRESET (n : Nat) : Nat := 0x90050 + 0x1000 * n
/-- `LF.LF_CTRL`, ZCLR_ARM [1:1] LOAD [0:0] (R214). -/
def LF.LF_CTRL (n : Nat) : Nat := 0x90054 + 0x1000 * n
/-- `LF.COUNT_LIVE`, COUNT_LIVE [31:0] (R211). -/
def LF.COUNT_LIVE (n : Nat) : Nat := 0x90058 + 0x1000 * n
/-- `LF.S_COUNT`, S_COUNT [31:0] (R215). -/
def LF.S_COUNT (n : Nat) : Nat := 0x90060 + 0x1000 * n
/-- `LF.S_EDGE`, S_EDGE [31:0] (R215). -/
def LF.S_EDGE (n : Nat) : Nat := 0x90064 + 0x1000 * n
/-- `LF.S_STAT`, S_STAT [31:0] (R215). -/
def LF.S_STAT (n : Nat) : Nat := 0x90068 + 0x1000 * n
/-- `LF.S_STAMP`, S_STAMP [31:0] (R215). -/
def LF.S_STAMP (n : Nat) : Nat := 0x9006C + 0x1000 * n
/-- `LF.SPEED`, SPEED [31:0] (R217). -/
def LF.SPEED (n : Nat) : Nat := 0x90070 + 0x1000 * n
/-- `LF.FSTAT`, FSTAT [31:0] (R218). -/
def LF.FSTAT (n : Nat) : Nat := 0x90074 + 0x1000 * n
/-- `LF.IDX_COUNT`, IDX_COUNT [31:0] (R213). -/
def LF.IDX_COUNT (n : Nat) : Nat := 0x90078 + 0x1000 * n
/-- `LF.IDX_STAMP`, IDX_STAMP [31:0] (R213). -/
def LF.IDX_STAMP (n : Nat) : Nat := 0x9007C + 0x1000 * n
/-- `LF.CMP`, CMP [31:0] (R227). -/
def LF.CMP (n : Nat) : Nat := 0x90080 + 0x1000 * n
/-- `LF.PITCH`, PITCH [30:0] (R226). -/
def LF.PITCH (n : Nat) : Nat := 0x90084 + 0x1000 * n
/-- `LF.CMP_CTRL`, EN [31:31] OUTM [8:8] PW [7:0] (R226). -/
def LF.CMP_CTRL (n : Nat) : Nat := 0x90088 + 0x1000 * n
/-- `LF.CMP_STAT`, OUT [1:1] BEHIND [0:0] (R227). -/
def LF.CMP_STAT (n : Nat) : Nat := 0x9008C + 0x1000 * n
/-- `LF.SKIPPED`, SKIPPED [31:0] (R227). -/
def LF.SKIPPED (n : Nat) : Nat := 0x90090 + 0x1000 * n
/-- `LF.HITS`, HITS [31:0] (R226). -/
def LF.HITS (n : Nat) : Nat := 0x90094 + 0x1000 * n
/-- `LF.ERR_QUAD`, ERR_QUAD [31:0] (R212). -/
def LF.ERR_QUAD (n : Nat) : Nat := 0x90098 + 0x1000 * n
/-- `LF.ERR_RATE`, ERR_RATE [31:0] (R212). -/
def LF.ERR_RATE (n : Nat) : Nat := 0x9009C + 0x1000 * n
/-- `LF.CMP_MERGE`, CMP_MERGE [31:0] (R226). -/
def LF.CMP_MERGE (n : Nat) : Nat := 0x900A0 + 0x1000 * n
/-- `EP.EP_CFG`, DIR [31:31] OD [30:30] PULL [29:28] ACT [27:27] OINV [26:26] EDGE [25:24] OLINE [21:16] MINPW [15:0] (R396). -/
def EP.EP_CFG (n : Nat) (i : Nat) : Nat := 0xA0040 + 0x1000 * n + 0x4 * i
/-- `EP.STR0`, CH_WIN [31:16] CH_MAX [15:8] CH_REL [7:7] (R399). -/
def EP.STR0 (n : Nat) (i : Nat) : Nat := 0xA0060 + 0x1000 * n + 0x8 * i
/-- `EP.STR1`, STUCK_T [15:0] (R400). -/
def EP.STR1 (n : Nat) (i : Nat) : Nat := 0xA0064 + 0x1000 * n + 0x8 * i
/-- `EP.EP_STAT`, STUCK [31:24] CHAT [23:16] FILT [15:8] PAD [7:0] (R408). -/
def EP.EP_STAT (n : Nat) : Nat := 0xA00A0 + 0x1000 * n
/-- `EP.EP_LATCH`, LATCH [7:0] (R402). -/
def EP.EP_LATCH (n : Nat) : Nat := 0xA00A4 + 0x1000 * n
/-- `EP.EP_CTRL`, CH_RELEASE [7:0] (R399). -/
def EP.EP_CTRL (n : Nat) : Nat := 0xA00A8 + 0x1000 * n
/-- `EP.STAMP`, STAMP [31:0] (R398). -/
def EP.STAMP (n : Nat) (i : Nat) : Nat := 0xA00C0 + 0x1000 * n + 0x4 * i
/-- `EP.CNT`, CHATN [31:16] REJ [15:0] (R398). -/
def EP.CNT (n : Nat) (i : Nat) : Nat := 0xA00E0 + 0x1000 * n + 0x4 * i
/-- `CU.SRC`, KIND [31:30] INDEX [23:16] FIELD [3:0] (R373). -/
def CU.SRC (n : Nat) : Nat := 0xB0040 + 0x1000 * n
/-- `CU.RATE`, BASE [31:31] MINMAX [30:30] DIV [15:0] (R375). -/
def CU.RATE (n : Nat) : Nat := 0xB0044 + 0x1000 * n
/-- `CU.TRIG`, KIND [31:30] EDGE [29:28] TLINE [5:0] (R376). -/
def CU.TRIG (n : Nat) : Nat := 0xB0048 + 0x1000 * n
/-- `CU.LEVEL`, LEVEL [31:0] (R376). -/
def CU.LEVEL (n : Nat) : Nat := 0xB004C + 0x1000 * n
/-- `CU.HYST`, HYST [30:0] (R376). -/
def CU.HYST (n : Nat) : Nat := 0xB0050 + 0x1000 * n
/-- `CU.ALLOC`, PAGES [27:16] BASE [10:0] (R370). -/
def CU.ALLOC (n : Nat) : Nat := 0xB0054 + 0x1000 * n
/-- `CU.PRE`, PRE [20:0] (R378). -/
def CU.PRE (n : Nat) : Nat := 0xB0058 + 0x1000 * n
/-- `CU.POST`, POST [20:0] (R378). -/
def CU.POST (n : Nat) : Nat := 0xB005C + 0x1000 * n
/-- `CU.CU_CTRL`, STREAM [5:5] CLEAR [4:4] REWIND [3:3] FORCE [2:2] STOP [1:1] ARM [0:0] (R377). -/
def CU.CU_CTRL (n : Nat) : Nat := 0xB0060 + 0x1000 * n
/-- `CU.CU_STAT`, CU_ERR [31:28] MARK_SET [6:6] ECC [5:5] STALE [4:4] RD_LOST [3:3] MARK_LOST [2:2] SHORT_PRE [1:1] (R378). -/
def CU.CU_STAT (n : Nat) : Nat := 0xB0064 + 0x1000 * n
/-- `CU.WR_SEQ`, WR_SEQ [31:0] (R380). -/
def CU.WR_SEQ (n : Nat) : Nat := 0xB0068 + 0x1000 * n
/-- `CU.FILL`, FILL [20:0] (R380). -/
def CU.FILL (n : Nat) : Nat := 0xB006C + 0x1000 * n
/-- `CU.TRIG_SEQ`, TRIG_SEQ [31:0] (R376). -/
def CU.TRIG_SEQ (n : Nat) : Nat := 0xB0070 + 0x1000 * n
/-- `CU.TRIG_STAMP`, TRIG_STAMP [31:0] (R376). -/
def CU.TRIG_STAMP (n : Nat) : Nat := 0xB0074 + 0x1000 * n
/-- `CU.MARK`, MARK [31:0] (R381). -/
def CU.MARK (n : Nat) : Nat := 0xB0078 + 0x1000 * n
/-- `CU.OLDEST`, OLDEST [31:0] (R380). -/
def CU.OLDEST (n : Nat) : Nat := 0xB007C + 0x1000 * n
/-- `CU.RD_SEQ`, RD_SEQ [31:0] (R382). -/
def CU.RD_SEQ (n : Nat) : Nat := 0xB0080 + 0x1000 * n
/-- `CU.LOST_RECS`, LOST_RECS [31:0] (R382). -/
def CU.LOST_RECS (n : Nat) : Nat := 0xB0084 + 0x1000 * n
/-- `CU.RECORDS`, RECORDS [31:0] (R384). -/
def CU.RECORDS (n : Nat) : Nat := 0xB0088 + 0x1000 * n
/-- `CU.CADDY_CE`, CADDY_CE [31:0] (R372). -/
def CU.CADDY_CE (n : Nat) : Nat := 0xB00C0 + 0x1000 * n
/-- `CU.CADDY_UE`, CADDY_UE [31:0] (R372). -/
def CU.CADDY_UE (n : Nat) : Nat := 0xB00C4 + 0x1000 * n
/-- `CU.CADDY_WR_REF`, CADDY_WR_REF [31:0] (R371). -/
def CU.CADDY_WR_REF (n : Nat) : Nat := 0xB00C8 + 0x1000 * n
/-- `SF.SF_CFG`, DEPTH [12:8] POL [4:4] SINK [0:0] (R386). -/
def SF.SF_CFG (n : Nat) : Nat := 0xC0040 + 0x1000 * n
/-- `SF.WM`, HI [27:16] LO [11:0] (R388). -/
def SF.WM (n : Nat) : Nat := 0xC0044 + 0x1000 * n
/-- `SF.FILL`, FILL [11:0] (R389). -/
def SF.FILL (n : Nat) : Nat := 0xC0048 + 0x1000 * n
/-- `SF.CREDIT`, CREDIT [11:0] (R389). -/
def SF.CREDIT (n : Nat) : Nat := 0xC004C + 0x1000 * n
/-- `SF.DATA_LO`, DATA_LO [31:0] (R387). -/
def SF.DATA_LO (n : Nat) : Nat := 0xC0050 + 0x1000 * n
/-- `SF.DATA_HI`, DATA_HI [31:0] (R387). -/
def SF.DATA_HI (n : Nat) : Nat := 0xC0054 + 0x1000 * n
/-- `SF.SF_STAT`, HCAUSE [3:2] HALT [1:1] F [0:0] (R393). -/
def SF.SF_STAT (n : Nat) : Nat := 0xC0058 + 0x1000 * n
/-- `SF.SF_CTRL`, RESUME [1:1] FLUSH [0:0] (R390). -/
def SF.SF_CTRL (n : Nat) : Nat := 0xC005C + 0x1000 * n
/-- `SF.OVERRUN`, OVERRUN [31:0] (R389). -/
def SF.OVERRUN (n : Nat) : Nat := 0xC0060 + 0x1000 * n
/-- `SF.UNDERRUN`, UNDERRUN [31:0] (R390). -/
def SF.UNDERRUN (n : Nat) : Nat := 0xC0064 + 0x1000 * n
/-- `SF.CORR`, CORR [31:0] (R390). -/
def SF.CORR (n : Nat) : Nat := 0xC0068 + 0x1000 * n
/-- `SF.UE`, UE [31:0] (R390). -/
def SF.UE (n : Nat) : Nat := 0xC006C + 0x1000 * n
/-- `SF.PAIR_ERR`, PAIR_ERR [31:0] (R387). -/
def SF.PAIR_ERR (n : Nat) : Nat := 0xC0070 + 0x1000 * n
/-- `SF.WORDS`, WORDS [31:0] (R394). -/
def SF.WORDS (n : Nat) : Nat := 0xC0074 + 0x1000 * n
/-- `SEQ.CMD`, CODE [3:0] (R244). -/
def SEQ.CMD (n : Nat) : Nat := 0xD0040 + 0x1000 * n
/-- `SEQ.CFG`, AUTO_CLOSE [31:31] SUM_EN [30:30] N_REOPEN [23:16] N_LOCK [15:8] N_UNLOCK [7:0] (R260). -/
def SEQ.CFG (n : Nat) : Nat := 0xD0044 + 0x1000 * n
/-- `SEQ.PT`, PT_CREEP [28:24] PT_REOPEN [20:16] PT_CLOSE [12:8] PT_OPEN [4:0] (R260). -/
def SEQ.PT (n : Nat) : Nat := 0xD0048 + 0x1000 * n
/-- `SEQ.T_LOCKS`, T_LOCK [31:16] T_UNLOCK [15:0] (R260). -/
def SEQ.T_LOCKS (n : Nat) : Nat := 0xD004C + 0x1000 * n
/-- `SEQ.T_MOVES`, T_CLOSE [31:16] T_OPEN [15:0] (R260). -/
def SEQ.T_MOVES (n : Nat) : Nat := 0xD0050 + 0x1000 * n
/-- `SEQ.DWELL`, DWELL_REOPEN [31:16] DWELL_OPEN [15:0] (R260). -/
def SEQ.DWELL (n : Nat) : Nat := 0xD0054 + 0x1000 * n
/-- `SEQ.OBS_HOLD`, OBS_HOLD [15:0] (R260). -/
def SEQ.OBS_HOLD (n : Nat) : Nat := 0xD0058 + 0x1000 * n
/-- `SEQ.PROVE`, LOCK_EN [31:31] LOCK_POL [30:30] LOCK_EP [29:24] CLS_EN [23:23] CLS_POL [22:22] CLS_EP [21:16] (R243). -/
def SEQ.PROVE (n : Nat) : Nat := 0xD005C + 0x1000 * n
/-- `SEQ.ISO_TQ`, ISO_TQ [15:0] (R249). -/
def SEQ.ISO_TQ (n : Nat) : Nat := 0xD0060 + 0x1000 * n
/-- `SEQ.MEM`, EN [31:31] PROVE [30:29] ROLE [26:24] AXIS [7:0] (R243). -/
def SEQ.MEM (n : Nat) (i : Nat) : Nat := 0xD0080 + 0x1000 * n + 0x4 * i
/-- `SEQ.POS_A`, POS_A [31:0] (R243). -/
def SEQ.POS_A (n : Nat) (i : Nat) : Nat := 0xD00C0 + 0x1000 * n + 0x8 * i
/-- `SEQ.POS_B`, POS_B [31:0] (R243). -/
def SEQ.POS_B (n : Nat) (i : Nat) : Nat := 0xD00C4 + 0x1000 * n + 0x8 * i
/-- `SEQ.BAND`, BAND [30:0] (R243). -/
def SEQ.BAND (n : Nat) (i : Nat) : Nat := 0xD0140 + 0x1000 * n + 0x4 * i
/-- `SEQ.STAT`, STATE [31:28] CAUSE [27:24] STATE_GEN [23:16] RETRIES [15:8] HOLD_OPEN [7:7] FROM [3:0] (R260). -/
def SEQ.STAT (n : Nat) : Nat := 0xD0180 + 0x1000 * n
/-- `SEQ.ENTRY_TICK`, ENTRY_TICK [31:0] (R246). -/
def SEQ.ENTRY_TICK (n : Nat) : Nat := 0xD0184 + 0x1000 * n
/-- `SEQ.OBS`, VALID [31:31] AXIS [7:0] (R260). -/
def SEQ.OBS (n : Nat) : Nat := 0xD0188 + 0x1000 * n
/-- `SEQ.CYCLES`, CYCLES [31:0] (R255). -/
def SEQ.CYCLES (n : Nat) : Nat := 0xD018C + 0x1000 * n
/-- `SEQ.CMD_LOST`, CMD_LOST [31:0] (R244). -/
def SEQ.CMD_LOST (n : Nat) : Nat := 0xD0190 + 0x1000 * n
/-- `SEQ.CMD_IGN`, CMD_IGN [31:0] (R244). -/
def SEQ.CMD_IGN (n : Nat) : Nat := 0xD0194 + 0x1000 * n
/-- `SEQ.SEQ_STALE`, SEQ_STALE [31:0] (R246). -/
def SEQ.SEQ_STALE (n : Nat) : Nat := 0xD0198 + 0x1000 * n
/-- `SEQ.SVC_CFG`, SEQ_DIV [13:12] PROF_DIV [9:8] (R233). -/
def SEQ.SVC_CFG (n : Nat) : Nat := 0xD01C0 + 0x1000 * n
/-- `SEQ.PT_OFS`, PT_OFS [18:0] (R237). -/
def SEQ.PT_OFS (n : Nat) : Nat := 0xD01C4 + 0x1000 * n
/-- `SEQ.SVC_TAB`, SVC_TAB [18:0] (R234). -/
def SEQ.SVC_TAB (n : Nat) : Nat := 0xD01C8 + 0x1000 * n
/-- `SEQ.SIG_CFG`, SIG_PAGES [26:16] SIG_PAGE [10:0] (R255). -/
def SEQ.SIG_CFG (n : Nat) : Nat := 0xD01CC + 0x1000 * n
/-- `SEQ.SIG_WR`, SIG_WR [31:0] (R255). -/
def SEQ.SIG_WR (n : Nat) : Nat := 0xD01D0 + 0x1000 * n
/-- `SEQ.SIG_OVW`, SIG_OVW [31:0] (R255). -/
def SEQ.SIG_OVW (n : Nat) : Nat := 0xD01D4 + 0x1000 * n
/-- `AXIS.MAP`, EN [31:31] SEG [27:24] NODE [20:16] IDX [9:8] (R15). -/
def AXIS.MAP (n : Nat) : Nat := 0x100040 + 0x1000 * n
/-- `AXIS.PLACE`, HOME [2:0] (R154). -/
def AXIS.PLACE (n : Nat) : Nat := 0x100044 + 0x1000 * n
/-- `AXIS.LMODE`, SP_SRC [12:12] AUX_FB [9:8] CTRL [5:4] MODE [1:0] (R181). -/
def AXIS.LMODE (n : Nat) : Nat := 0x100048 + 0x1000 * n
/-- `AXIS.CASC`, PHASE [10:8] DIV_P [5:4] DIV_V [3:2] DIV_C [1:0] (R182). -/
def AXIS.CASC (n : Nat) : Nat := 0x10004C + 0x1000 * n
/-- `AXIS.BANK`, SEL [3:0] (R194). -/
def AXIS.BANK (n : Nat) : Nat := 0x100050 + 0x1000 * n
/-- `AXIS.STAT`, FS [31:31] STALLED [30:30] ORPHAN [29:29] HOLD [28:28] (R278). -/
def AXIS.STAT (n : Nat) : Nat := 0x100054 + 0x1000 * n
/-- `AXIS.HOLD_CNT`, HOLD_CNT [31:0] (R31). -/
def AXIS.HOLD_CNT (n : Nat) : Nat := 0x100058 + 0x1000 * n
/-- `AXIS.LSTAT`, LSTAT [31:0] (R192). -/
def AXIS.LSTAT (n : Nat) : Nat := 0x10005C + 0x1000 * n
/-- `AXIS.FLAG_CLR`, FLAG_CLR [31:0] (R193). -/
def AXIS.FLAG_CLR (n : Nat) : Nat := 0x100060 + 0x1000 * n
/-- `AXIS.SP_POS`, SP_POS [31:0] (R186). -/
def AXIS.SP_POS (n : Nat) : Nat := 0x100064 + 0x1000 * n
/-- `AXIS.SP_VEL`, SP_VEL [31:0] (R186). -/
def AXIS.SP_VEL (n : Nat) : Nat := 0x100068 + 0x1000 * n
/-- `AXIS.SP_ID`, SP_ID [31:0] (R186). -/
def AXIS.SP_ID (n : Nat) : Nat := 0x10006C + 0x1000 * n
/-- `AXIS.SP_TQ`, SP_TQ [31:0] (R186). -/
def AXIS.SP_TQ (n : Nat) : Nat := 0x100070 + 0x1000 * n
/-- `AXIS.FF`, FF [31:0] (R188). -/
def AXIS.FF (n : Nat) : Nat := 0x100074 + 0x1000 * n
/-- `AXIS.TQ_LIMIT`, TQ_LIMIT [15:0] (R203). -/
def AXIS.TQ_LIMIT (n : Nat) : Nat := 0x100078 + 0x1000 * n
/-- `AXIS.COMM_OFS`, COMM_OFS [31:0] (R199). -/
def AXIS.COMM_OFS (n : Nat) : Nat := 0x100080 + 0x1000 * n
/-- `AXIS.COMM_GAIN`, COMM_GAIN [31:0] (R199). -/
def AXIS.COMM_GAIN (n : Nat) : Nat := 0x100084 + 0x1000 * n
/-- `AXIS.COMM_SH`, COMM_SH [4:0] (R199). -/
def AXIS.COMM_SH (n : Nat) : Nat := 0x100088 + 0x1000 * n
/-- `AXIS.ADV_K`, ADV_K [31:0] (R199). -/
def AXIS.ADV_K (n : Nat) : Nat := 0x100090 + 0x1000 * n
/-- `AXIS.ADV_SH`, ADV_SH [4:0] (R199). -/
def AXIS.ADV_SH (n : Nat) : Nat := 0x100094 + 0x1000 * n
/-- `AXIS.FB_CFG`, SEC_EN [31:31] SEC_CH [27:24] CW [17:16] SLIP_EN [8:8] SLIP_M [7:0] (R224). -/
def AXIS.FB_CFG (n : Nat) : Nat := 0x100300 + 0x1000 * n
/-- `AXIS.V_LO`, V_LO [30:0] (R217). -/
def AXIS.V_LO (n : Nat) : Nat := 0x100304 + 0x1000 * n
/-- `AXIS.V_HI`, V_HI [30:0] (R217). -/
def AXIS.V_HI (n : Nat) : Nat := 0x100308 + 0x1000 * n
/-- `AXIS.STILL_T`, STILL_T [31:0] (R217). -/
def AXIS.STILL_T (n : Nat) : Nat := 0x10030C + 0x1000 * n
/-- `AXIS.SEC_GAIN`, SEC_GAIN [31:0] (R225). -/
def AXIS.SEC_GAIN (n : Nat) : Nat := 0x100310 + 0x1000 * n
/-- `AXIS.SEC_SH`, SEC_SH [4:0] (R225). -/
def AXIS.SEC_SH (n : Nat) : Nat := 0x100314 + 0x1000 * n
/-- `AXIS.SLIP_TOL`, SLIP_TOL [30:0] (R225). -/
def AXIS.SLIP_TOL (n : Nat) : Nat := 0x100318 + 0x1000 * n
/-- `AXIS.FB_CTRL`, REZERO [0:0] (R224). -/
def AXIS.FB_CTRL (n : Nat) : Nat := 0x10031C + 0x1000 * n
/-- `AXIS.POS_LO`, POS_LO [31:0] (R231). -/
def AXIS.POS_LO (n : Nat) : Nat := 0x100320 + 0x1000 * n
/-- `AXIS.POS_HI`, POS_HI [31:0] (R231). -/
def AXIS.POS_HI (n : Nat) : Nat := 0x100324 + 0x1000 * n
/-- `AXIS.SPEED`, SPEED [31:0] (R231). -/
def AXIS.SPEED (n : Nat) : Nat := 0x100328 + 0x1000 * n
/-- `AXIS.FSTAT`, FSTAT [31:0] (R231). -/
def AXIS.FSTAT (n : Nat) : Nat := 0x10032C + 0x1000 * n
/-- `AXIS.SEC_SPEED`, SEC_SPEED [31:0] (R231). -/
def AXIS.SEC_SPEED (n : Nat) : Nat := 0x100330 + 0x1000 * n
/-- `AXIS.OBS_CFG`, EN [31:31] LEARN [30:30] M [23:16] SIG_SH [11:8] BIN_SH [4:0] (R259). -/
def AXIS.OBS_CFG (n : Nat) : Nat := 0x100400 + 0x1000 * n
/-- `AXIS.KT`, KT [31:0] (R252). -/
def AXIS.KT (n : Nat) : Nat := 0x100404 + 0x1000 * n
/-- `AXIS.KT_SH`, KT_SH [4:0] (R252). -/
def AXIS.KT_SH (n : Nat) : Nat := 0x100408 + 0x1000 * n
/-- `AXIS.KJ`, KJ [31:0] (R252). -/
def AXIS.KJ (n : Nat) : Nat := 0x10040C + 0x1000 * n
/-- `AXIS.KJ_SH`, KJ_SH [4:0] (R252). -/
def AXIS.KJ_SH (n : Nat) : Nat := 0x100410 + 0x1000 * n
/-- `AXIS.KB`, KB [31:0] (R252). -/
def AXIS.KB (n : Nat) : Nat := 0x100414 + 0x1000 * n
/-- `AXIS.KB_SH`, KB_SH [4:0] (R252). -/
def AXIS.KB_SH (n : Nat) : Nat := 0x100418 + 0x1000 * n
/-- `AXIS.FS`, FS [15:0] (R252). -/
def AXIS.FS (n : Nat) : Nat := 0x10041C + 0x1000 * n
/-- `AXIS.F_ABS`, F_ABS [15:0] (R252). -/
def AXIS.F_ABS (n : Nat) : Nat := 0x100420 + 0x1000 * n
/-- `AXIS.LEARN`, HIST_N [18:16] MARGIN [15:0] (R256). -/
def AXIS.LEARN (n : Nat) : Nat := 0x100424 + 0x1000 * n
/-- `AXIS.STROKE_LO`, STROKE_LO [31:0] (R252). -/
def AXIS.STROKE_LO (n : Nat) : Nat := 0x100428 + 0x1000 * n
/-- `AXIS.OBS_TQ`, OBS_TQ [15:0] (R253). -/
def AXIS.OBS_TQ (n : Nat) : Nat := 0x10042C + 0x1000 * n
/-- `AXIS.RELIEF`, RELIEF [15:0] (R253). -/
def AXIS.RELIEF (n : Nat) : Nat := 0x100430 + 0x1000 * n
/-- `AXIS.F_EST`, F_EST [31:0] (R259). -/
def AXIS.F_EST (n : Nat) : Nat := 0x100440 + 0x1000 * n
/-- `AXIS.OBS_WORD`, OBS_WORD [31:0] (R259). -/
def AXIS.OBS_WORD (n : Nat) : Nat := 0x100444 + 0x1000 * n
/-- `AXIS.OBS_TICK`, OBS_TICK [31:0] (R259). -/
def AXIS.OBS_TICK (n : Nat) : Nat := 0x100448 + 0x1000 * n
/-- `AXIS.KP`, KP [31:0] (R188). -/
def AXIS.KP (n : Nat) (i : Nat) : Nat := 0x100100 + 0x1000 * n + 0x40 * i
/-- `AXIS.KP_SH`, KP_SH [4:0] (R188). -/
def AXIS.KP_SH (n : Nat) (i : Nat) : Nat := 0x100104 + 0x1000 * n + 0x40 * i
/-- `AXIS.KI`, KI [31:0] (R188). -/
def AXIS.KI (n : Nat) (i : Nat) : Nat := 0x100108 + 0x1000 * n + 0x40 * i
/-- `AXIS.KI_SH`, KI_SH [4:0] (R188). -/
def AXIS.KI_SH (n : Nat) (i : Nat) : Nat := 0x10010C + 0x1000 * n + 0x40 * i
/-- `AXIS.KD`, KD [31:0] (R188). -/
def AXIS.KD (n : Nat) (i : Nat) : Nat := 0x100110 + 0x1000 * n + 0x40 * i
/-- `AXIS.KD_SH`, KD_SH [4:0] (R188). -/
def AXIS.KD_SH (n : Nat) (i : Nat) : Nat := 0x100114 + 0x1000 * n + 0x40 * i
/-- `AXIS.KF`, KF [31:0] (R188). -/
def AXIS.KF (n : Nat) (i : Nat) : Nat := 0x100118 + 0x1000 * n + 0x40 * i
/-- `AXIS.KF_SH`, KF_SH [4:0] (R188). -/
def AXIS.KF_SH (n : Nat) (i : Nat) : Nat := 0x10011C + 0x1000 * n + 0x40 * i
/-- `AXIS.ILO`, ILO [31:0] (R188). -/
def AXIS.ILO (n : Nat) (i : Nat) : Nat := 0x100120 + 0x1000 * n + 0x40 * i
/-- `AXIS.IHI`, IHI [31:0] (R188). -/
def AXIS.IHI (n : Nat) (i : Nat) : Nat := 0x100124 + 0x1000 * n + 0x40 * i
/-- `AXIS.ULO`, ULO [31:0] (R188). -/
def AXIS.ULO (n : Nat) (i : Nat) : Nat := 0x100128 + 0x1000 * n + 0x40 * i
/-- `AXIS.UHI`, UHI [31:0] (R188). -/
def AXIS.UHI (n : Nat) (i : Nat) : Nat := 0x10012C + 0x1000 * n + 0x40 * i
/-- `AXIS.LAW`, ISH [15:12] FFSEL [9:8] DSEL [4:4] COMPAT [3:3] BUMPLESS [2:2] LAW [0:0] (R191). -/
def AXIS.LAW (n : Nat) (i : Nat) : Nat := 0x100130 + 0x1000 * n + 0x40 * i
/-- `AXIS.BAND`, BAND [31:0] (R191). -/
def AXIS.BAND (n : Nat) (i : Nat) : Nat := 0x100134 + 0x1000 * n + 0x40 * i
/-- `AXIS.DWELL`, DWELL [15:0] (R191). -/
def AXIS.DWELL (n : Nat) (i : Nat) : Nat := 0x100138 + 0x1000 * n + 0x40 * i

end Sys2Proof.Machine
end

