-- ==== Sys2Proof/Machine/Types.lean ====
section
/-!
DEFINITION. The data that commands carry: the ports that issue register accesses, the kinds of commit unit, received
frames, and the messages of the standby link (Tables 13.1 to 13.3).
-/

namespace Sys2Proof.Machine

/-- The ports that issue register accesses (R51, R52): the two host ports, the Kettle and the two COMMIT sinks. -/
inductive Port where
  | pcie | qspi | kettle | sink0 | sink1
  deriving DecidableEq, Repr

/-- The kinds of commit unit: a group unit (R66), an AUTO unit (R71), a reset unit (R57), an FS clear (R278). -/
inductive UnitKind where
  | group (g : Nat)
  | auto
  | reset (page : Nat)
  | fsClear (axis : Nat)
  /-- The unit of lock demands of a SEQ publication (R248). -/
  | seqDemand
  deriving DecidableEq, Repr

/-- A received frame: its bytes from the destination address to the end of payload and pad, what the check of its FCS
gave, and its start-of-frame stamp.  The end of its FCS is the instant of the command. -/
structure RxFrame where
  bytes : List Byte
  /-- The FCS is correct: not wrong and not marked by a node (R272). -/
  fcsOk : Bool
  sof : Word
  deriving DecidableEq, Repr

/-- The record of one node as the head took it: node header and axis records. -/
structure NodeRec where
  node : Nat
  hdr : List Byte
  recs : List (List Byte)
  deriving DecidableEq, Repr

/-- The state of a door group that a transition journals (R246). -/
structure SeqTrans where
  grp : Nat
  state : Nat
  cause : Nat
  axis : Nat
  deriving DecidableEq, Repr

/-- A journal entry (Table 13.2). -/
inductive Entry where
  /-- A captured unit with the order of its acceptance and its instant in line nanoseconds, which both chips share (R265): it is due at the T0
  that applies the journal which holds it. -/
  | unit (kind : UnitKind) (seq : Nat) (inst : Word) (writes : List (Nat × Option Word))
  | seq (t : SeqTrans)
  /-- A request of a mode change (stage 0), its confirmation (1) or its end (2) with what MC_STAT says of it. -/
  | mode (stage target tick ann : Nat) (four : Bool) (reason node seg : Nat)
  /-- A change of a node's state: 0 ABSENT, 1 ADMITTED, 2 REFUSED with its reason. -/
  | admission (seg node state reason : Nat)
  | verdict (axis verdict : Nat)
  deriving DecidableEq, Repr

/-- What the SEAL of a tick says (Table 13.1). -/
structure Seal where
  tick : Nat
  count : Nat
  /-- Refused groups of the next T0, one bit each. -/
  refused : Nat
  /-- Publications due at the next T0: Pot and kind. -/
  pubs : List (Nat × Nat)
  /-- Handover tick, with HANDOVER set. -/
  handover : Option Nat
  /-- CRC-32 of the journal. -/
  crc : Word
  deriving DecidableEq, Repr

/-- What a sequencer run read of a member from its axis (R236). -/
structure MemIn where
  n : Word
  slip : Bool
  bad : Bool
  done : Bool
  deriving DecidableEq, Repr

def MemIn.none : MemIn := ⟨0#32, false, false, false⟩

/-- The input frame of a group in a sequencer run (R236). -/
structure SeqRun where
  cmd : Option Nat
  tick : Nat
  gen : Nat
  /-- Levels of the lock input and the closed input latched at the T0. -/
  lock : Bool
  closed : Bool
  mems : Tab MemIn
  /-- The group's configuration in force at the release: registers 0x44 to 0x17F of its page. -/
  cfg : List (Nat × Word)
  deriving DecidableEq, Repr

/-- A piece of catch-up data (Table 13.3). -/
inductive CatchItem where
  /-- Bytes of a Pot memory at a debug-window address. -/
  | mem (addr : Nat) (bytes : List Byte)
  /-- Register values in force. -/
  | reg (addr : Nat) (v : Word)
  /-- The mode in force and the number of its first tick. -/
  | mode (m : Nat) (since : DWord)
  /-- The state block of an axis. -/
  | axis (a : Nat) (bytes : List Byte)
  /-- A publication, to be installed at the T0 that the SEAL names, with its parameter word and the sequencer runs it gives results for. -/
  | pub (pot kind param ofs : Nat) (bytes : List Byte) (runs : List (Nat × SeqRun))
  /-- SEQ block state of a group beside its registers: the command slot, the lock demand, and the requests by member:
  generation, valid, hold, table and target; the marks of its cycle, its tries and its cycle record. -/
  | seq (g : Nat) (slot : Option Nat) (demand : Option Bool) (reqs : List (Nat × Nat × Bool × Bool × Nat × Word))
    (marks : List Bool) (tries : Nat × Nat) (crec : List Byte)
  /-- A cycle record of the group that waits for a kind 2 release. -/
  | seqRec (g : Nat) (crec : List Byte)
  /-- The end of the IMAGE phase. -/
  | imageEnd
  deriving DecidableEq, Repr

/-- How a copy of a message arrives: its sequence number, the sender's tenure, whether its CRC is correct (R347). -/
structure LinkRx where
  seq : Nat
  tenure : Nat
  crcOk : Bool
  deriving DecidableEq, Repr

/-- What the head puts into a CATCH message (R352). -/
inductive CatchAsk where
  | mem (addr len : Nat)
  | reg (addr : Nat)
  | mode
  | seq (g : Nat)
  /-- The `i`th of the cycle records that wait. -/
  | seqRec (g i : Nat)
  | axis (a : Nat)
  /-- The part of a publication from an offset on. -/
  | pub (pot kind ofs : Nat)
  | imageEnd
  deriving DecidableEq, Repr

/-- Messages of the standby link (Table 13.1). -/
inductive LinkMsg where
  | hello (part rev id role lstate tenure sstate : Nat)
  | tick (no mode role id tenure : Nat) (samples : List (List Word))
  | relay (seg : Nat) (miss : Bool) (srcB missing : Nat) (recs : List NodeRec) (crc : Word)
  | entry (e : Entry)
  | seal (s : Seal)
  | report (seg : Nat) (mism : List (Nat × List Byte)) (digests : List (Nat × Nat))
  | claim (h recl : Nat)
  | catchUp (l : List CatchItem)
  deriving DecidableEq, Repr

/-- TYPE of a message (Table 13.1). -/
def LinkMsg.type : LinkMsg → Nat
  | .hello .. => 1
  | .tick .. => 2
  | .relay .. => 3
  | .entry .. => 4
  | .seal .. => 5
  | .report .. => 6
  | .claim .. => 7
  | .catchUp .. => 8

/-- A DMA descriptor (Table 16.3): host address and the two control words. -/
structure Desc where
  addr : Nat
  ctl : Word
  /-- Bytes 12 to 15: `LAUNCH_AT` of a timed frame. -/
  aux : Word
  deriving DecidableEq, Repr

/-- Where a command to the Kettle comes from (R427, R466, R467). -/
inductive Via where
  /-- Mailbox 0 or 1. -/
  | mbx (m : Nat)
  /-- The datagram at the head of those that wait. -/
  | mgmt
  /-- Words of SF0 or SF1, which bring image bytes. -/
  | stream (n : Nat)
  deriving DecidableEq, Repr

/-- A PCIe memory request (R411): an address and, for each 32-bit word, its byte enables and the data written. -/
inductive PcieReq where
  | read (addr : Nat) (be : List Nat)
  | write (addr : Nat) (words : List (Nat × Word))
  deriving DecidableEq, Repr

/-- A PCIe configuration request (R410): a read of a register by its offset, a write of the command register, of BAR0, or of
another register that nothing in this chip implements, the MSI-X control, or the power state. -/
inductive CfgReq where
  | read (reg : Nat)
  | msix (en mask : Bool)
  | power (d3hot : Bool)
  | command (v : Word)
  | bar0 (v : Word)
  | other (reg : Nat) (v : Word)
  deriving DecidableEq, Repr

end Sys2Proof.Machine
end

