-- ==== Sys2Proof/Syntax.lean ====
section
/-!
DEFINITION. The commands of the chip: one constructor for each row of the opcode table.  A command is a register
access of a port, a slot instruction of a Leaf, a frame or message that arrives, an event of a pin or supply, or an instant
that the chip's clocks reach.

Operands: `p` a port; `a` a BAR0 address, or an axis, or an address register of a Leaf; `b` a page's base address, or a bank; `v`,
`m` a value written; `n` an instance: a Leaf, a pin, a unit, a line port, a FIFO; `g` a segment, a door group or a general register;
`k` an index; `f` a received frame; `x` how a message arrived; `last` ends the bundle of a slot instruction.
-/

namespace Sys2Proof

open Machine

/-- The commands. -/
inductive Instr where
  -- Register accesses, staging and commit (R47 to R73, R432)
  /-- `REGISTER_WRITE` (R49). -/
  | registerWrite (p : Port) (a : Nat) (v : Word)
  /-- `UNMAPPED_ACCESS` (R54). -/
  | unmappedAccess (p : Port) (a : Nat) (w : Option Word)
  /-- `RC_READ` (R49). -/
  | rcRead (p : Port) (a : Nat)
  /-- `PAIR_LOW_READ` (R51). -/
  | pairLowRead (p : Port) (a : Nat)
  /-- `PAIR_LOW_WRITE` (R51). -/
  | pairLowWrite (p : Port) (a : Nat) (v : Word)
  /-- `PAIR_HIGH_WRITE` (R51). -/
  | pairHighWrite (p : Port) (a : Nat) (v : Word)
  /-- `RWC_WRITE` (R63). -/
  | rwcWrite (p : Port) (a : Nat) (v : Word)
  /-- `COMMIT` (R64). -/
  | commit (p : Port) (m : Word)
  /-- `PG_COMMIT_GO` (R62). -/
  | pgCommitGo (p : Port) (b : Nat)
  /-- `SRST` (R57). -/
  | srst (p : Port) (b : Nat) (v : Word)
  /-- `SRST_SETTLE` (R57). -/
  | srstSettle (b : Nat)
  /-- `PG_LOCK_WRITE` (R61). -/
  | pgLockWrite (p : Port) (b : Nat) (v : Word)
  /-- `PG_EVT_SET_WRITE` (R58). -/
  | pgEvtSetWrite (p : Port) (b : Nat) (v : Word)
  /-- `W1C_WRITE` (R432). -/
  | w1cWrite (p : Port) (a : Nat) (v : Word)
  -- Time base and tick (R74 to R92)
  /-- `ADDEND_WRITE` (R76). -/
  | addendWrite (p : Port) (v : Word)
  /-- `SLEW_WRITE` (R77). -/
  | slewWrite (p : Port) (v : Word)
  /-- `SLEW_DONE` (R77). -/
  | slewDone
  /-- `SET` (R78). -/
  | timeSet (p : Port) (v : Word)
  /-- `SNAP` (R80). -/
  | snap (p : Port) (v : Word)
  /-- `SRC_WRITE` (R79). -/
  | srcWrite (p : Port) (v : Word)
  /-- `MARK` (R85). -/
  | mark (p : Port)
  /-- `WRAP` (R74). -/
  | wrap
  /-- `RUN_START` (R90). -/
  | runStart (p : Port) (mode : Nat)
  /-- `RUN_STOP` (R90). -/
  | runStop (p : Port) (mode : Nat)
  /-- `TICK_STOP` (R90). -/
  | tickStop
  /-- `TICK_NO_WRITE` (R90). -/
  | tickNoWrite (p : Port) (v : DWord)
  /-- `MODE_SET_WRITE` (R89). -/
  | modeSetWrite (p : Port) (m j : Nat) (v : Word)
  /-- `T0` (R91). -/
  | t0
  -- Door group commands (R244, R245, R256)
  /-- `OPEN` (R245). -/
  | openDoors (g : Nat)
  /-- `CLOSE` (R245). -/
  | closeDoors (g : Nat)
  /-- `ISOLATE` (R245). -/
  | isolate (g : Nat)
  /-- `RESTORE` (R245). -/
  | restore (g : Nat)
  /-- `SEQ_RESET` (R245). -/
  | seqReset (g : Nat)
  /-- `LEARN_RESET` (R256). -/
  | learnReset (g : Nat)
  -- The tick on the line, cups and Pours (R20 to R42)
  /-- `CYCLE_POINT` (R92). -/
  | cyclePoint (k : Nat)
  /-- `GATHER_LAUNCH` (R20). -/
  | gatherLaunch (g : Nat)
  /-- `GATHER_COPY_RECEIVE` (R21). -/
  | gatherCopyReceive (port : Nat) (copyB : Bool) (f : RxFrame)
  /-- `A_COPY_TIMEOUT` (R22). -/
  | aCopyTimeout (g : Nat)
  /-- `GATHER_RETURN` (R23). -/
  | gatherReturn (g : Nat)
  /-- `GATHER_MISS` (R24). -/
  | gatherMiss (g : Nat)
  /-- `CUP_ASSIGN` (R158). -/
  | cupAssign (p : Nat)
  /-- `STEAL_GRANT` (R162). -/
  | stealGrant
  /-- `CUP_ENTRY` (R117). -/
  | cupEntry (n : Nat) (std : Bool)
  /-- `CUP_COMPLETION` (R120). -/
  | cupCompletion (n : Nat)
  /-- `CUP_OVERRUN` (R32). -/
  | cupOverrun (n : Nat)
  /-- `POUR_LAUNCH` (R27). -/
  | pourLaunch (g : Nat)
  /-- `POUR_CLOSE` (R27). -/
  | pourClose
  /-- `TRAY_PUBLISH` (R42). -/
  | trayPublish
  /-- `SERVICE_SLOT_OPEN` (R284). -/
  | serviceSlotOpen (g : Nat)
  /-- `MODE_BEACON` (R299). -/
  | modeBeacon (g : Nat)
  /-- `MODE_ANNOUNCE` (R307). -/
  | modeAnnounce (g : Nat)
  /-- `MC_DECISION` (R307). -/
  | mcDecision
  /-- `GUARD_OPEN` (R41). -/
  | guardOpen
  /-- `IDLE_UNIT_APPLY` (R72). -/
  | idleUnitApply
  -- Line ports and the Service phase (R284 to R337)
  /-- `UP` (R333). -/
  | up (n : Nat)
  /-- `INSERV` (R333). -/
  | inserv (n : Nat)
  /-- `DOWN` (R334). -/
  | down (n : Nat) (cut : Bool)
  /-- `LQ_UPDATE` (R336). -/
  | lqUpdate (n : Nat) (m : Int) (corr unc sym : Nat)
  /-- `CABLE_GO` (R337). -/
  | cableGo (p : Port) (n : Nat)
  /-- `CABLE_DONE` (R337). -/
  | cableDone (n result dist : Nat)
  /-- `RX_OTHER` (R330): whether the frame is too long, and its start-of-frame stamp. -/
  | rxOther (n : Nat) (long : Bool) (sof : Word := 0#32)
  /-- `FRAME_FORWARD` (R344). -/
  | frameForward (port : Nat) (f : RxFrame)
  /-- `POUR_COMPARE` (R355). -/
  | pourCompare (port : Nat) (f : RxFrame)
  /-- `SERVICE_FRAME_RECEIVE` (R302). -/
  | serviceFrameReceive (port : Nat) (f : RxFrame)
  /-- `UPLINK_CHUNK` (R285). -/
  | uplinkChunk (port : Nat) (f : RxFrame)
  /-- `DESC` (R324). -/
  | desc (port : Nat) (f : RxFrame)
  /-- `NPB_ACK` (R324). -/
  | npbAck (port : Nat) (f : RxFrame)
  /-- `NODE_LOST` (R326). -/
  | nodeLost (g k : Nat)
  /-- `MBX_TX_GO` (R286). -/
  | mbxTxGo (p : Port) (g : Nat) (v : Word)
  /-- `MBX_TX_ABORT` (R286). -/
  | mbxTxAbort (p : Port) (g : Nat) (v : Word)
  /-- `MBX_RX_FREE` (R286). -/
  | mbxRxFree (p : Port) (g : Nat)
  /-- `MBX_TIMEOUT` (R286). -/
  | mbxTimeout (g : Nat)
  /-- `MBX_RX_TIMEOUT` (R286). -/
  | mbxRxTimeout (g : Nat)
  /-- `DELAY_REQ_SEND` (R314). -/
  | delayReqSend (g : Nat)
  /-- `DELAY_REQ_RECEIVE` (R314). -/
  | delayReqReceive (port : Nat) (f : RxFrame)
  /-- `DELAY_RESP_SEND` (R314). -/
  | delayRespSend (g : Nat)
  /-- `DELAY_RESP_RECEIVE` (R315). -/
  | delayRespReceive (port : Nat) (f : RxFrame)
  /-- `MC_GO` (R306). -/
  | mcGo (p : Port) (target ann : Nat)
  /-- `MC_ABORT` (R310). -/
  | mcAbort (p : Port) (target ann : Nat)
  /-- `LISTEN_END` (R321). -/
  | listenEnd
  /-- `COLDSTART_LAUNCH` (R321). -/
  | coldstartLaunch
  /-- `COLDSTART_END` (R321). -/
  | coldstartEnd
  /-- `COLDSTART_RECEIVE` (R320). -/
  | coldstartReceive (port : Nat) (f : RxFrame)
  /-- `EXTENDED_LISTEN_END` (R322). -/
  | extendedListenEnd
  -- Leaves, Pots and the debugger (R125 to R134, R177 to R179)
  /-- `LCTRL_QUAR` (R130). -/
  | lctrlQuar (p : Port) (n : Nat)
  /-- `QUAR_IN` (R131). -/
  | quarIn (n cause : Nat)
  /-- `LCTRL_RELEASE` (R132). -/
  | lctrlRelease (p : Port) (n : Nat)
  /-- `LEAF_RELEASE_DONE` (R132). -/
  | leafReleaseDone (n : Nat)
  /-- `LEAF_FILL_DONE` (R125). -/
  | leafFillDone (n : Nat)
  /-- `STEP` (R134). -/
  | step (p : Port) (n : Nat)
  /-- `DBG_PC_WRITE` (R134). -/
  | dbgPcWrite (p : Port) (n : Nat) (v : Word)
  /-- `DBG_DATA_WRITE` (R133). -/
  | dbgDataWrite (p : Port) (n : Nat) (v : Word)
  /-- `DEBUG_WINDOW_WRITE` (R128). -/
  | debugWindowWrite (p : Port) (a : Nat) (v : Word)
  /-- `DEBUG_WINDOW_READ` (R128). -/
  | debugWindowRead (p : Port) (a : Nat)
  /-- `IC_MISS` (R126). -/
  | icMiss (n bundle : Nat) (perr : Bool)
  /-- `PCTRL_QUAR` (R178). -/
  | pctrlQuar (p : Port) (n : Nat) (v : Word)
  /-- `PCTRL_RELEASE` (R179). -/
  | pctrlRelease (p : Port) (n : Nat) (v : Word)
  /-- `POT_RELEASE_DONE` (R179). -/
  | potReleaseDone (n : Nat)
  /-- `POT_FILL_DONE` (R177). -/
  | potFillDone (p : Nat)
  /-- `SLOW_CUP_START` (R170). -/
  | slowCupStart (n : Nat) (std : Bool)
  -- Leaf instructions, slot X (R136, R140 to R146)
  /-- `ADD` (R140). -/
  | add (n gd gs gt : Nat) (last : Bool)
  /-- `SUB` (R140). -/
  | sub (n gd gs gt : Nat) (last : Bool)
  /-- `ADDS` (R140). -/
  | adds (n gd gs gt : Nat) (last : Bool)
  /-- `SUBS` (R140). -/
  | subs (n gd gs gt : Nat) (last : Bool)
  /-- `AND` (R140). -/
  | and (n gd gs gt : Nat) (last : Bool)
  /-- `OR` (R140). -/
  | or (n gd gs gt : Nat) (last : Bool)
  /-- `XOR` (R140). -/
  | xor (n gd gs gt : Nat) (last : Bool)
  /-- `SLL` (R140). -/
  | sll (n gd gs gt : Nat) (last : Bool)
  /-- `SRL` (R140). -/
  | srl (n gd gs gt : Nat) (last : Bool)
  /-- `SRA` (R140). -/
  | sra (n gd gs gt : Nat) (last : Bool)
  /-- `SLLI` (R140). -/
  | slli (n gd gs sh : Nat) (last : Bool)
  /-- `SRLI` (R140). -/
  | srli (n gd gs sh : Nat) (last : Bool)
  /-- `SRAI` (R140). -/
  | srai (n gd gs sh : Nat) (last : Bool)
  /-- `SLT` (R140). -/
  | slt (n gd gs gt : Nat) (last : Bool)
  /-- `SLTU` (R140). -/
  | sltu (n gd gs gt : Nat) (last : Bool)
  /-- `ABSS` (R140). -/
  | abss (n gd gs : Nat) (last : Bool)
  /-- `NEGS` (R140). -/
  | negs (n gd gs : Nat) (last : Bool)
  /-- `NRM` (R140). -/
  | nrm (n gd gs : Nat) (last : Bool)
  /-- `SELN` (R140). -/
  | seln (n gd gs gt : Nat) (last : Bool)
  /-- `SELZ` (R140). -/
  | selz (n gd gs gt : Nat) (last : Bool)
  /-- `SLLSI` (R140). -/
  | sllsi (n gd gs sh : Nat) (last : Bool)
  /-- `MFC` (R143). -/
  | mfc (n gd r : Nat) (last : Bool)
  /-- `MTC` (R143). -/
  | mtc (n r gs : Nat) (last : Bool)
  /-- `GA` (R140). -/
  | ga (n ad gs : Nat) (last : Bool)
  /-- `AG` (R140). -/
  | ag (n gd as : Nat) (last : Bool)
  /-- `JR` (R145). -/
  | jr (n gs : Nat) (last : Bool)
  /-- `ADDI` (R141). -/
  | addi (n gd gs k : Nat) (last : Bool)
  /-- `ADDSI` (R141). -/
  | addsi (n gd gs k : Nat) (last : Bool)
  /-- `ANDI` (R141). -/
  | andi (n gd gs k : Nat) (last : Bool)
  /-- `ORI` (R141). -/
  | ori (n gd gs k : Nat) (last : Bool)
  /-- `XORI` (R141). -/
  | xori (n gd gs k : Nat) (last : Bool)
  /-- `LUI` (R141). -/
  | lui (n gd k : Nat) (last : Bool)
  /-- `SLTI` (R141). -/
  | slti (n gd gs k : Nat) (last : Bool)
  /-- `SLTUI` (R141). -/
  | sltui (n gd gs k : Nat) (last : Bool)
  /-- `AADD` (R141). -/
  | aadd (n ad as k : Nat) (last : Bool)
  /-- `AINC` (R141). -/
  | ainc (n ad k : Nat) (last : Bool)
  /-- `LDB` (R142). -/
  | ldb (n g a : Nat) (post : Bool) (k : Nat) (last : Bool)
  /-- `LDBU` (R142). -/
  | ldbu (n g a : Nat) (post : Bool) (k : Nat) (last : Bool)
  /-- `LDH` (R142). -/
  | ldh (n g a : Nat) (post : Bool) (k : Nat) (last : Bool)
  /-- `LDHU` (R142). -/
  | ldhu (n g a : Nat) (post : Bool) (k : Nat) (last : Bool)
  /-- `LDW` (R142). -/
  | ldw (n g a : Nat) (post : Bool) (k : Nat) (last : Bool)
  /-- `LDD` (R142). -/
  | ldd (n g a : Nat) (post : Bool) (k : Nat) (last : Bool)
  /-- `LDC` (R142). -/
  | ldc (n g acc a : Nat) (post : Bool) (k : Nat) (last : Bool)
  /-- `STB` (R142). -/
  | stb (n g a : Nat) (post : Bool) (k : Nat) (last : Bool)
  /-- `STH` (R142). -/
  | sth (n g a : Nat) (post : Bool) (k : Nat) (last : Bool)
  /-- `STW` (R142). -/
  | stw (n g a : Nat) (post : Bool) (k : Nat) (last : Bool)
  /-- `STD` (R142). -/
  | std (n g a : Nat) (post : Bool) (k : Nat) (last : Bool)
  /-- `STSH` (R142). -/
  | stsh (n g a : Nat) (post : Bool) (k sh : Nat) (last : Bool)
  /-- `B` (R145). -/
  | b (n target : Nat) (last : Bool)
  /-- `JAL` (R145). -/
  | jal (n gd target : Nat) (last : Bool)
  /-- `BEQ` (R145). -/
  | beq (n gs gt disp : Nat) (last : Bool)
  /-- `BNE` (R145). -/
  | bne (n gs gt disp : Nat) (last : Bool)
  /-- `BLT` (R145). -/
  | blt (n gs gt disp : Nat) (last : Bool)
  /-- `BGE` (R145). -/
  | bge (n gs gt disp : Nat) (last : Bool)
  /-- `BLTU` (R145). -/
  | bltu (n gs gt disp : Nat) (last : Bool)
  /-- `BGEU` (R145). -/
  | bgeu (n gs gt disp : Nat) (last : Bool)
  /-- `DBNZ` (R145). -/
  | dbnz (n gs disp : Nat) (last : Bool)
  /-- `END` (R146). -/
  | endCup (n : Nat) (last : Bool)
  /-- `NOP` (R136). -/
  | nop (n : Nat) (last : Bool)
  /-- `RESERVED_OPCODE` (R136). -/
  | reservedOpcode (n : Nat) (slotY last : Bool)
  -- Leaf instructions, slot Y (R147 to R150)
  /-- `MUL` (R147). -/
  | mul (n acc gs gt : Nat) (last : Bool)
  /-- `MAC` (R147). -/
  | mac (n acc gs gt : Nat) (last : Bool)
  /-- `MAC2` (R147). -/
  | mac2 (n acc gp gq : Nat) (last : Bool)
  /-- `MAC2S` (R147). -/
  | mac2s (n acc gp gq : Nat) (last : Bool)
  /-- `CLR` (R147). -/
  | clr (n acc : Nat) (last : Bool)
  /-- `EXT` (R147). -/
  | ext (n gd acc : Nat) (last : Bool)
  /-- `EXTS` (R147). -/
  | exts (n gd acc sh : Nat) (last : Bool)
  /-- `RDACC` (R147). -/
  | rdacc (n gd acc part : Nat) (last : Bool)
  /-- `WRACC` (R147). -/
  | wracc (n acc gs t : Nat) (last : Bool)
  /-- `WRACCP` (R147). -/
  | wraccp (n acc gp t : Nat) (last : Bool)
  /-- `SMAX` (R148). -/
  | smax (n acc gs : Nat) (last : Bool)
  /-- `SMIN` (R148). -/
  | smin (n acc gs : Nat) (last : Bool)
  /-- `MAX` (R147). -/
  | max (n gd gs gt : Nat) (last : Bool)
  /-- `MIN` (R147). -/
  | min (n gd gs gt : Nat) (last : Bool)
  /-- `CLAMP` (R147). -/
  | clamp (n gd gs gq : Nat) (last : Bool)
  /-- `SATN` (R147). -/
  | satn (n gd gs w : Nat) (last : Bool)
  -- Fail-safe, local feedback and event pins (R211 to R227, R278, R395 to R402)
  /-- `FS_CLEAR` (R278). -/
  | fsClear (p : Port) (a : Nat)
  /-- `COUNTED_EDGE` (R211). -/
  | countedEdge (n : Nat) (a b : Bool)
  /-- `ERR_QUAD` (R212). -/
  | errQuad (n : Nat) (a b : Bool)
  /-- `COMPARE_PULSE_END` (R226). -/
  | comparePulseEnd (n : Nat)
  /-- `IDX` (R213). -/
  | idx (n : Nat) (z : Bool)
  /-- `ZCLR_ARM` (R213). -/
  | zclrArm (p : Port) (n : Nat) (v : Word)
  /-- `CMP_WRITE` (R227). -/
  | cmpWrite (p : Port) (n : Nat) (v : Word)
  /-- `CMP_ENABLE` (R227). -/
  | cmpEnable (p : Port) (n : Nat) (v : Word)
  /-- `PAD_TRANSITION` (R398). -/
  | padTransition (n : Nat) (pad : Bool)
  /-- `PULSE_ACCEPT` (R398). -/
  | pulseAccept (n : Nat)
  /-- `CHATTER_AUTO_RELEASE` (R399). -/
  | chatterAutoRelease (n : Nat)
  /-- `CH_RELEASE` (R399). -/
  | chRelease (p : Port) (b : Nat) (v : Word)
  /-- `STUCK` (R400). -/
  | stuck (n : Nat)
  -- Capture units and stream FIFOs (R374 to R394)
  /-- `ARM` (R378). -/
  | arm (p : Port) (n : Nat) (v : Word)
  /-- `STOP` (R377). -/
  | stop (p : Port) (n : Nat) (v : Word)
  /-- `CLEAR` (R377). -/
  | clear (p : Port) (n : Nat) (v : Word)
  /-- `FORCE` (R376). -/
  | force (p : Port) (n : Nat) (v : Word)
  /-- `REWIND` (R382). -/
  | rewind (p : Port) (n : Nat) (v : Word)
  /-- `MARK_WRITE` (R381). -/
  | markWrite (p : Port) (n : Nat) (m : Word)
  /-- `DRAIN_BLOCK` (R383). -/
  | drainBlock
  /-- `CADDY_WINDOW_WRITE` (R371). -/
  | caddyWindowWrite (p : Port) (o : Nat) (v : Word)
  /-- `CADDY_FILL_DONE` (R372). -/
  | caddyFillDone
  /-- `DATA_LO_WRITE` (R387). -/
  | dataLoWrite (p : Port) (n : Nat) (v : Word)
  /-- `DATA_HI_WRITE` (R387). -/
  | dataHiWrite (p : Port) (n : Nat) (v : Word)
  /-- `DATA_LO_READ` (R387). -/
  | dataLoRead (p : Port) (n : Nat)
  /-- `FLUSH` (R390). -/
  | flush (p : Port) (n : Nat)
  /-- `RESUME` (R393). -/
  | resume (p : Port) (n : Nat)
  /-- `STREAM_NOP` (R391). -/
  | streamNop (n : Nat)
  /-- `STREAM_WRITE` (R391). -/
  | streamWrite (n : Nat)
  /-- `STREAM_COMMIT` (R391). -/
  | streamCommit (n : Nat)
  /-- `WAIT_TICK` (R392). -/
  | waitTick (n : Nat)
  /-- `WAIT_TICK_DONE` (R392). -/
  | waitTickDone (n : Nat)
  /-- `STREAM_RESERVED_OP` (R393). -/
  | streamReservedOp (n : Nat)
  -- Host DMA, management port and Tray holds (R82 to R99, R418 to R425)
  /-- `DMA_ENABLE` (R421). -/
  | dmaEnable (p : Port) (k : Nat) (v : Word)
  /-- `DMA_DISABLE` (R421). -/
  | dmaDisable (p : Port) (k : Nat) (v : Word)
  /-- `TAIL_WRITE` (R418). -/
  | tailWrite (p : Port) (k : Nat) (v : Word)
  /-- `DMA_DESCRIPTOR` (R418). -/
  | dmaDescriptor (k : Nat) (d : Desc) (words : List DWord) (frame : List Byte) (err : Bool) (speed : Nat)
  /-- `SHORT` (R419). -/
  | short (k : Nat)
  /-- `TIMED_FRAME_LAUNCH` (R94). -/
  | timedFrameLaunch
  /-- `MG_FRAME_RECEIVE` (R84). -/
  | mgFrameReceive (bytes : List Byte) (stamp : Word) (report : Option (Nat × Int × Nat))
  /-- `PTP_CTRL_WRITE` (R99). -/
  | ptpCtrlWrite (p : Port) (v : Word)
  /-- `TRAY_HOLD` (R425). -/
  | trayHold (p : Port)
  /-- `TRAY_HOLD_RELEASE` (R425). -/
  | trayHoldRelease (p : Port)
  -- Kettle: mailboxes, updates, log, sensors (R427, R449 to R470)
  /-- `MBX_GO` (R427). -/
  | mbxGo (p : Port) (m len : Nat)
  /-- `MBX_FULL_CLEAR` (R427). -/
  | mbxFullClear (p : Port) (m : Nat)
  /-- `INFO` (R466). -/
  | info (via : Via)
  /-- `LOG_READ` (R466). -/
  | logRead (via : Via)
  /-- `IMG_BEGIN` (R467). -/
  | imgBegin (via : Via) (fail : Bool)
  /-- `IMG_DATA` (R467). -/
  | imgData (via : Via) (fail : Bool)
  /-- `IMG_END` (R467). -/
  | imgEnd (via : Via) (fail : Bool)
  /-- `SET_PENDING` (R467). -/
  | setPending (via : Via) (fail : Bool := false)
  /-- `CLEAR_TRIES` (R454). -/
  | clearTries (via : Via)
  /-- `RESET_COMMAND` (R476). -/
  | resetCommand (via : Via)
  /-- `KEY_PROG` (R467). -/
  | keyProg (via : Via)
  /-- `KTL_CTRL_RESET` (R476). -/
  | ktlCtrlReset (p : Port)
  /-- `DECAF_REQ` (R469). -/
  | decafReq (p : Port)
  /-- `CONFIRM` (R456). -/
  | confirm (p : Port)
  /-- `GOOD` (R456). -/
  | good
  /-- `WDOG_START` (R455). -/
  | wdogStart
  /-- `KETTLE_WATCHDOG` (R457). -/
  | kettleWatchdog
  /-- `TRAP` (R457). -/
  | trap
  /-- `SENSOR_CONVERSION` (R461). -/
  | sensorConversion (k : Nat) (r : Int)
  /-- `LOG_PERSIST` (R463). -/
  | logPersist (fail : Bool)
  /-- `LOG_STREAM_PUSH` (R464). -/
  | logStreamPush
  /-- `FROM_OLDEST` (R464). -/
  | fromOldest (p : Port) (en : Bool)
  /-- `RD_SEQ_WRITE` (R465). -/
  | rdSeqWrite (p : Port) (v : Word)
  /-- `RD3_READ` (R465). -/
  | rd3Read (p : Port)
  -- Power, reset and clocks (R472 to R482)
  /-- `DOM_REQ_WRITE` (R472). -/
  | domReqWrite (p : Port) (v : Word)
  /-- `DOMAIN_TRANSITION_DONE` (R473). -/
  | domainTransitionDone
  /-- `POR` (R476). -/
  | por
  /-- `BOR_CORE` (R475). -/
  | borCore
  /-- `THERM` (R461). -/
  | therm
  /-- `REFCLK_LOSS` (R478). -/
  | refclkLoss
  /-- `PLL_UNLOCK` (R479). -/
  | pllUnlock (k : Nat)
  /-- `HOLDOVER_TIMEOUT` (R479). -/
  | holdoverTimeout
  /-- `PLL_RELOCK` (R479). -/
  | pllRelock (k : Nat)
  /-- `PIN` (R476). -/
  | pin
  /-- `CHIPRST` (R476). -/
  | chiprst
  /-- `RESET_RELEASE` (R477). -/
  | resetRelease (k : Nat)
  /-- `KETTLE_RESET_RELEASE` (R477). -/
  | kettleResetRelease
  /-- `SUPPLY_LOSS` (R474). -/
  | supplyLoss (k : Nat) (present : Bool)
  -- The standby pair (R342 to R367)
  /-- `HELLO_SEND` (R347). -/
  | helloSend
  /-- `HELLO` (R348). -/
  | hello (x : LinkRx) (part rev id role lstate sstate : Nat)
  /-- `SEAL` (R350). -/
  | sealMsg (x : LinkRx) (m : Seal) (ok : Bool)
  /-- `TICK_MESSAGE` (R347). -/
  | tickMessage (x : LinkRx) (no role id : Nat) (samples : List (List Word))
  /-- `RELAY` (R349). -/
  | relay (x : LinkRx) (ok : Bool) (g : Nat) (miss : Bool) (srcB : Nat) (recs : List NodeRec) (crc : Option Word := none)
  /-- `REPORT` (R356). -/
  | report (x : LinkRx) (g : Nat) (mism : List (Nat × List Byte)) (digests : List (Nat × Nat))
  /-- `VERDICT` (R356). -/
  | verdict (a : Nat)
  /-- `ENTRY` (R350). -/
  | entry (x : LinkRx) (e : Entry)
  /-- `CLAIM` (R367). -/
  | claim (x : LinkRx) (h recl : Nat)
  /-- `CATCH` (R352). -/
  | catchMsg (x : LinkRx) (l : List CatchItem)
  /-- `CATCH_SEND` (R352). -/
  | catchSend (l : List CatchAsk)
  /-- `STANDBY_LINK_DOWN` (R348). -/
  | standbyLinkDown
  /-- `TAKEOVER` (R358). -/
  | takeover
  /-- `HANDOVER` (R366). -/
  | handover (p : Port)
  /-- `REJOIN` (R353). -/
  | rejoin (p : Port)
  /-- `ROLE_WRITE` (R342). -/
  | roleWrite (p : Port) (v : Word)
  /-- `DEPOSED` (R363). -/
  | deposed (port : Nat) (f : RxFrame)
  /-- `OLD_TENURE` (R364). -/
  | oldTenure (port : Nat) (f : RxFrame)
  -- Host ports (R410 to R417)
  /-- `PCIE_MEMORY_REQUEST` (R411). -/
  | pcieMemoryRequest (r : PcieReq)
  /-- `HOT_RESET` (R412). -/
  | hotReset (down : Bool)
  /-- `QSPI_READ` (R415). -/
  | qspiRead (a issued delivered : Nat)
  /-- `QREAD` (R415). -/
  | qread (a issued delivered : Nat)
  /-- `QSPI_WRITE` (R416). -/
  | qspiWrite (a : Nat) (words : List Word) (tail : Nat)
  /-- `QWRITE` (R416). -/
  | qwrite (a : Nat) (words : List Word) (tail : Nat)
  /-- `QSPI_STATUS` (R417): `n` bytes leave before HS_CSn rises. -/
  | qspiStatus (n : Nat := 1)
  /-- `QSPI_ID` (R413). -/
  | qspiId
  /-- `QSPI_ERR` (R414): opcode, address, and the number of bytes in which the chip drives the data lines. -/
  | qspiErr (op : Byte := 0#8) (a n : Nat := 0)
  -- Interrupts and counters (R430 to R444)
  /-- `EOI` (R435). -/
  | eoi (p : Port) (v : Word)
  /-- `MSIX_MESSAGE` (R435). -/
  | msixMessage (v : Nat)
  /-- `LEAF_PCTL_CLR` (R442). -/
  | leafPctlClr (p : Port) (n : Nat) (freeze : Bool)
  /-- `CHIP_PCTL_CLR` (R442). -/
  | chipPctlClr (p : Port) (freeze : Bool)
  /-- `FREEZE` (R442). -/
  | freeze (p : Port) (leaf : Option Nat) (freeze : Bool)
  /-- `PCNT_LO_READ` (R444). -/
  | pcntLoRead (p : Port) (leaf : Option Nat) (k : Nat)
  -- Further events
  /-- `BANK_SUPPLY_CHANGE` (R395). -/
  | bankSupplyChange (b v : Nat)
  /-- `FAST_OBSERVATION` (R374). -/
  | fastObservation
  /-- `PCIE_LINK_UP` (R435). -/
  | pcieLinkUp (speed width : Nat)
  /-- `PCIE_CONFIG_REQUEST` (R410). -/
  | pcieConfigRequest (r : CfgReq)
  /-- `SL_LANE_LOCK` (R348). -/
  | slLaneLock (lane : Nat) (locked : Bool)
  /-- `PTP_MESSAGE_SEND` (R97). -/
  | ptpMessageSend (bytes : List Byte) (speed : Nat) (report : Option (Nat × Int × Nat))
  /-- `KETTLE_RESTART_DONE` (R457). -/
  | kettleRestartDone
  deriving DecidableEq, Repr

end Sys2Proof
end

