-- ==== Sys2Proof/WellFormed.lean ====
section
/-!
DEFINITION. Which commands name something of the chip: every operand lies in the range that the manual gives it.
-/

namespace Sys2Proof

open Machine

/-- A word of a register page (R47, R53). -/
def isReg (a : Nat) : Bool := decide (a < 2 ^ 25 ∧ a % 4 = 0) && (pageAt a).isSome
/-- A word of BAR0. -/
def isWordAddr (a : Nat) : Bool := decide (a < 2 ^ 25 ∧ a % 4 = 0)
/-- The base of a register page (R53). -/
def isPage (a : Nat) : Bool := decide (a % 0x1000 = 0) && (pageAt a).isSome
/-- A word of the debug window (Table 2.3). -/
def isDebug (a : Nat) : Bool := decide (0x1000000 ≤ a ∧ a < 0x2000000 ∧ a % 4 = 0)
/-- A word of the Caddy window (Table 2.3). -/
def isCaddy (a : Nat) : Bool := decide (a < 0x800000 ∧ a % 4 = 0)
/-- A Leaf. -/
def isLeaf (a : Nat) : Bool := decide (a < 64)
/-- A Pot. -/
def isPot (a : Nat) : Bool := decide (a < 8)
/-- A segment. -/
def isSeg (a : Nat) : Bool := decide (a < 16)
/-- A line port. -/
def isPort (a : Nat) : Bool := decide (a < 32)
/-- An axis. -/
def isAxis (a : Nat) : Bool := decide (a < 256)
/-- A door group. -/
def isGroup (a : Nat) : Bool := decide (a < 32)
/-- A local feedback channel. -/
def isLf (a : Nat) : Bool := decide (a < 16)
/-- An event pin. -/
def isPin (a : Nat) : Bool := decide (a < 48)
/-- A bank of event pins. -/
def isBank (a : Nat) : Bool := decide (a < 6)
/-- A capture unit. -/
def isCu (a : Nat) : Bool := decide (a < 16)
/-- A stream FIFO. -/
def isSf (a : Nat) : Bool := decide (a < 4)
/-- A DMA channel. -/
def isDma (a : Nat) : Bool := decide (a < 5)
/-- A node of a segment. -/
def isNode (a : Nat) : Bool := decide (1 ≤ a ∧ a ≤ 16)
/-- A set of nodes, bit k for node k. -/
def isNodes (a : Nat) : Bool := decide (a < 2 ^ 17)
/-- A schedule mode. -/
def isMode (a : Nat) : Bool := decide (a < 8)
/-- A word of a mode set. -/
def isSetWord (a : Nat) : Bool := decide (a < 8)
/-- A cycle point. -/
def is8 (a : Nat) : Bool := decide (a < 8)
/-- A general register. -/
def isG (a : Nat) : Bool := decide (a < 32)
/-- An address register. -/
def isA (a : Nat) : Bool := decide (a < 8)
/-- An accumulator. -/
def isAcc (a : Nat) : Bool := decide (a < 4)
/-- A 5-bit field. -/
def is5 (a : Nat) : Bool := decide (a < 32)
/-- A 16-bit field. -/
def is16 (a : Nat) : Bool := decide (a < 2 ^ 16)
/-- A 12-bit field. -/
def is12 (a : Nat) : Bool := decide (a < 2 ^ 12)
/-- A 9-bit field. -/
def is9 (a : Nat) : Bool := decide (a < 2 ^ 9)
/-- An 8-bit field. -/
def is8b (a : Nat) : Bool := decide (a < 2 ^ 8)
/-- A 4-bit field. -/
def is4b (a : Nat) : Bool := decide (a < 2 ^ 4)
/-- A 64-bit field. -/
def is64 (a : Nat) : Bool := decide (a < 2 ^ 64)
/-- A bundle index. -/
def isBundle (a : Nat) : Bool := decide (a < 2 ^ 15)
/-- A quarantine cause (Table 4.8). -/
def isCause (a : Nat) : Bool := decide (1 ≤ a ∧ a < 16)
/-- A code from 0 to 2. -/
def isSense (a : Nat) : Bool := decide (a < 3)
/-- A speed of the management port: 0 no link, 1 to 3. -/
def isSpeed (a : Nat) : Bool := decide (a < 4)
/-- A mailbox of a direction. -/
def isMbx (a : Nat) : Bool := decide (a < 2)
/-- A sensor (R460). -/
def isSensor (a : Nat) : Bool := decide (a < 20)
/-- A PLL (R479). -/
def isPll (a : Nat) : Bool := decide (a < 5)
/-- A reset source (Table 19.4). -/
def isSource (a : Nat) : Bool := decide (a < 10)
/-- A supply of the links (R474). -/
def isSupply (a : Nat) : Bool := decide (a < 3)
/-- A result of the cable test. -/
def isCable (a : Nat) : Bool := decide (a < 4)
/-- A role (R342). -/
def isRole (a : Nat) : Bool := decide (a < 4)
/-- Bytes of an incomplete word. -/
def isTail (a : Nat) : Bool := decide (a < 4)
/-- A vector. -/
def isVec (a : Nat) : Bool := decide (a < 32)
/-- A PCIe speed code (R428). -/
def isGen (a : Nat) : Bool := decide (1 ≤ a ∧ a ≤ 3)
/-- Lanes of the PCIe link. -/
def isWidth (a : Nat) : Bool := decide (a = 1 ∨ a = 2)
/-- A lane of the standby link. -/
def isLane (a : Nat) : Bool := decide (a < 2)
/-- A source of a Kettle command. -/
def viaOk : Via → Bool
  | .mbx m => decide (m < 2)
  | .mgmt => true
  | .stream n => decide (n < 2)
/-- A Leaf, or the chip. -/
def leafOpt : Option Nat → Bool
  | some n => isLeaf n
  | none => true
/-- A memory request names a word of BAR0, and byte enables of 4 bits. -/
def pcieOk : PcieReq → Bool
  | .read a be => isWordAddr a && be.all (fun x => decide (x < 16))
  | .write a ws => isWordAddr a && ws.all (fun x => decide (x.1 < 16)) && decide (ws.length ≤ 64)

/-- The operands of a command lie in their ranges. -/
def wellFormed : Instr → Bool
  | .registerWrite _ a _ => isReg a
  | .unmappedAccess _ a _ => isWordAddr a
  | .rcRead _ a => isReg a
  | .pairLowRead _ a => isReg a
  | .pairLowWrite _ a _ => isReg a
  | .pairHighWrite _ a _ => isReg a
  | .rwcWrite _ a _ => isReg a
  | .commit _ _ => true
  | .pgCommitGo _ b => isPage b
  | .srst _ b _ => isPage b
  | .srstSettle b => isPage b
  | .pgLockWrite _ b _ => isPage b
  | .pgEvtSetWrite _ b _ => isPage b
  | .w1cWrite _ a _ => isReg a
  | .addendWrite _ _ => true
  | .slewWrite _ _ => true
  | .slewDone => true
  | .timeSet _ _ => true
  | .snap _ _ => true
  | .srcWrite _ _ => true
  | .mark _ => true
  | .wrap => true
  | .runStart _ mode => isMode mode
  | .runStop _ mode => isMode mode
  | .tickStop => true
  | .tickNoWrite _ _ => true
  | .modeSetWrite _ m j _ => isMode m && isSetWord j
  | .t0 => true
  | .openDoors g => isGroup g
  | .closeDoors g => isGroup g
  | .isolate g => isGroup g
  | .restore g => isGroup g
  | .seqReset g => isGroup g
  | .learnReset g => isGroup g
  | .cyclePoint k => is8 k
  | .gatherLaunch g => isSeg g
  | .gatherCopyReceive port _ _ => isPort port
  | .aCopyTimeout g => isSeg g
  | .gatherReturn g => isSeg g
  | .gatherMiss g => isSeg g
  | .cupAssign p => isPot p
  | .stealGrant => true
  | .cupEntry n _ => isLeaf n
  | .cupCompletion n => isLeaf n
  | .cupOverrun n => isLeaf n
  | .pourLaunch g => isSeg g
  | .pourClose => true
  | .trayPublish => true
  | .serviceSlotOpen g => isSeg g
  | .modeBeacon g => isSeg g
  | .modeAnnounce g => isSeg g
  | .mcDecision => true
  | .guardOpen => true
  | .idleUnitApply => true
  | .lctrlQuar _ n => isLeaf n
  | .quarIn n cause => isLeaf n && isCause cause
  | .lctrlRelease _ n => isLeaf n
  | .leafReleaseDone n => isLeaf n
  | .leafFillDone n => isLeaf n
  | .step _ n => isLeaf n
  | .dbgPcWrite _ n _ => isLeaf n
  | .dbgDataWrite _ n _ => isLeaf n
  | .debugWindowWrite _ a _ => isDebug a
  | .debugWindowRead _ a => isDebug a
  | .icMiss n bundle _ => isLeaf n && isBundle bundle
  | .pctrlQuar _ n _ => isPot n
  | .pctrlRelease _ n _ => isPot n
  | .potReleaseDone n => isPot n
  | .potFillDone p => isPot p
  | .slowCupStart n _ => isLeaf n
  | .add n gd gs gt _ => isLeaf n && isG gd && isG gs && isG gt
  | .sub n gd gs gt _ => isLeaf n && isG gd && isG gs && isG gt
  | .adds n gd gs gt _ => isLeaf n && isG gd && isG gs && isG gt
  | .subs n gd gs gt _ => isLeaf n && isG gd && isG gs && isG gt
  | .and n gd gs gt _ => isLeaf n && isG gd && isG gs && isG gt
  | .or n gd gs gt _ => isLeaf n && isG gd && isG gs && isG gt
  | .xor n gd gs gt _ => isLeaf n && isG gd && isG gs && isG gt
  | .sll n gd gs gt _ => isLeaf n && isG gd && isG gs && isG gt
  | .srl n gd gs gt _ => isLeaf n && isG gd && isG gs && isG gt
  | .sra n gd gs gt _ => isLeaf n && isG gd && isG gs && isG gt
  | .slli n gd gs sh _ => isLeaf n && isG gd && isG gs && is5 sh
  | .srli n gd gs sh _ => isLeaf n && isG gd && isG gs && is5 sh
  | .srai n gd gs sh _ => isLeaf n && isG gd && isG gs && is5 sh
  | .slt n gd gs gt _ => isLeaf n && isG gd && isG gs && isG gt
  | .sltu n gd gs gt _ => isLeaf n && isG gd && isG gs && isG gt
  | .abss n gd gs _ => isLeaf n && isG gd && isG gs
  | .negs n gd gs _ => isLeaf n && isG gd && isG gs
  | .nrm n gd gs _ => isLeaf n && isG gd && isG gs
  | .seln n gd gs gt _ => isLeaf n && isG gd && isG gs && isG gt
  | .selz n gd gs gt _ => isLeaf n && isG gd && isG gs && isG gt
  | .sllsi n gd gs sh _ => isLeaf n && isG gd && isG gs && is5 sh
  | .mfc n gd r _ => isLeaf n && isG gd && is5 r
  | .mtc n r gs _ => isLeaf n && is5 r && isG gs
  | .ga n ad gs _ => isLeaf n && isA ad && isG gs
  | .ag n gd as _ => isLeaf n && isG gd && isA as
  | .jr n gs _ => isLeaf n && isG gs
  | .addi n gd gs k _ => isLeaf n && isG gd && isG gs && is16 k
  | .addsi n gd gs k _ => isLeaf n && isG gd && isG gs && is16 k
  | .andi n gd gs k _ => isLeaf n && isG gd && isG gs && is16 k
  | .ori n gd gs k _ => isLeaf n && isG gd && isG gs && is16 k
  | .xori n gd gs k _ => isLeaf n && isG gd && isG gs && is16 k
  | .lui n gd k _ => isLeaf n && isG gd && is16 k
  | .slti n gd gs k _ => isLeaf n && isG gd && isG gs && is16 k
  | .sltui n gd gs k _ => isLeaf n && isG gd && isG gs && is16 k
  | .aadd n ad as k _ => isLeaf n && isA ad && isA as && is16 k
  | .ainc n ad k _ => isLeaf n && isA ad && is16 k
  | .ldb n g a _ k _ => isLeaf n && isG g && isA a && is12 k
  | .ldbu n g a _ k _ => isLeaf n && isG g && isA a && is12 k
  | .ldh n g a _ k _ => isLeaf n && isG g && isA a && is12 k
  | .ldhu n g a _ k _ => isLeaf n && isG g && isA a && is12 k
  | .ldw n g a _ k _ => isLeaf n && isG g && isA a && is12 k
  | .ldd n g a _ k _ => isLeaf n && isG g && isA a && is12 k
  | .ldc n g acc a _ k _ => isLeaf n && isG g && isAcc acc && isA a && is12 k
  | .stb n g a _ k _ => isLeaf n && isG g && isA a && is12 k
  | .sth n g a _ k _ => isLeaf n && isG g && isA a && is12 k
  | .stw n g a _ k _ => isLeaf n && isG g && isA a && is12 k
  | .std n g a _ k _ => isLeaf n && isG g && isA a && is12 k
  | .stsh n g a _ k sh _ => isLeaf n && isG g && isA a && is12 k && is5 sh
  | .b n target _ => isLeaf n && isBundle target
  | .jal n gd target _ => isLeaf n && isG gd && isBundle target
  | .beq n gs gt disp _ => isLeaf n && isG gs && isG gt && is16 disp
  | .bne n gs gt disp _ => isLeaf n && isG gs && isG gt && is16 disp
  | .blt n gs gt disp _ => isLeaf n && isG gs && isG gt && is16 disp
  | .bge n gs gt disp _ => isLeaf n && isG gs && isG gt && is16 disp
  | .bltu n gs gt disp _ => isLeaf n && isG gs && isG gt && is16 disp
  | .bgeu n gs gt disp _ => isLeaf n && isG gs && isG gt && is16 disp
  | .dbnz n gs disp _ => isLeaf n && isG gs && is16 disp
  | .endCup n _ => isLeaf n
  | .nop n _ => isLeaf n
  | .reservedOpcode n _ _ => isLeaf n
  | .mul n acc gs gt _ => isLeaf n && isAcc acc && isG gs && isG gt
  | .mac n acc gs gt _ => isLeaf n && isAcc acc && isG gs && isG gt
  | .mac2 n acc gp gq _ => isLeaf n && isAcc acc && isG gp && isG gq
  | .mac2s n acc gp gq _ => isLeaf n && isAcc acc && isG gp && isG gq
  | .clr n acc _ => isLeaf n && isAcc acc
  | .ext n gd acc _ => isLeaf n && isG gd && isAcc acc
  | .exts n gd acc sh _ => isLeaf n && isG gd && isAcc acc && is5 sh
  | .rdacc n gd acc part _ => isLeaf n && isG gd && isAcc acc && is5 part
  | .wracc n acc gs t _ => isLeaf n && isAcc acc && isG gs && is5 t
  | .wraccp n acc gp t _ => isLeaf n && isAcc acc && isG gp && is5 t
  | .smax n acc gs _ => isLeaf n && isAcc acc && isG gs
  | .smin n acc gs _ => isLeaf n && isAcc acc && isG gs
  | .max n gd gs gt _ => isLeaf n && isG gd && isG gs && isG gt
  | .min n gd gs gt _ => isLeaf n && isG gd && isG gs && isG gt
  | .clamp n gd gs gq _ => isLeaf n && isG gd && isG gs && isG gq
  | .satn n gd gs w _ => isLeaf n && isG gd && isG gs && is5 w
  | .fsClear _ a => isAxis a
  | .countedEdge n _ _ => isLf n
  | .errQuad n _ _ => isLf n
  | .comparePulseEnd n => isLf n
  | .idx n _ => isLf n
  | .zclrArm _ n _ => isLf n
  | .cmpWrite _ n _ => isLf n
  | .cmpEnable _ n _ => isLf n
  | .padTransition n _ => isPin n
  | .pulseAccept n => isPin n
  | .chatterAutoRelease n => isPin n
  | .chRelease _ b _ => isBank b
  | .stuck n => isPin n
  | .arm _ n _ => isCu n
  | .stop _ n _ => isCu n
  | .clear _ n _ => isCu n
  | .force _ n _ => isCu n
  | .rewind _ n _ => isCu n
  | .markWrite _ n _ => isCu n
  | .drainBlock => true
  | .caddyWindowWrite _ o _ => isCaddy o
  | .caddyFillDone => true
  | .dataLoWrite _ n _ => isSf n
  | .dataHiWrite _ n _ => isSf n
  | .dataLoRead _ n => isSf n
  | .flush _ n => isSf n
  | .resume _ n => isSf n
  | .streamNop n => isSf n
  | .streamWrite n => isSf n
  | .streamCommit n => isSf n
  | .waitTick n => isSf n
  | .waitTickDone n => isSf n
  | .streamReservedOp n => isSf n
  | .dmaEnable _ k _ => isDma k
  | .dmaDisable _ k _ => isDma k
  | .tailWrite _ k _ => isDma k
  | .dmaDescriptor k _ _ _ _ speed => isDma k && isSpeed speed
  | .short k => isDma k
  | .timedFrameLaunch => true
  | .mgFrameReceive _ _ _ => true
  | .ptpCtrlWrite _ _ => true
  | .trayHold _ => true
  | .trayHoldRelease _ => true
  | .mbxGo _ m len => isMbx m && is9 len
  | .mbxFullClear _ m => isMbx m
  | .info via => viaOk via
  | .logRead via => viaOk via
  | .imgBegin via _ => viaOk via
  | .imgData via _ => viaOk via
  | .imgEnd via _ => viaOk via
  | .setPending via _ => viaOk via
  | .clearTries via => viaOk via
  | .resetCommand via => viaOk via
  | .keyProg via => viaOk via
  | .ktlCtrlReset _ => true
  | .decafReq _ => true
  | .confirm _ => true
  | .good => true
  | .wdogStart => true
  | .kettleWatchdog => true
  | .trap => true
  | .sensorConversion k _ => isSensor k
  | .logPersist _ => true
  | .logStreamPush => true
  | .fromOldest _ _ => true
  | .rdSeqWrite _ _ => true
  | .rd3Read _ => true
  | .domReqWrite _ _ => true
  | .domainTransitionDone => true
  | .por => true
  | .borCore => true
  | .therm => true
  | .refclkLoss => true
  | .pllUnlock k => isPll k
  | .holdoverTimeout => true
  | .pllRelock k => isPll k
  | .pin => true
  | .chiprst => true
  | .resetRelease k => isSource k
  | .kettleResetRelease => true
  | .supplyLoss k _ => isSupply k
  | .up n => isPort n
  | .inserv n => isPort n
  | .down n _ => isPort n
  | .lqUpdate n _ _ _ _ => isPort n
  | .cableGo _ n => isPort n
  | .cableDone n result dist => isPort n && isCable result && is16 dist
  | .rxOther n _ _ => isPort n
  | .frameForward port _ => isPort port
  | .pourCompare port _ => isPort port
  | .serviceFrameReceive port _ => isPort port
  | .uplinkChunk port _ => isPort port
  | .desc port _ => isPort port
  | .npbAck port _ => isPort port
  | .nodeLost g k => isSeg g && isNode k
  | .mbxTxGo _ g _ => isSeg g
  | .mbxTxAbort _ g _ => isSeg g
  | .mbxRxFree _ g => isSeg g
  | .mbxTimeout g => isSeg g
  | .mbxRxTimeout g => isSeg g
  | .delayReqSend g => isSeg g
  | .delayReqReceive port _ => isPort port
  | .delayRespSend g => isSeg g
  | .delayRespReceive port _ => isPort port
  | .mcGo _ target ann => isMode target && is5 ann
  | .mcAbort _ target ann => isMode target && is5 ann
  | .listenEnd => true
  | .coldstartLaunch => true
  | .coldstartEnd => true
  | .coldstartReceive port _ => isPort port
  | .extendedListenEnd => true
  | .helloSend => true
  | .hello _ part rev id role lstate sstate => is16 part && is8b rev && is64 id && isRole role && is4b lstate && is4b sstate
  | .sealMsg _ _ _ => true
  | .tickMessage _ no role id _ => is64 no && isRole role && is64 id
  | .relay _ _ g _ srcB _ _ => isSeg g && isNodes srcB
  | .report _ g _ _ => isSeg g
  | .verdict a => isAxis a
  | .entry _ _ => true
  | .claim _ h recl => is64 h && isSense recl
  | .catchMsg _ _ => true
  | .catchSend _ => true
  | .standbyLinkDown => true
  | .takeover => true
  | .handover _ => true
  | .rejoin _ => true
  | .roleWrite _ _ => true
  | .deposed port _ => isPort port
  | .oldTenure port _ => isPort port
  | .pcieMemoryRequest r => pcieOk r
  | .hotReset _ => true
  | .qspiRead _ _ _ => true
  | .qread _ _ _ => true
  | .qspiWrite _ _ tail => isTail tail
  | .qwrite _ _ tail => isTail tail
  | .qspiStatus _ => true
  | .qspiId => true
  | .qspiErr _ _ _ => true
  | .eoi _ _ => true
  | .msixMessage v => isVec v
  | .leafPctlClr _ n _ => isLeaf n
  | .chipPctlClr _ _ => true
  | .freeze _ leaf _ => leafOpt leaf
  | .pcntLoRead _ leaf k => leafOpt leaf && is4b k
  | .bankSupplyChange b v => (isBank b || decide (b = 6)) && isSense v
  | .fastObservation => true
  | .pcieLinkUp speed width => isGen speed && isWidth width
  | .pcieConfigRequest _ => true
  | .slLaneLock lane _ => isLane lane
  | .ptpMessageSend _ speed _ => isSpeed speed
  | .kettleRestartDone => true

end Sys2Proof
end

