-- ==== Sys2Proof/Decode.lean ====
section
/-!
DEFINITION. The command that a word of the opcode table spells.  The table of this block gives no row any bits: its commands are
accesses and events, which no word encodes.
-/

namespace Sys2Proof

/-- No word spells a command: the table gives no row bits. -/
def decodeTableWord (_nbits _w : Nat) : Option Instr := none

end Sys2Proof
end

