-- ==== Sys2Proof/Machine/Crc.lean ====
section
/-!
DEFINITION. The checks of frames and digests: the CRC-16 of R266 and the CRC-32 of the state digests (R347, R355).
-/

namespace Sys2Proof.Machine

/-- One bit of the CRC-16: polynomial 0x1021, most significant bit first (R266). -/
def crc16Bit (r : Nat) : Nat := if 0x8000 ≤ r then Nat.xor ((2 * r) % 0x10000) 0x1021 else 2 * r

/-- HCHK of a list of bytes: initial value 0xFFFF, no reflection, no final inversion (R266). -/
def crc16 (l : List Byte) : Nat :=
  l.foldl (fun r b => Nat.repeat crc16Bit 8 (Nat.xor r (b.toNat * 256))) 0xFFFF

/-- One bit of the reflected CRC-32 of the IEEE 802.3 FCS. -/
def crc32Bit (r : Nat) : Nat := if r % 2 = 1 then Nat.xor (r / 2) 0xEDB88320 else r / 2

/-- The CRC-32 of a list of bytes, with the initial value and final inversion of the IEEE 802.3 FCS (R355). -/
def crc32 (l : List Byte) : Nat :=
  Nat.xor (l.foldl (fun r b => Nat.repeat crc32Bit 8 (Nat.xor r b.toNat)) 0xFFFFFFFF) 0xFFFFFFFF

end Sys2Proof.Machine
end

