-- ==== Sys2Proof/Config.lean ====
section
/-!
DEFINITION. The values the manual leaves open.  Each is a constant without a body: nothing can evaluate it, and a
statement about it holds whatever it is.  A fresh value for each use comes from applying it to the counter `free` of the
state, which the step that uses it advances.
-/

namespace Sys2Proof

/-- How a channel miscounts once an input edge rate above the limit of R212 has been met, two values at a time: whether the
count is off by one, and in which direction. -/
opaque Config.freeBit : Nat → Bool

/-- A word that the manual leaves open. -/
opaque Config.freeWord : Nat → Word

/-- The flags in the header of a message on the standby link, by its TYPE (R347 gives them no meaning). -/
opaque Config.linkFlags : Nat → Byte

/-- LEN of a message on the standby link, whose body's layout the manual does not give, by the message's sequence number (R347). -/
opaque Config.linkLen : Nat → Nat

/-- A transmitter test mode that the clause of IEEE 802.3 for a line speed defines (R335): the manual names the clauses and
does not give their lists.  Arguments: 100BASE-T1, and the code, 1 to 7. -/
opaque Config.testMode : Bool → Nat → Bool

/-- The torque that the obstruction check of an AUX axis takes, by axis and tick: R252 gives one for FULL and TORQUE axes only (log 76). -/
opaque Config.auxTorque : Nat → Nat → Word

/-- The forwarding delay that the chip measures for frames that arrive on, or leave by, a line port (Table 10.14), 16 bits, ns with 4
fraction bits: at 2·port for frames that arrive, at 2·port + 1 for frames that leave. -/
opaque Config.fwdDelay : Nat → BitVec 16

/-- KEY_HASH0: the SHA-256 of the image public key that OTP holds from manufacture (Table 18.2). -/
opaque Config.keyHash0 : Nat

/-- The boot ROM (Table 18.1), by offset: the manual does not give its contents. -/
opaque Config.bootRom : Nat → Byte

/-- What Kettle firmware makes of the bytes of a STEEP section (R453), whose form the manual does not give: words for every Pot, by offset,
program memory below 0x4_0000 and image data from there on. -/
opaque Config.steepLoad : List Byte → List (Nat × Word)

/-- The register load list that the bytes of a LINE section hold (R453), whose form the manual does not give: BAR0 offsets and words, in
order. -/
opaque Config.lineLoad : List Byte → List (Nat × Word)

end Sys2Proof
end

