-- ==== Sys2Proof/Machine/State.lean ====
section
/-!
DEFINITION. The state of the chip as plain data: every register, memory, queue, counter, mode and pin the manual gives
it, and the queue of commands that wait.  Registers stand at their BAR0 offsets in one sparse table whose default is the
reset value of the field tables; what the chip holds beside its registers stands in the structures below.
-/

namespace Sys2Proof.Machine

/-- Why the machine stops.  No rule of the manual stops the block: every ill access has an effect of its own (a
discard, a counter, an event), so the type is empty of reasons but one that no meaning raises. -/
inductive Fault where
  /-- Raised by nothing (safe). -/
  | none
  deriving DecidableEq, Repr

/-- Why a command has no meaning. -/
inductive Refusal where
  /-- Raised by an arm of `exec` whose command is not modelled yet, by name (safe). -/
  | notModelled (mnemonic : String)
  deriving DecidableEq, Repr

/-! ### Time base and tick generator -/

/-- The time base (R74): the four quantities, the rate correction in force, the nanoseconds still to slew, and the
instants of this clock period that the event rows report. -/
structure TimeBase where
  /-- TIME_SEC, 48 bits. -/
  sec : BitVec 48
  /-- TIME_NS, 0 to 999 999 999. -/
  ns : Nat
  /-- FAST_NS. -/
  fast : Word
  /-- FAST_NS without its wraps, since the core reset: the model's own, for intervals beyond a wrap. -/
  ext : Nat
  /-- Fraction of a nanosecond, in 2^-32 ns. -/
  frac : Word
  /-- ADDEND_NOW, signed (R76). -/
  addendNow : Int
  /-- SLEW_LEFT, signed (R77). -/
  slewLeft : Int
  /-- Clock periods since slew_due was last true (R75). -/
  slewPhase : Nat
  /-- The last clock period passed FAST_NS through its wrap and WRAP has not been reported (R79). -/
  wrapDue : Bool
  /-- SLEW_LEFT has just become 0 by working off and SLEW_DONE has not been reported (R77). -/
  slewDue : Bool
  /-- Clock periods counted since the core reset: the model's own, for the edges of R441. -/
  cycle : Nat
  /-- Nanoseconds since PD0 power-up, for the log's entries while the time base does not run (R462). -/
  up : Nat
  /-- TIME_SEC and TIME_NS that a SET beside a SNAP loads in the following clock period (R80). -/
  setDue : Option (BitVec 48 × Nat)
  /-- ADDEND_NOW is kept since the takeover that made this chip head, until ADDEND is written (R79). -/
  keep : Bool
  /-- The T0 of this clock period, if it has one, has been queued, and the other updates of the period have not (R52). -/
  half : Bool
  deriving DecidableEq, Repr

/-- The time base after core reset: all quantities 0 (R74). -/
def TimeBase.reset : TimeBase := ⟨0#48, 0, 0#32, 0, 0#32, 0, 0, 0, false, false, 0, 0, none, false, false⟩

/-- A pending change of schedule mode (R306). -/
structure ModeChange where
  target : Nat
  /-- N, the switch tick. -/
  tick : DWord
  /-- Announcement ticks. -/
  ann : Nat
  /-- The condition on CYCLE4 of R306 applies, so that D = N - 4 (R307). -/
  four : Bool
  /-- The decision has been taken and the change is confirmed. -/
  confirmed : Bool
  deriving DecidableEq, Repr

/-- The tick generator (R88 to R92). -/
structure TickGen where
  /-- RUNNING. -/
  running : Bool
  /-- FAST_NS of the first T0 of a pending start (R90). -/
  start : Option Word
  /-- START_MODE as it stood at the acceptance of the pending start. -/
  startMode : Nat
  /-- A stop is requested (R90). -/
  stopReq : Bool
  /-- MODE_NOW. -/
  mode : Nat
  /-- The TICK_NO pair. -/
  tickNo : DWord
  /-- T0_FAST. -/
  t0Fast : Word
  /-- Tick number of the first tick of the mode in force (R299). -/
  modeSince : DWord
  /-- Cycle points armed at the T0 of this tick that have not fired (R92). -/
  cpArmed : List Nat
  /-- The pending change of mode. -/
  change : Option ModeChange
  /-- Ticks left of LISTEN or COLDSTART (R320, R321). -/
  lineLeft : Nat
  /-- The Tray image of this tick is published. -/
  published : Bool
  /-- POUR_CLOSE of this tick has passed. -/
  poured : Bool
  /-- GUARD_OPEN of this tick has passed. -/
  guarded : Bool
  /-- HB, toggled at each T0 (R481). -/
  hb : Bool
  /-- The COLDSTART frames of this tick have been launched (R321). -/
  coldSent : Bool
  /-- Nanoseconds since a valid head frame reached a port, for the extended LISTEN of R322. -/
  quietNs : Nat
  /-- Clock period of the last T0: the model's own, for instants that are judged at a T0 (R333). -/
  t0Cycle : Nat
  deriving DecidableEq, Repr

def TickGen.reset : TickGen :=
  ⟨false, none, 0, false, 0, 0#64, 0#32, 0#64, [], none, 0, false, false, false, false, false, 0, 0⟩

/-! ### Access ports, staging and commit -/

/-- What a port holds for the pairs of R51 and what its last read returned. -/
structure PortState where
  /-- The held low word of a writable pair: the address of the low word and the value. -/
  held : Option (Nat × Word)
  /-- The held low words of the data pairs of the stream FIFOs, by FIFO (R387). -/
  data : Tab (Option Word)
  /-- Latched high words, by the address of the high word, until they are read. -/
  shadow : Tab (Option Word)
  /-- The value its last read returned. -/
  rdata : Word
  deriving DecidableEq, Repr

def PortState.reset : PortState := ⟨none, [], [], 0#32⟩

/-- A captured unit that waits for its T0. -/
structure CUnit where
  kind : UnitKind
  /-- It comes from the head's journal (R70). -/
  journal : Bool
  /-- T0s until it is due: 1 is the next T0; 0 is a unit that applies without a tick (R72). -/
  due : Nat
  /-- Order of acceptance, and its instant in FAST_NS (R71, R278). -/
  seq : Nat
  inst : Word
  /-- The captured writes, one for each register, in ascending address. -/
  writes : Tab (Option Word)
  deriving DecidableEq, Repr

/-- Staging slots and captured units (R63 to R72). -/
structure Commit where
  staged : Tab (Option Word)
  units : List CUnit
  /-- Acceptances so far. -/
  seq : Nat
  deriving DecidableEq, Repr

def Commit.reset : Commit := ⟨[], [], 0⟩

/-! ### Leaves and Pots -/

/-- What a result of a Leaf instruction is written to. -/
inductive Item where
  | g (r : Nat)
  | a (r : Nat)
  | amod (r : Nat)
  /-- An accumulator as the addend of a further accumulation (R147). -/
  | accAdd (r : Nat)
  /-- An accumulator as `ext`, `exts` and `rdacc` read it (R147). -/
  | accRead (r : Nat)
  | tag (r : Nat)
  /-- FLG bits to clear (R143). -/
  | flagClr
  /-- FLG bits to set (R113). -/
  | flagSet
  deriving DecidableEq, Repr

/-- A result in flight (R101): it becomes visible at bundle `at`. -/
structure Flight where
  /-- Issued in bank B (R119). -/
  bankB : Bool
  item : Item
  val : Nat
  /-- Index of the first bundle that reads the new value. -/
  vis : Nat
  /-- Issued by slot Y (R103). -/
  slotY : Bool
  deriving DecidableEq, Repr

/-- One bank of registers (Table 4.2).  Bank F also holds the unbanked items. -/
structure Bank where
  g : Tab Word
  a : Tab Word
  amod : Tab Word
  accAdd : Tab Acc
  accRead : Tab Acc
  tag : Tab Word
  flg : Word
  pc : Nat
  deriving DecidableEq, Repr

/-- A cleared bank: every item 0 (R106). -/
def Bank.zero : Bank := ⟨[], [], [], [], [], [], 0#32, 0⟩

/-- The three orders in which a Pot serves its queue (R157). -/
inductive CupKind where
  | cross | rerun | plain
  deriving DecidableEq, Repr

/-- A cup: the work of one axis for one tick (R156), with the inputs of Table 6.4. -/
structure Cup where
  axis : Nat
  seg : Nat
  home : Nat
  /-- Pot of its state block: the home Pot, or the cross slot's for a cross-steep (R354). -/
  slot : Nat
  /-- 0 FULL, 1 TORQUE, 2 AUX. -/
  mode : Nat
  tick : DWord
  kind : CupKind
  /-- FAST_NS of its start for R32: the Gather return. -/
  start : Word
  /-- FAST_NS of the T0 of its tick or segment cycle. -/
  t0 : Word
  /-- Offset of the on-time cut from that T0 (R26). -/
  cut : Nat
  /-- The inputs were taken from the B copy. -/
  copyB : Bool
  hdr : List Byte
  record : List Byte
  sec : List Byte
  /-- Order in which it was appended. -/
  seq : Nat
  deriving DecidableEq, Repr

/-- A cup on a Leaf. -/
structure CupRun where
  cup : Cup
  /-- Pot from whose queue it was taken. -/
  fromPot : Nat
  /-- The code at its entry is the standard steep image, whose arithmetic the control chapters give. -/
  std : Bool
  /-- FAST_NS at its entry into the Leaf. -/
  entered : Word
  /-- The cup-end instruction has issued (R120). -/
  ended : Bool
  deriving DecidableEq, Repr

/-- A slow cup (R169). -/
structure SlowCup where
  kind : Nat
  home : Nat
  param : Word
  /-- Leaf addresses of the areas in the Pot's image data. -/
  staging : Nat
  published : Nat
  len : Nat
  due : DWord
  released : DWord
  /-- `STATE_GEN` of each group at the release, for the services that check it (R246). -/
  gens : List Nat
  /-- Its tick was due before it had completed (R172). -/
  late : Bool
  /-- Axes whose entries of the input frame wait for their cups from earlier ticks (R236). -/
  owed : List Nat
  /-- The code that ran it is the standard image's, whose services the motion chapter gives. -/
  std : Bool
  /-- On a standby its publication was made at the T0 that the SEAL named, before it had completed (R172). -/
  taken : Bool
  deriving DecidableEq, Repr

/-- A Leaf. -/
structure Leaf where
  /-- Table 4.6: 0 OFF, 1 HALT, 2 RUN, 3 QUAR. -/
  state : Nat
  /-- Table 4.8. -/
  qcause : Nat
  /-- EN in force is 0 and the Leaf halts when its cup completes (R130). -/
  halting : Bool
  /-- A host quarantine waits for the next T0, or after it for an instant with no cup, with the cause it will record. -/
  quarReq : Option Nat
  /-- The T0 that the quarantine request waits for has come. -/
  quarArmed : Bool
  /-- A fill or a clear is in progress (R125, R132). -/
  filling : Bool
  f : Bank
  b : Bank
  /-- Bank B is selected. -/
  bankB : Bool
  cup : Option CupRun
  /-- A cup assigned and not yet entered (R158). -/
  assigned : Option CupRun
  slow : Option SlowCup
  /-- Its slow cup is the standard image's. -/
  slowStd : Bool
  /-- Bundles issued since the entry. -/
  bx : Nat
  /-- Results in flight. -/
  flight : List Flight
  /-- Results of the bundle now issuing. -/
  cur : List Flight
  /-- A branch issued in the bundle now issuing: the target if taken. -/
  branch : Option (Option Nat)
  /-- `end` issued in the bundle now issuing (R146). -/
  endReq : Bool
  /-- Delay bundles still to issue (R104). -/
  delay : Nat
  /-- Target of a taken branch whose delay bundles are still to issue. -/
  redir : Option Nat
  /-- Cup write buffer: bytes by debug-window address (R124). -/
  wbuf : Tab (Option Byte)
  /-- Cup port contents by offset (Table 6.4). -/
  port : Tab Byte
  /-- Clock period of the last entry into RUN (c2). -/
  runSince : Nat
  /-- Slot X, and slot Y, of the bundle now issuing has its instruction (R100). -/
  usedX : Bool
  usedY : Bool
  /-- A bundle has issued in this clock period (R445). -/
  issued : Bool
  /-- Why no bundle issues, by the number of its stall event in Table 17.5: 5 a Pot memory access, 6 an instruction-cache miss, 7 cup entry
  or a bank swap, 8 drain and buffer release at cup end (R445). -/
  stall : Nat
  /-- Entries of the write buffer that the release in progress has written (R120). -/
  rel : Nat
  /-- The instruction cache: for each of its 64 sets the lines it holds, by byte address, the one used last first, at most 4 (R126). -/
  icache : Tab (List Nat)
  deriving DecidableEq, Repr

/-- A Leaf after reset: its Pot domain is off (R130). -/
def Leaf.reset : Leaf :=
  ⟨0, 0, false, none, false, false, Bank.zero, Bank.zero, false, none, none, none, false, 0, [], [], none, false, 0, none, [], [], 0, false, false,
   false, 7, 0, []⟩

/-- A Pot. -/
structure Pot where
  /-- Table 6.7: 0 OFF, 1 ON, 2 QUAR. -/
  state : Nat
  /-- Table 6.8. -/
  qcause : Nat
  filling : Bool
  queue : List Cup
  slowQ : List SlowCup
  /-- Completed slow cups that wait for publication (R172). -/
  slowDone : List SlowCup
  deriving DecidableEq, Repr

def Pot.reset : Pot := ⟨0, 0, false, [], [], []⟩
/-! ### The line -/

/-- A returned Gather copy (R21). -/
structure GCopy where
  ok : Bool
  payload : List Byte
  /-- FAST_NS of the end of its FCS. -/
  fin : Word
  deriving DecidableEq, Repr

/-- What the head keeps for a node of a segment. -/
structure NodeSt where
  /-- Its parameter block is acknowledged: it is admitted from the next T0 (R324). -/
  admitNext : Bool
  /-- Its descriptor has passed the checks: the parameter block is sent next. -/
  descOk : Bool
  /-- The parameter block last sent. -/
  npb : List Byte
  /-- A DESC_REQ is owed to a node that is REFUSED or DRIFT, or admitted with unknown paths after a takeover (R305, R325,
  R358). -/
  ask : Bool
  /-- That DESC_REQ has left and is not answered yet. -/
  asked : Bool
  /-- Consecutive ticks in which it was missing (R326). -/
  missRun : Nat
  /-- It was missing in its segment's last tick. -/
  missPrev : Bool
  /-- Node header of its last taken record. -/
  hdr : List Byte
  /-- Next downlink SEQ (R285). -/
  dnSeq : Nat
  /-- UP_ACK (R285). -/
  upAck : Nat
  /-- Run of violation slots (R304). -/
  viol : Nat
  /-- Path samples of the DESC by port, for a port that carries no NPB_ACK (R324). -/
  descA : Option Nat
  descB : Option Nat
  /-- A new head takes the node's paths from its next DESC (R358). -/
  relearn : Bool
  deriving DecidableEq, Repr

def NodeSt.reset : NodeSt := ⟨false, false, [], false, false, 0, false, [], 0, 1, 0, none, none, false⟩

/-- A frame judged in the Service phase (R302). -/
structure Judged where
  node : Nat
  portB : Bool
  /-- Service slot of the referred stamp, if the node owns it. -/
  slot : Option Nat
  ok : Bool
  /-- The path sample of a frame on a port whose path is not known (R301), with its start-of-frame stamp. -/
  sample : Option (Nat × Word)
  deriving DecidableEq, Repr

/-- A DELAY REQ received in the first tick of a round (R314). -/
structure DelayReq where
  portB : Bool
  dseq : Nat
  t1 : Nat
  /-- Receive stamp in line nanoseconds. -/
  t2 : Nat
  deriving DecidableEq, Repr

/-- The host mailbox of a segment (R286). -/
structure Mbx where
  /-- Bytes acknowledged are in MBX_TX_STAT; length of the chunk that waits for its acknowledgement, 0 if none was sent. -/
  chunk : Nat
  /-- TICK_NO of the chunk's first transmission. -/
  firstTx : DWord
  /-- An uplink message is in progress: its node, total and bytes so far. -/
  rxNode : Nat
  rxTotal : Nat
  rxGot : Nat
  /-- TICK_NO of its last chunk. -/
  rxTick : DWord
  deriving DecidableEq, Repr

def Mbx.reset : Mbx := ⟨0, 0#64, 0, 0, 0, 0#64⟩

/-- What the chip keeps for a segment beside its page. -/
structure Seg where
  nodes : Tab NodeSt
  /-- The segment has begun its tick or segment cycle (R311). -/
  active : Bool
  /-- TICK_NO and T0_FAST of the tick, or of the first tick of the segment cycle. -/
  tick : DWord
  t0 : Word
  /-- The Gather has been launched, and it carries MCA (R307). -/
  launched : Bool
  mca : Bool
  copyA : Option GCopy
  copyB : Option GCopy
  /-- FAST_NS at which the A copy became known unusable (R22). -/
  aBad : Option Word
  returned : Bool
  missed : Bool
  poured : Bool
  /-- Offsets of the Gather return and of the Pour launch from T0. -/
  retOfs : Nat
  pourOfs : Nat
  /-- A record came from the B copy; records came from both copies. -/
  fromB : Bool
  split : Bool
  /-- The Pour carried a HOLD record. -/
  held : Bool
  /-- Axes whose cup of this tick has not completed. -/
  waiting : List Nat
  /-- Some cup of this tick is late. -/
  late : Bool
  mbx : Mbx
  judged : List Judged
  /-- The Service phase begun last: FAST_NS of its first slot, the length of a slot, and the owner of each slot, 0 for
  none (R297, R298). -/
  svcAt : Word
  svcLen : Nat
  svcOwners : List Nat
  /-- Slots of this tick or segment cycle that have opened. -/
  slots : Nat
  /-- The MODE frame of this tick or segment cycle has been dealt with. -/
  modeSent : Bool
  /-- Node and port of each DESC or NPB_ACK taken in this Service phase (R324). -/
  cfgSeen : List (Nat × Bool)
  /-- DELAY REQs to answer; transmit stamps of the own REQs by port, and the ports that have had their RESP. -/
  dlyReqs : List DelayReq
  dlySentA : Option Nat
  dlySentB : Option Nat
  dlyGotA : Bool
  dlyGotB : Bool
  /-- A delay round is in progress (R314). -/
  dlyOn : Bool
  /-- The inputs that the segment took last came from both copies (R293). -/
  splitLast : Bool
  /-- On a standby: the samples of the T0 that began the tick or cycle have come (R216), and the payload of the first valid Pour (R355). -/
  sampled : Bool
  pourSeen : Option (List Byte)
  deriving DecidableEq, Repr

def Seg.reset : Seg :=
  ⟨[], false, 0#64, 0#32, false, false, none, none, none, false, false, false, 0, 0, false, false, false, [], false, Mbx.reset,
   [], 0#32, 0, [], 0, false, [], [], none, none, false, false, false, false, false, none⟩

/-- What a published area held before a publication: the tick at whose T0 it was made, the address and the bytes (R173). -/
structure PubOld where
  tick : DWord
  addr : Nat
  bytes : List Byte
  deriving DecidableEq, Repr

/-- What the chip keeps for an axis beside its page. -/
structure AxisSt where
  /-- Output of the on-time cup of this tick: Pour record image, node-header contribution, completion value (R161). -/
  img : Option (List Byte × Nat × Nat)
  /-- Last record sent with HOLD = 0 since the chip became head and since the axis was enabled, with its completion value
  (R28). -/
  lastCmd : List Byte
  lastComp : Nat
  /-- Record as last sent, with HOLD. -/
  sent : List Byte
  hold : Bool
  /-- Consecutive HOLD records (R30). -/
  holdRun : Nat
  /-- Last Gather axis record taken, and whether the last inputs are stale or from the B copy. -/
  record : List Byte
  stale : Bool
  fromB : Bool
  /-- Tray outputs of the last on-time cup, and its completion offset. -/
  outs : List Byte
  compOfs : Nat
  /-- The configuration half is to be written, now or at the end of a late cup (R153). -/
  cfgDue : Bool
  /-- Leaf that ran the last completed cup, and its state digest (R355). -/
  leaf : Nat
  digest : Nat
  /-- TICK_NO of that cup, plus one; 0 where there was none. -/
  digestAt : Nat
  /-- The instant at which FS was last set, in FAST_NS without wraps, and on a standby the number of the RELAY that set it, if one did
  (R278). -/
  fsAt : Nat
  fsMsg : Option Nat
  /-- COEF_GEN, and for each byte whether a cup has entered since it last changed (R194). -/
  coefGen : List Nat
  coefNew : List Bool
  /-- CLR_MASK, CLR_GEN, and whether a cup has entered since CLR_GEN last changed (R193). -/
  clrMask : Word
  clrGen : Nat
  clrNew : Bool
  /-- REZERO_GEN, and whether it is to be incremented at this T0 (R224). -/
  rezGen : Nat
  rezDue : Bool
  /-- It is orphaned by SMEM_UE of its home Pot, until a commit of PLACE (R179). -/
  lost : Bool
  /-- Its secondary sample at the T0 of its segment's tick or cycle, if valid (R216). -/
  sec : List Byte
  /-- Torque of the axis's last cup, and of the one before the cup that the prior copy was made for (R252, R354). -/
  prevTq : Int
  priorTq : Int
  deriving DecidableEq, Repr

def AxisSt.reset : AxisSt :=
  ⟨none, [], 0, [], false, 0, [], false, false, [], 0, false, 0, 0, 0, 0, none, [0, 0, 0, 0], [false, false, false, false], 0#32, 0, false, 0,
   false, false, [], 0, 0⟩

/-- The Tray (R422): TRAY_GEN of the latest image, which of the three buffers are front and latest, and what an image holds of the T0
of its tick that moves on after it (R426). -/
structure Tray where
  gen : Word
  front : Option Nat
  latest : Option Nat
  /-- Levels of the event lines, one bit each. -/
  lines : Nat
  /-- Levels of the summary lines, one bit for each group. -/
  summary : Nat
  /-- `CHIP.COMMIT_OK` after the T0. -/
  commitOk : Word
  /-- IDX_COUNT and HITS of the local feedback channels. -/
  lfAt : List (Word × Word)
  deriving DecidableEq, Repr

def Tray.reset : Tray := ⟨0#32, none, none, 0, 0, 0#32, []⟩

/-- An entry of the Kettle's log (R462). -/
structure LogEnt where
  seq : Word
  sec : Word
  ns : Nat
  sev : Nat
  noTime : Bool
  src : Nat
  code : Nat
  arg : Nat
  deriving DecidableEq, Repr

/-- A line port (Table 12.2).  Its configuration and counters stand on its page. -/
structure Lp where
  /-- PSTATE. -/
  state : Nat
  /-- Clock period at which the link came up, while it is up (R333). -/
  upAt : Nat
  /-- LQ (R336). -/
  lq : Nat
  /-- FAST_NS without wraps at which the last frame sent has ended with its inter-frame gap (R95). -/
  txEnd : Nat
  deriving DecidableEq, Repr

def Lp.reset : Lp := ⟨0, 0, 0, 0⟩

/-! ### Door groups -/

/-- A request record (R247). -/
structure Req where
  gen : Nat
  valid : Bool
  hold : Bool
  table : Nat
  target : Word
  deriving DecidableEq, Repr

def Req.none : Req := ⟨0, false, false, 0, 0#32⟩

/-- What the SEQ block and the sequencer keep for a group beside its page. -/
structure Grp where
  /-- The command slot: a command that no run has seen (R244). -/
  slot : Option Nat
  /-- The run in progress. -/
  run : Option SeqRun
  /-- Lock demand: true is POS_B. -/
  demand : Option Bool
  /-- The demand of the present state is inverted for one run (Table 9.5). -/
  pulse : Bool
  /-- Requests last accepted, by member (R247). -/
  reqs : Tab Req
  /-- OPEN was entered from REOPENING (DWELL). -/
  viaReopen : Bool
  unTries : Nat
  lkTries : Nat
  /-- A cycle runs (R255), and whether it passed through OBSTRUCTED or FAULT, or made a retry. -/
  inCycle : Bool
  obs : Bool
  fault : Bool
  retry : Bool
  /-- The cycle record: the first 0x240 bytes of Table 9.6. -/
  crec : Tab Byte
  /-- First OPEN and first CLOSING of the cycle are recorded. -/
  seenOpen : Bool
  seenClosing : Bool
  /-- Signature copies that wait for a running cup: axis, number of the LEAF, opening (R254). -/
  sigOwed : List (Nat × Nat × Bool)
  /-- Cycle records whose kind 2 release waits (R233), and a kind 3 release that waits. -/
  k2 : List (Tab Byte)
  k3 : Bool
  /-- Members' configuration halves are to be written at the next T0 (R257). -/
  dirty : Bool
  deriving DecidableEq, Repr

def Grp.reset : Grp :=
  ⟨none, none, none, false, [], false, 0, 0, false, false, false, false, [], false, false, [], [], false, false⟩

/-! ### Event pins, local feedback, capture units and stream FIFOs -/

/-- An edge as the capture units judge it (R376): its stamp, the same without wraps, and for each unit the number of the observation whose
window [previous observation, this observation) holds it. -/
structure Edge where
  stamp : Word
  ext : Nat
  obs : List Nat
  deriving DecidableEq, Repr

/-- An event pin's Strainer (R398 to R400).  PAD, FILT, CHAT and STUCK stand in EP_STAT. -/
structure Pin where
  /-- Present accepted level. -/
  acc : Bool
  /-- A level that differs from it has begun with this edge. -/
  begun : Option Edge
  /-- EP_CFG and STR0 in force at that edge (R402). -/
  cfg : Word
  str : Word
  /-- Stamps, without wraps, of accepted transitions within the longest chatter window, latest first. -/
  recent : List Nat
  /-- Stamp of the activation in force, without wraps (R400). -/
  actAt : Nat
  /-- STUCK has been reported for it. -/
  told : Bool
  deriving DecidableEq, Repr

def Pin.reset : Pin := ⟨false, none, 0#32, 0#32, [], 0, false⟩

/-- A transition at the inputs of a local feedback channel that has not been taken yet (R212). -/
structure LfPend where
  /-- The input: 0 A, 1 B, 2 Z.  From 3 on, both A and B have changed within 4 ns: 3 and the sum of 1 for a new level of A and 2 for one of
  B. -/
  inp : Nat
  e : Edge
  /-- LF_CFG and EN in force at that edge. -/
  cfg : Word
  en : Bool
  deriving DecidableEq, Repr

/-- A sample of a T0 whose edges have not all been taken (R209): T0 without wraps, the number and the PERIOD of its tick, EN in force from it
on. -/
structure LfOwed where
  at' : Nat
  tick : Nat
  period : Nat
  en : Bool
  deriving DecidableEq, Repr

/-- A local feedback channel (R211 to R227). -/
structure Lf where
  /-- Levels of A, B and Z as far as transitions have been taken. -/
  a : Bool
  b : Bool
  z : Bool
  /-- Transitions at the balls that have not been taken, in the order of their stamps. -/
  pend : List LfPend
  /-- Direction of the last counted edge: true is down. -/
  down : Bool
  /-- Stamp of the last counted edge, and the same without wraps. -/
  stamp : Word
  edgeAt : Option Nat
  /-- Stamps without wraps of the last transitions of A and of B (R212). -/
  atA : Option Nat
  atB : Option Nat
  /-- The last LOAD, without wraps, and the count that the edges stamped before it have made (R214). -/
  loaded : Option (Nat × Word)
  /-- CMP and EN of the compare unit before its latest writes, with the instants of those, oldest first (R227). -/
  cmpOld : List (Nat × Word × Bool)
  /-- The instant, without wraps, at which ZCLR_ARM was last written (R213). -/
  armAt : Nat
  /-- The sample of the latest T0, as long as edges stamped before it have not been taken (R209). -/
  owed : Option LfOwed
  /-- CLR, IDX and ERR of the present interval. -/
  clr : Bool
  idx : Bool
  err : Bool
  /-- EN in force was 1 throughout the present interval. -/
  enAll : Bool
  /-- The latest sample was VALID, and one has been latched since the start. -/
  valid : Bool
  est : List Nat
  /-- Clock period at which the compare pulse ends. -/
  pulseEnd : Option Nat
  deriving DecidableEq, Repr

def Lf.reset : Lf :=
  ⟨false, false, false, [], false, 0#32, none, none, none, none, [], 0, none, false, false, false, false, false, [], none⟩

/-- A capture unit (R373 to R382). -/
structure Cu where
  /-- Table 14.3: 0 IDLE, 1 ARMED, 2 TRIGGERED, 3 RUN, 4 DONE. -/
  state : Nat
  /-- The acceptance instant of its ARM, in FAST_NS without wraps. -/
  armAt : Nat
  /-- First page and pages of its allocation, as its ARM took them (R370). -/
  alloc : Nat × Nat
  /-- Observations made since ARM, and the clock period of the last, plus one. -/
  obs : Nat
  obsAt : Nat
  /-- Records written since ARM. -/
  recs : Nat
  /-- Greatest and least value of the interval. -/
  hi : Int
  lo : Int
  primedR : Bool
  primedF : Bool
  /-- The source line was high in the window that is open and has fallen; the clock period from which it has been high in that window. -/
  seen : Bool
  rose : Option Nat
  deriving DecidableEq, Repr

def Cu.reset : Cu := ⟨0, 0, (0, 0), 0, 0, 0, 0, 0, false, false, false, none⟩

/-- A stream FIFO (R385 to R393). -/
structure Sf where
  /-- Words with the error of each: 0 none, 1 single-bit, 2 double-bit. -/
  fifo : List (DWord × Nat)
  /-- The last word popped. -/
  last : DWord
  /-- Tick awaited by WAIT_TICK. -/
  wait : Option Word
  deriving DecidableEq, Repr

def Sf.reset : Sf := ⟨[], 0#64, none⟩

/-! ### Standby -/

/-- A cross-steep in progress (R356). -/
structure Xs where
  axis : Nat
  tick : DWord
  /-- Leaf of the disputed cup. -/
  leaf : Nat
  headFields : List Byte
  headDigest : Nat
  stbyFields : List Byte
  stbyDigest : Nat
  /-- Its compared fields and digest, once it has completed. -/
  result : Option (List Byte × Nat)
  deriving DecidableEq, Repr

/-- A part of a publication that catch-up has brought: Pot, kind, parameter word, offset in its area, bytes, and the sequencer runs it gives results for. -/
structure CatchPub where
  pot : Nat
  kind : Nat
  param : Nat
  ofs : Nat
  bytes : List Byte
  runs : List (Nat × SeqRun)
  deriving DecidableEq, Repr

/-- What the chip keeps for the standby pair beside the STBY page. -/
structure Stby where
  /-- SSTATE: 0 NONE, 1 CATCHUP, 2 IN_STEP, 3 LISTEN_ONLY. -/
  sstate : Nat
  peerSstate : Nat
  refuse : Nat
  paired : Bool
  sl0 : Bool
  sl1 : Bool
  pos2 : Bool
  /-- The position has been learnt (R343). -/
  posKnown : Bool
  /-- The last delay round found this chip within 50 ns of the head (R352). -/
  aligned : Bool
  /-- A TICK message, or a valid Gather of the head's tenure, has been seen in this tick (R357). -/
  tickSeen : Bool
  gatherSeen : Bool
  /-- The SEAL of the tick before the last has not come either way (R351, R360). -/
  unsealed : Bool
  /-- Sequence numbers of messages received lately, latest first (R347). -/
  rxSeqs : List Nat
  /-- Consecutive silent ticks. -/
  silentRun : Nat
  /-- The journal of the tick: entries received, and the SEAL that closed them. -/
  journal : List Entry
  sealed : Option Seal
  /-- The standby leaves step at its next T0 (R351). -/
  oosNext : Bool
  /-- It enters LISTEN_ONLY at its next T0 (R356). -/
  listenNext : Bool
  /-- On the head: entries of the tick so far, its count, and, on either chip, the groups refused at the last T0. -/
  sent : Nat
  refused : Nat
  /-- A handover is requested; the tick of the handover that a SEAL has announced (R366). -/
  handReq : Bool
  handover : Option Nat
  /-- The handover goes to LISTEN_ONLY, because of this fault (R361). -/
  fault : Nat
  /-- A received CLAIM: handover tick and RECLAIM setting (R367). -/
  claim : Option (Nat × Nat)
  /-- A deposition that takes effect at the next T0, and its instant. -/
  deposed : Bool
  deposedAt : Word
  /-- First tick after the arming window of a takeover (R358). -/
  armUntil : DWord
  xs : List Xs
  /-- Mismatches that have started a cross-steep in this tick. -/
  xsCount : Nat
  /-- Catch-up: axes installed, publications to install, the end of the image received, first tick of the SLOW phase. -/
  caught : List Nat
  catchPubs : List CatchPub
  /-- Slow cups released before S, by Pot and kind, whose publication the SLOW phase waits for (Table 13.3). -/
  slowWait : List (Nat × Nat)
  /-- State blocks received in the AXES phase, to be installed at the next T0. -/
  catchBlocks : List (Nat × List Byte)
  imageEnd : Bool
  /-- The head's role and unit ID from TICK and HELLO. -/
  headRole : Nat
  /-- Segments whose comparison has been made in this tick, and the mismatched axes with the standby's fields. -/
  compared : List Nat
  mism : List (Nat × List Byte)
  /-- Segments whose RELAY has been taken in this tick. -/
  relayed : List Nat
  /-- Nanoseconds since the last valid message (R348). -/
  quietNs : Nat
  /-- The highest tenure of a valid GATHER, POUR, SERVICE, CONFIG or MODE frame received since reset (R322). -/
  seen : Nat
  /-- P of the alignment: arrival less TXT of the first Gather copy on the sync port after a round, in ns (R345). -/
  syncP : Option Nat
  /-- On the head: state blocks given to the standby in this tick, and the first axis not yet given (R352). -/
  gaveN : Nat
  gaveTo : Nat
  /-- On the head of a standby in catch-up: registers and groups as the latest T0 left them, and the registers as the T0 of the image's first tick
  left them (R352). -/
  atT0 : Option (Tab Word × Tab Grp)
  image : Option (Tab Word)
  /-- On the head: the journal of this tick so far; the TICK message of this tick waits for the local feedback samples (R209, R347). -/
  own : List Entry
  tickOwed : Bool
  /-- On the standby: registers that the T0s of the IMAGE phase have changed; by Pot and kind, the tick after the one at whose T0 a SEAL last
  had a publication made (R352). -/
  changed : List Nat
  pubAt : Tab Nat
  deriving DecidableEq, Repr

def Stby.reset : Stby :=
  ⟨0, 0, 0, false, false, false, false, false, false, false, false, false, [], 0, [], none, false, false, 0, 0, false, none, 0, none, false, 0#32, 0#64, [], 0,
   [], [], [], [], false, 0, [], [], [], 0, 0, none, 0, 0, none, none, [], false, [], []⟩
/-! ### Reset, domains, clocks, and the host and management ports -/

/-- What holds the chip in reset, and what its domains, PLLs and supplies are about (R472 to R482). -/
structure Rst where
  /-- Reset sources asserted, by the codes of Table 19.4. -/
  held : List Nat
  /-- Source of the highest priority asserted since the reset began. -/
  worst : Nat
  /-- The Kettle is out of reset: the level of nPOR_OUT (R482). -/
  kettleUp : Bool
  /-- Nanoseconds since PD0 power-up at the release of the reset, and of the Kettle's. -/
  releasedAt : Nat
  kettleAt : Nat
  /-- PLLs without lock, and the instant at which holdover began (R479). -/
  unlocked : List Nat
  holdAt : Nat
  /-- Supplies that are missing: 0 VDD_SERDES, 1 VDD_PHY, 2 VDDA_PHY (R474). -/
  lost : List Nat
  /-- The domain in transition, and whether it powers up (R473). -/
  ramp : Option (Nat × Bool)
  /-- Domains whose ramp is complete and whose fill is not. -/
  filling : List Nat
  /-- The reset in progress holds PD1 too: a source other than the thermal comparator has asserted since it began (Table 19.4). -/
  pd1 : Bool
  deriving DecidableEq, Repr

/-- The release of a power-on reset: the Kettle is still held, and PLL0 to PLL2 have not locked yet (R477, Table 19.5). -/
def Rst.reset : Rst := ⟨[], 0, false, 0, 0, [0, 1, 2], 0, [], none, [], false⟩

/-- The PCIe function (R410, R412, R435). -/
structure Pcie where
  msixEn : Bool
  funcMask : Bool
  /-- The function is in D3hot. -/
  d3hot : Bool
  /-- The command register, and BAR0, as the host wrote them. -/
  command : Word
  bar0 : Word
  /-- Device control, and the status registers of advanced error reporting: uncorrectable and correctable errors (Table 16.1). -/
  devctl : Word
  aerUnc : Word
  aerCor : Word
  deriving DecidableEq, Repr

def Pcie.reset : Pcie := ⟨false, false, false, 0#32, 0#32, 0x2010#32, 0#32, 0#32⟩

/-- A descriptor in progress. -/
structure DmaRun where
  desc : Desc
  moved : Nat
  /-- The outbound FIFO was left empty at this instant, with `SF.WORDS` as it stood (R419). -/
  empty : Option (Nat × Word)
  /-- The timed frame that waits for its launch (R94), with the speed of the link: 1 10 Mb/s, 2 100, 3 1 000. -/
  frame : Option (List Byte × Nat)
  deriving DecidableEq, Repr

/-- The image update in progress (R467). -/
structure Upd where
  slot : Nat
  /-- 0 messages, 1 SF0, 2 SF1. -/
  source : Nat
  total : Nat
  got : Nat
  deriving DecidableEq, Repr

/-- A boot record copy (R451): generation, ACTIVE, PENDING as 0 none, 1 A, 2 B, and the CRC-32 over the copy. -/
structure BootRec where
  gen : Word
  active : Nat
  pending : Nat
  crc : Word
  deriving DecidableEq, Repr

/-- Something the chip sends or drives. -/
inductive Out where
  /-- A frame on a line port, from the destination address to the end of payload and pad, with whether its FCS is
  correct: a forwarded frame keeps a wrong one. -/
  | frame (port : Nat) (fcsOk : Bool) (bytes : List Byte)
  /-- A message on the standby link: TYPE, flags, sequence number, LEN and the sender's tenure of its header, and its body (R347). -/
  | link (type : Nat) (flags : Byte) (seq len tenure : Nat) (m : LinkMsg)
  /-- The data of a PCIe completion, word by word: memory or configuration. -/
  | completion (words : List Word)
  /-- Bytes driven on the quad-SPI port, turnaround and wait bytes among them (R415). -/
  | qspi (bytes : List Byte)
  /-- An MSI-X message of a vector: address and data as its table entry holds them. -/
  | msix (v : Nat) (addr : Nat) (data : Word)
  /-- Words written to host memory by a DMA channel. -/
  | hostWrite (c : Nat) (addr : Nat) (words : List DWord)
  /-- A read request to host memory by a DMA channel: address and bytes (R418, Table 16.1). -/
  | hostRead (c : Nat) (addr len : Nat)
  /-- The write-back of a descriptor of a channel: its address in host memory and the four bytes written at 12 to 15; the status byte, written
  last at 11 (R418, Table 16.3). -/
  | writeBack (c : Nat) (addr : Nat) (aux : Word)
  | status (c : Nat) (addr : Nat) (code : Nat)
  /-- A frame on the management port, from the preamble to the FCS, with its start-of-frame stamp. -/
  | mgFrame (stamp : Word) (bytes : List Byte)
  /-- The answer to a command datagram: the datagram and the reply (R467). -/
  | reply (request : List Byte) (payload : List Byte)
  deriving DecidableEq, Repr

/-! ### The Kettle -/

/-- OTP (Table 18.2), region by region: numbers as their bytes are read.  KEY_HASH0 is `Config.keyHash0`; the reserved regions are
blank. -/
structure Otp where
  /-- CHIP_ID. -/
  chipId : Word
  /-- The unit ID, 40 bits. -/
  unitId : BitVec 40
  /-- KEY_HASH1, 0 while blank. -/
  keyHash1 : Nat
  /-- The three copies of the rollback counter. -/
  roll : List (BitVec 256)
  /-- The region of the trims, 64 bytes. -/
  trims : BitVec 512
  /-- SECDED words with an error, by the number of the 64-bit word, and whether it is a double-bit error (R449). -/
  errs : List (Nat × Bool)
  deriving DecidableEq, Repr

/-- What the Kettle holds beside its pages: flash, OTP and SRAM (R447 to R469). -/
structure Kettle where
  /-- The flash by address but for the boot record and the persistent log; an erased byte reads 0xFF. -/
  flash : Tab Byte
  /-- The boot record copies at 0x0000 and 0x1000, none where a copy is erased (R451). -/
  rec0 : Option BootRec
  rec1 : Option BootRec
  /-- The persistent log at 0x42_0000, oldest first (R463). -/
  pers : List LogEnt
  /-- The place of its oldest entry in the ring of 65 536 (R463). -/
  persAt : Nat
  otp : Otp
  /-- The trims as the boot ROM loaded them (R454). -/
  trims : BitVec 512
  /-- The Kettle's SRAM below the ring of the log, by offset (R447). -/
  sram : Tab Byte
  /-- The STEEP and LINE sections of the image that runs are loaded (R453, R456). -/
  loaded : Bool
  upd : Option Upd
  /-- Slots whose image IMG_END accepted. -/
  accepted : List Nat
  /-- A completed message whose reply waits for its buffer, by mailbox: the result and the reply (R466). -/
  waiting : Tab (Option (Nat × List Byte))
  /-- Command datagrams that wait. -/
  inbox : List (List Byte)
  /-- Replies that wait for the management port: the frame answered and the payload (R96). -/
  outbox : List (List Byte × List Byte)
  /-- Instants of the restarts (R458). -/
  restarts : List Nat
  /-- SEQ of the entry that the stream pushes next, and of the entry that the persistent log takes next. -/
  streamNext : Word
  persNext : Word
  /-- The last frame received on the management port and its stamp (R84). -/
  mgLast : Option (List Byte × Word)
  deriving DecidableEq, Repr

/-- The OTP of a new AX-M256-I. -/
def Otp.blank : Otp := ⟨0x025610A1#32, 0#40, 0, [0#256, 0#256, 0#256], 0#512, []⟩

/-- The Kettle of a new part whose flash is blank. -/
def Kettle.reset : Kettle :=
  ⟨[], none, none, [], 0, Otp.blank, 0#512, [], false, none, [], [], [], [], [], 0#32, 0#32, none⟩

/-! ### The chip -/

/-- What a port's number is in the tables. -/
def Port.code : Port → Nat
  | .pcie => 0 | .qspi => 1 | .kettle => 2 | .sink0 => 3 | .sink1 => 4

/-- Everything but the time base and the Kettle. -/
structure Chip where
  /-- Registers by BAR0 offset; unlisted ones read their reset values. -/
  regs : Tab Word
  /-- Memories by address: the debug window's and the Caddy window's BAR0 offsets, and regions above 2^25 for the Tray
  buffers. -/
  mem : List Host.Cell
  /-- Errors in SECDED words: the address of a byte of the word and whether it is a double-bit error. -/
  ecc : List (Nat × Bool)
  /-- W1C bits set in this clock period (R432). -/
  fresh : Tab Word
  /-- Pages whose soft reset settles (R57), by base address. -/
  settling : List Nat
  /-- Values of the performance events in this clock period and in the one before, by event and Leaf (R441). -/
  evNow : Tab Nat
  evLast : Tab Nat
  cm : Commit
  ports : Tab PortState
  tg : TickGen
  leaves : Tab Leaf
  pots : Tab Pot
  /-- Cups appended so far. -/
  cupSeq : Nat
  segs : Tab Seg
  lps : Tab Lp
  axes : Tab AxisSt
  grps : Tab Grp
  /-- What publications replaced, oldest first, as long as a cup from an earlier tick may read it (R173). -/
  pubLog : List PubOld
  /-- Byte offsets of the records of the signature ring that no host read has reached (R255). -/
  sigUnread : List Nat
  /-- Levels of the event sources (Table 15.2), and the pulses in progress with the clock period that ends each. -/
  src : Tab Bool
  pulses : List (Nat × Nat)
  pins : Tab Pin
  /-- VSENSE of the banks EP0 to EP5, and of bank H at 6 (R395, R489). -/
  vsense : Tab Nat
  lfs : Tab Lf
  cus : Tab Cu
  /-- Capture unit served last by the drain (R383). -/
  drained : Nat
  /-- The Caddy fill after PD3 power-up is in progress (R372). -/
  caddyFill : Bool
  sfs : Tab Sf
  /-- Index of the next free value: the model's own. -/
  free : Nat
  tray : Tray
  stby : Stby
  /-- Sequence number of the next message sent on the standby link (R347). -/
  linkSeq : Nat
  /-- The ring of the log, oldest first (R462). -/
  log : List LogEnt
  /-- Words of Kettle SRAM with an error, by offset, and whether it is a double-bit error (R448). -/
  sramErr : List (Nat × Bool)
  rst : Rst
  pcie : Pcie
  /-- ERR of the quad-SPI status byte (R417). -/
  qspiErr : Bool
  /-- A word that the port has taken may still wait for its acceptance (R416, R417). -/
  qspiWip : Bool
  /-- End of the frame on the management port with its gap, in nanoseconds since power-up, and the link speed it was sent at (R95, R96). -/
  mgEnd : Nat
  mgSpeed : Nat
  /-- Descriptors in progress, by DMA channel (R418). -/
  dma : Tab (Option DmaRun)
  /-- What the chip has sent or driven: the model's own record. -/
  out : List Out
  deriving DecidableEq, Repr

/-! ### Reset -/

/-- What PD2 and the domains below it hold, after their reset (R471, R476): everything but what PD0 and PD1 keep.  The argument
gives those parts. -/
def Chip.core (c : Chip) : Chip :=
  { c with
    mem := [], ecc := [], fresh := [], settling := [], cm := Commit.reset,
    tg := TickGen.reset, leaves := [], pots := [], cupSeq := 0, segs := [], lps := [], axes := [], grps := [], pubLog := [], sigUnread := [],
    src := [], pulses := [], pins := [], lfs := [], cus := [], drained := 15, caddyFill := false, tray := Tray.reset,
    stby := Stby.reset, linkSeq := 0 }

/-- The chip at the release of a power-on reset (R476, R477): PD0 and PD1 are on and their registers at their reset
values; the FIFOs are empty and stand at their idle FLOW levels (R388). -/
def Chip.reset : Chip :=
  Chip.core {
    regs := [(0xC0058, 1#32), (0xC1058, 1#32)]
    mem := [], ecc := [], fresh := [], settling := [], evNow := [], evLast := [], cm := Commit.reset, ports := [], tg := TickGen.reset
    leaves := [], pots := [], cupSeq := 0, segs := [], lps := [], axes := [], grps := [], pubLog := [], sigUnread := [], src := []
    pulses := [], pins := [], vsense := [(6, 1)], lfs := [], cus := [], drained := 15, caddyFill := false, sfs := [], free := 0
    tray := Tray.reset, stby := Stby.reset, linkSeq := 0, log := [], sramErr := [], rst := Rst.reset, pcie := Pcie.reset
    qspiErr := false, qspiWip := false, mgEnd := 0, mgSpeed := 3, dma := [], out := [] }

/-- The state of the machine. -/
structure State where
  /-- Commands that wait, first in, first out. -/
  pending : List Instr
  tb : TimeBase
  chip : Chip
  ktl : Kettle
  deriving DecidableEq, Repr

/-- The machine right after reset: a power-on reset has been released, the host ports are reachable, the Kettle is still
held, and no command waits (R476, R477). -/
def State.reset : State := ⟨[], TimeBase.reset, Chip.reset, Kettle.reset⟩

end Sys2Proof.Machine
end

