-- ==== Sys2Proof/Machine/Ops.lean ====
section
/-!
DEFINITION. The named operations over the state: registers and their counters, events, memory, the arrays of units, the
access gate of a register page, and the parts of the tick that every block reads.
-/

namespace Sys2Proof.Machine

/-- The outcome of a command. -/
abbrev Res := Host.Outcome State Fault Refusal

/-- A command whose whole effect is on the chip. -/
def State.onChip (s : State) (f : Chip → Chip) : State := { s with chip := f s.chip }

/-- A command whose whole effect is on the time base. -/
def State.onTb (s : State) (f : TimeBase → TimeBase) : State := { s with tb := f s.tb }

/-- A command whose whole effect is on the Kettle. -/
def State.onKtl (s : State) (f : Kettle → Kettle) : State := { s with ktl := f s.ktl }

/-- Two effects in order, the second on what the first leaves. -/
def Chip.when (c : Chip) (p : Bool) (f : Chip → Chip) : Chip := if p then f c else c

/-! ### Registers -/

/-- The word a register holds: the value in force (R49). -/
def Chip.reg (c : Chip) (a : Nat) : Word := Tab.get regReset c.regs a

/-- Give a register a word. -/
def Chip.setReg (c : Chip) (a : Nat) (v : Word) : Chip := { c with regs := Tab.set regReset c.regs a v }

/-- Bits `hi` to `lo` of a register. -/
def Chip.rf (c : Chip) (a hi lo : Nat) : Nat := fld (c.reg a) hi lo

/-- Bit `i` of a register. -/
def Chip.rb (c : Chip) (a i : Nat) : Bool := bit (c.reg a) i

/-- The word of a register as a number. -/
def Chip.rn (c : Chip) (a : Nat) : Nat := (c.reg a).toNat

/-- The word of a register as a signed number. -/
def Chip.ri (c : Chip) (a : Nat) : Int := (c.reg a).toInt

/-- Replace bits `hi` to `lo` of a register. -/
def Chip.setF (c : Chip) (a hi lo v : Nat) : Chip := c.setReg a (putFld (c.reg a) hi lo v)

/-- Give a register a number, modulo 2^32. -/
def Chip.setN (c : Chip) (a v : Nat) : Chip := c.setReg a (BitVec.ofNat 32 v)

/-- Give a register a signed number, modulo 2^32. -/
def Chip.setI (c : Chip) (a : Nat) (v : Int) : Chip := c.setReg a (wOf v)

/-- Give a register pair, low word first, a 64-bit value (R51). -/
def Chip.setPair (c : Chip) (lo hi : Nat) (v : Nat) : Chip := (c.setN lo v).setN hi (v / 2 ^ 32)

/-- The 64-bit value of a register pair. -/
def Chip.pair (c : Chip) (lo hi : Nat) : Nat := c.rn lo + c.rn hi * 2 ^ 32

/-- Set bits of a W1C register by an occurrence of this instant: a W1C write of the same clock period does not clear
them (R432). -/
def Chip.raise (c : Chip) (a : Nat) (m : Word) : Chip :=
  let c := c.setReg a (c.reg a ||| m)
  { c with fresh := Tab.set (fun _ => 0#32) c.fresh a (Tab.get (fun _ => 0#32) c.fresh a ||| m) }

/-- Clear the bits of a W1C register that a write names, but for the occurrences of this instant (R432). -/
def Chip.w1c (c : Chip) (a : Nat) (m : Word) : Chip :=
  c.setReg a (c.reg a &&& ~~~(m &&& ~~~(Tab.get (fun _ => 0#32) c.fresh a)))

/-- Set bit `i` of PG_EVT_RAW of the page at base `b` (R58). -/
def Chip.evt (c : Chip) (b i : Nat) : Chip := c.raise (pgEvtRaw b) (oneBit i)

/-- A wrapping count. -/
def Chip.bumpBy (c : Chip) (a n : Nat) : Chip := c.setReg a (c.reg a + BitVec.ofNat 32 n)

/-- A wrapping count of one. -/
def Chip.bump (c : Chip) (a : Nat) : Chip := c.bumpBy a 1

/-- A saturating count of one. -/
def Chip.satUp (c : Chip) (a : Nat) : Chip := if c.rn a = 0xFFFFFFFF then c else c.bump a

/-- One increment of PG_ERRCNT, saturating (R59). -/
def Chip.errCount (c : Chip) (b : Nat) : Chip := c.satUp (pgErrcnt b)

/-- An occurrence of a 32-bit trouble counter: it counts and is summed in PG_ERRCNT, and at all-ones it is lost
(R59, R438). -/
def Chip.trouble (c : Chip) (a : Nat) : Chip :=
  if c.rn a = 0xFFFFFFFF then c else (c.bump a).errCount (pageBase a)

/-- An occurrence of a 16-bit trouble counter in bits `lo` to `lo + 15` of a register. -/
def Chip.trouble16 (c : Chip) (a lo : Nat) : Chip :=
  if c.rf a (lo + 15) lo = 0xFFFF then c
  else (c.setF a (lo + 15) lo (c.rf a (lo + 15) lo + 1)).errCount (pageBase a)

/-- `n` occurrences of a 32-bit trouble counter. -/
def Chip.troubleBy (c : Chip) (a : Nat) : Nat → Chip
  | 0 => c
  | n + 1 => (c.trouble a).troubleBy a n

/-! ### Memory -/

/-- A byte of memory: 0 where nothing is listed. -/
def Chip.byte (c : Chip) (a : Nat) : Byte := Tab.get (fun _ => 0#8) c.mem a

/-- Store a byte. -/
def Chip.setByte (c : Chip) (a : Nat) (v : Byte) : Chip := { c with mem := Tab.set (fun _ => 0#8) c.mem a v }

/-- `n` bytes from an address up. -/
def Chip.bytes (c : Chip) (a n : Nat) : List Byte := (List.range n).map (fun i => c.byte (a + i))

/-- Store bytes from an address up. -/
def Chip.setBytes (c : Chip) (a : Nat) : List Byte → Chip
  | [] => c
  | v :: l => (c.setByte a v).setBytes (a + 1) l

/-- A little-endian number of `n` bytes (R47). -/
def Chip.loadLE (c : Chip) (a n : Nat) : Nat := ofLE (c.bytes a n)

/-- Store a number as `n` little-endian bytes (R47). -/
def Chip.storeLE (c : Chip) (a n v : Nat) : Chip := c.setBytes a (leBytes n v)

/-- Empty a range of memory: every byte reads 0. -/
def Chip.fillZero (c : Chip) (a n : Nat) : Chip :=
  { c with
    mem := Tab.drop c.mem (fun k => decide (a ≤ k ∧ k < a + n))
    ecc := c.ecc.filter (fun e => !decide (a ≤ e.1 ∧ e.1 < a + n)) }

/-! ### Arrays of units -/

/-- A Leaf. -/
def Chip.leaf (c : Chip) (n : Nat) : Leaf := Tab.get (fun _ => Leaf.reset) c.leaves n

def Chip.setLeaf (c : Chip) (n : Nat) (l : Leaf) : Chip :=
  { c with leaves := Tab.set (fun _ => Leaf.reset) c.leaves n l }

def Chip.modLeaf (c : Chip) (n : Nat) (f : Leaf → Leaf) : Chip := c.setLeaf n (f (c.leaf n))

/-- A Pot. -/
def Chip.pot (c : Chip) (p : Nat) : Pot := Tab.get (fun _ => Pot.reset) c.pots p

def Chip.setPot (c : Chip) (p : Nat) (v : Pot) : Chip := { c with pots := Tab.set (fun _ => Pot.reset) c.pots p v }

def Chip.modPot (c : Chip) (p : Nat) (f : Pot → Pot) : Chip := c.setPot p (f (c.pot p))

/-- What a port holds (R51). -/
def Chip.port (c : Chip) (p : Port) : PortState := Tab.get (fun _ => PortState.reset) c.ports p.code

def Chip.modPort (c : Chip) (p : Port) (f : PortState → PortState) : Chip :=
  { c with ports := Tab.set (fun _ => PortState.reset) c.ports p.code (f (c.port p)) }

/-- Change the tick generator. -/
def Chip.modTg (c : Chip) (f : TickGen → TickGen) : Chip := { c with tg := f c.tg }

/-- Change the captured and staged writes. -/
def Chip.modCm (c : Chip) (f : Commit → Commit) : Chip := { c with cm := f c.cm }

/-- Something the chip sends or drives: appended to the record of its outputs. -/
def Chip.emit (c : Chip) (o : Out) : Chip := { c with out := c.out ++ [o] }

/-- A segment. -/
def Chip.seg (c : Chip) (g : Nat) : Seg := Tab.get (fun _ => Seg.reset) c.segs g

def Chip.modSeg (c : Chip) (g : Nat) (f : Seg → Seg) : Chip :=
  { c with segs := Tab.set (fun _ => Seg.reset) c.segs g (f (c.seg g)) }

/-- A node of a segment. -/
def Seg.node (s : Seg) (k : Nat) : NodeSt := Tab.get (fun _ => NodeSt.reset) s.nodes k

def Chip.node (c : Chip) (g k : Nat) : NodeSt := (c.seg g).node k

def Chip.modNode (c : Chip) (g k : Nat) (f : NodeSt → NodeSt) : Chip :=
  c.modSeg g (fun s => { s with nodes := Tab.set (fun _ => NodeSt.reset) s.nodes k (f (s.node k)) })

/-- A line port. -/
def Chip.lp (c : Chip) (n : Nat) : Lp := Tab.get (fun _ => Lp.reset) c.lps n

def Chip.modLp (c : Chip) (n : Nat) (f : Lp → Lp) : Chip :=
  { c with lps := Tab.set (fun _ => Lp.reset) c.lps n (f (c.lp n)) }

/-- A port has link: it is IN_SERVICE (R332). -/
def Chip.hasLink (c : Chip) (n : Nat) : Bool := decide ((c.lp n).state = 4)

/-- What the chip keeps for an axis. -/
def Chip.ax (c : Chip) (a : Nat) : AxisSt := Tab.get (fun _ => AxisSt.reset) c.axes a

def Chip.modAx (c : Chip) (a : Nat) (f : AxisSt → AxisSt) : Chip :=
  { c with axes := Tab.set (fun _ => AxisSt.reset) c.axes a (f (c.ax a)) }

/-- A door group. -/
def Chip.grp (c : Chip) (g : Nat) : Grp := Tab.get (fun _ => Grp.reset) c.grps g

def Chip.modGrp (c : Chip) (g : Nat) (f : Grp → Grp) : Chip :=
  { c with grps := Tab.set (fun _ => Grp.reset) c.grps g (f (c.grp g)) }

def Chip.pin (c : Chip) (n : Nat) : Pin := Tab.get (fun _ => Pin.reset) c.pins n
def Chip.modPin (c : Chip) (n : Nat) (f : Pin → Pin) : Chip :=
  { c with pins := Tab.set (fun _ => Pin.reset) c.pins n (f (c.pin n)) }

def Chip.lf (c : Chip) (n : Nat) : Lf := Tab.get (fun _ => Lf.reset) c.lfs n
def Chip.modLf (c : Chip) (n : Nat) (f : Lf → Lf) : Chip :=
  { c with lfs := Tab.set (fun _ => Lf.reset) c.lfs n (f (c.lf n)) }

def Chip.cu (c : Chip) (n : Nat) : Cu := Tab.get (fun _ => Cu.reset) c.cus n
def Chip.modCu (c : Chip) (n : Nat) (f : Cu → Cu) : Chip :=
  { c with cus := Tab.set (fun _ => Cu.reset) c.cus n (f (c.cu n)) }

def Chip.sf (c : Chip) (n : Nat) : Sf := Tab.get (fun _ => Sf.reset) c.sfs n
def Chip.modSf (c : Chip) (n : Nat) (f : Sf → Sf) : Chip :=
  { c with sfs := Tab.set (fun _ => Sf.reset) c.sfs n (f (c.sf n)) }

def Chip.modStby (c : Chip) (f : Stby → Stby) : Chip := { c with stby := f c.stby }

/-! ### The part and its domains -/

/-- The part is an AX-M128-I (R4). -/
def Chip.m128 (c : Chip) : Bool := decide (c.rf CHIP.CHIP_ID 31 16 = 0x128)

/-- Pots of the part. -/
def Chip.nPots (c : Chip) : Nat := if c.m128 then 4 else 8
/-- Leaves of the part. -/
def Chip.nLeaves (c : Chip) : Nat := if c.m128 then 32 else 64
/-- Segments of the part. -/
def Chip.nSegs (c : Chip) : Nat := if c.m128 then 8 else 16
/-- Line ports of the part. -/
def Chip.nPorts (c : Chip) : Nat := if c.m128 then 16 else 32
/-- Axes of the part. -/
def Chip.nAxes (c : Chip) : Nat := if c.m128 then 128 else 256

/-- The page of an instance that is absent on the part (R5). -/
def Chip.absent (c : Chip) (type inst : Nat) : Bool :=
  c.m128 && (match type with
    | 0x10 => decide (4 ≤ inst)
    | 0x11 => decide (32 ≤ inst)
    | 0x12 => decide (8 ≤ inst)
    | 0x13 => decide (16 ≤ inst)
    | 0x19 => decide (128 ≤ inst)
    | _ => false)

/-- Power domain `d` is on (R473). -/
def Chip.domOn (c : Chip) (d : Nat) : Bool := c.rb PWR.DOM_ON d

/-- The domain that holds the register state of a page (Table 19.1). -/
def pageDomain (type : Nat) : Nat :=
  match type with
  | 0x01 | 0x08 | 0x09 | 0x17 => 1
  | 0x05 | 0x06 | 0x07 | 0x0C | 0x0D | 0x0E => 0
  | _ => 2

/-- A page is locked (R60). -/
def Chip.locked (c : Chip) (b : Nat) : Bool := c.rb (pgLock b) 31

/-- Host accesses: all but the Kettle's, to which locks do not apply (R60). -/
def Port.isHost (p : Port) : Bool := decide (p ≠ .kettle)

/-- The two ports that lead from the host to BAR0 (R411, R413). -/
def Port.isBus (p : Port) : Bool := decide (p = .pcie ∨ p = .qspi)

/-- EN of a page in force. -/
def Chip.en (c : Chip) (b : Nat) : Bool := c.rb (pgCtrl b) 0

/-- PD1 is out of reset: none is in progress, or one that the thermal comparator alone has caused (Table 19.4). -/
def Chip.live (c : Chip) : Bool := !c.rst.pd1

/-- KSTATE (Table 18.10). -/
def Chip.kstate (c : Chip) : Nat := c.rf KTL.STAT 31 28
def Chip.setKstate (c : Chip) (v : Nat) : Chip := c.setF KTL.STAT 31 28 v
def Chip.bootTries (c : Chip) : Nat := c.rf KTL.BOOT 1 0
def Chip.lastSlot (c : Chip) : Nat := c.rf KTL.STAT 24 24

/-- The chip is in Decaf (R468). -/
def Chip.inDecaf (c : Chip) : Bool := c.rst.kettleUp && decide (c.kstate = 3)

/-- The chip is in reset: sources hold it. -/
def Chip.held (c : Chip) : Bool := !c.rst.held.isEmpty

/-- A port reaches the registers: the Kettle while it is out of reset; a host port while PD1 is on and out of reset
(R471, R477). -/
def Chip.reach (c : Chip) (port : Port) : Bool :=
  if port = .kettle then c.rst.kettleUp else c.domOn 1 && c.live

/-- The gate of a register write: whether the write reaches the register, and the chip as the gate leaves it.  An absent
instance ignores it (R5), and so does a port that does not reach the registers; a page whose domain is off ignores it and counts in DOMAIN_OFF (R411); a locked page discards
it with LOCK_VIOL unless it is to PG_LOCK or PG_EVT_RAW (R61); a page whose reset settles discards it (R57). -/
def Chip.gate (c : Chip) (port : Port) (a : Nat) : Chip × Bool :=
  match pageAt a with
  | none => (c, false)
  | some p =>
    if c.absent p.page.type p.inst || !c.reach port then (c, false)
    else if !c.domOn (pageDomain p.page.type) then
      (if port.isBus then c.trouble HOSTIF.DOMAIN_OFF else c, false)
    else if port.isHost && c.locked (pageBase a) && decide (p.off ≠ 0x24 ∧ p.off ≠ 0x10) then
      ((c.evt (pageBase a) 30).errCount (pageBase a), false)
    else if c.settling.contains (pageBase a) then (c, false)
    else (c, true)

/-- A write that reaches the register at `a` has the effect `f`; one that the gate turns away has the gate's. -/
def Chip.gated (c : Chip) (port : Port) (a : Nat) (f : Chip → Chip) : Chip :=
  if (c.gate port a).2 then f (c.gate port a).1 else (c.gate port a).1

/-- A register write whose effect goes beyond the chip: the gate of its page, then the effect. -/
def State.gated (s : State) (p : Port) (a : Nat) (f : State → State) : State :=
  if (s.chip.gate p a).2 then f { s with chip := (s.chip.gate p a).1 } else { s with chip := (s.chip.gate p a).1 }

/-- What a pin's driver and pull do (R396, R490). -/
inductive PinDrive where
  | low | high
  /-- Not driven, with the pull that PULL selects: 0 none, 1 up, 2 down. -/
  | off (pull : Nat)
  deriving DecidableEq, Repr

/-- Sensed level of an I/O bank: 0 absent, 1 1.8 V, 2 3.3 V; bank H is bank 6 (R395, R489). -/
def Chip.bankLevel (c : Chip) (b : Nat) : Nat := Tab.get (fun _ => 0) c.vsense b

/-- A push-pull output of bank H drives a level while the bank has its supply (R483, R490). -/
def Chip.driveH (c : Chip) (v : Bool) : PinDrive := if c.bankLevel 6 = 0 then .off 0 else if v then .high else .low

/-! ### The tick -/

/-- FAST_NS less the T0 of the tick, modulo 2^32 (R87). -/
def Chip.ofs (c : Chip) (tb : TimeBase) : Nat := (tb.fast - c.tg.t0Fast).toNat

/-- TICK_NO. -/
def Chip.tickNo (c : Chip) : Nat := c.tg.tickNo.toNat

/-- PERIOD in force. -/
def Chip.period (c : Chip) : Nat := c.rf TICK.NOW_PERIOD 17 0
def Chip.gatherOfs (c : Chip) : Nat := c.rf TICK.NOW_GATHER_OFS 17 0
def Chip.gatherLate (c : Chip) : Nat := c.rf TICK.NOW_GATHER_LATE 17 0
def Chip.pourClose (c : Chip) : Nat := c.rf TICK.NOW_POUR_CLOSE 17 0
def Chip.svcOpen (c : Chip) : Nat := c.rf TICK.NOW_SVC_OPEN 17 0
def Chip.svcSlot (c : Chip) : Nat := c.rf TICK.NOW_SVC 11 0
def Chip.svcCount (c : Chip) : Nat := c.rf TICK.NOW_SVC 18 16

/-- GUARD_OPEN (R19). -/
def Chip.guardOpen (c : Chip) : Nat := c.svcOpen + c.svcCount * c.svcSlot

/-- No tick runs: not running and no start pending (R72). -/
def Chip.noTick (c : Chip) : Bool := !c.tg.running && c.tg.start.isNone

/-- The mode in force for R295 and R296: MODE_NOW while the tick runs, START_MODE while a start is pending. -/
def Chip.modeInForce (c : Chip) : Option Nat :=
  if c.tg.running then some c.tg.mode
  else if c.tg.start.isSome then some c.tg.startMode
  else none

/-- LSTATE (Table 11.6). -/
def Chip.lstate (c : Chip) : Nat := c.rf TICK.LINE_STAT 31 28

/-- LSTATE changes with its event (R327). -/
def Chip.setLstate (c : Chip) (v : Nat) : Chip :=
  if c.lstate = v then c else (c.setF TICK.LINE_STAT 31 28 v).evt 0x1000 13

/-- The chip is head of the line. -/
def Chip.isHead (c : Chip) : Bool := decide (c.lstate = 3)
/-- The chip is in standby role. -/
def Chip.isStandby (c : Chip) : Bool := decide (c.lstate = 4)

/-! ### Performance counters -/

/-- The gate window of R443. -/
def Chip.inGate (c : Chip) (tb : TimeBase) : Bool :=
  let o := c.rf CHIP.PGATE_OPEN 17 0
  let k := c.rf CHIP.PGATE_CLOSE 17 0
  c.tg.running && (if o ≤ k then decide (o ≤ c.ofs tb ∧ c.ofs tb < k) else decide (o ≤ c.ofs tb ∨ c.ofs tb < k))

/-- The greatest value of an event in a cycle (Tables 17.5 and 17.6). -/
def perfMax (ev : Nat) : Nat :=
  match ev with
  | 0x1B | 0x20 | 0x21 | 0x22 | 0x23 => 2
  | 0x19 | 0x94 => 4
  | 0x82 | 0x83 | 0x88 | 0x89 | 0x8E | 0x93 => 16
  | 0x91 | 0x92 => 32
  | 0x85 | 0x86 | 0x8B | 0x8C | 0x90 | 0x97 => 64
  | 0x84 | 0x8A => 256
  | _ => 1

/-- The place of an event in the tables of values: a chip event, or a Leaf event on a Leaf. -/
def perfKey (ev : Nat) (leaf : Option Nat) : Nat := 65 * ev + leaf.getD 64

/-- The value of an event in this cycle grows by `n`, up to the greatest that the event has (R441). -/
def Chip.note (c : Chip) (ev : Nat) (leaf : Option Nat) (n : Nat) : Chip :=
  if n = 0 then c
  else
    let k := perfKey ev leaf
    { c with evNow := Tab.set (fun _ => 0) c.evNow k (min (perfMax ev) (Tab.get (fun _ => 0) c.evNow k + n)) }

/-- An occurrence of a chip event of Table 17.6 with value `n`. -/
def Chip.perf (c : Chip) (ev n : Nat) : Chip := c.note ev none n

/-- An occurrence of a Leaf event of Table 17.5 on Leaf `l` with value `n`. -/
def Chip.perfLeaf (c : Chip) (l ev n : Nat) : Chip := c.note ev (some l) n

/-- What the value of an event adds to a counter with selection word `w` (R441): in LEVEL mode the value, in EDGE mode 1 where the
value of the cycle before was 0. -/
def Chip.evAdd (c : Chip) (w : Word) (k : Nat) : Nat :=
  let n := Tab.get (fun _ => 0) c.evNow k
  if bit w 30 then b2n (decide (n ≠ 0 ∧ Tab.get (fun _ => 0) c.evLast k = 0)) else n

/-- The Leaf whose event a key names, and the event. -/
def Chip.perfHits (w : Word) (leaf : Option Nat) (k : Nat) : Bool :=
  let ev := fld w 7 0
  decide (k / 65 = ev) &&
  (match leaf with
    -- a counter of a Leaf: its own events
    | some n => decide (ev < 0x80 ∧ k % 65 = n)
    -- a counter of the chip: the Leaves of its scope for a Leaf event
    | none => decide (0x80 ≤ ev ∨ fld w 15 12 = 8 ∨ fld w 15 12 = k % 65 / 8))

/-- A 48-bit counter, whose LO word is at `lo` and whose selection is `w`, counts the cycle that ends (R441, R443). -/
def Chip.countOne (c : Chip) (inGate frozen : Bool) (leaf : Option Nat) (w : Word) (lo : Nat) : Chip :=
  if !bit w 31 || frozen || bit w 29 && !inGate then c
  else
    let n := (c.evNow.filter (fun e => Chip.perfHits w leaf e.1)).foldl (fun n e => n + c.evAdd w e.1) 0
    if n = 0 then c else c.setPair lo (lo + 4) ((c.pair lo (lo + 4) + n) % 2 ^ 48)

/-- The cycle that ends is counted by every counter that is enabled, not frozen and inside its gate, a Leaf's while the Leaf is not OFF
(R441 to R443); the values of its events become those of the cycle before. -/
def Chip.countCycle (c : Chip) (tb : TimeBase) : Chip :=
  let gate := c.inGate tb
  let all := c.rb CHIP.PCTL 0
  let sel := fun (c : Chip) a => Tab.get (fun _ => 0#32) c.regs a
  let c := (List.range 16).foldl (fun c k => c.countOne gate all none (sel c (CHIP.CCNT_SEL k)) (CHIP.CCNT_LO k)) c
  let c := (c.leaves.filter (fun e => decide (e.2.state ≠ 0))).foldl (fun (c : Chip) e =>
    (List.range 4).foldl (fun c k =>
      c.countOne gate (all || c.rb (LEAF.PCTL e.1) 0) (some e.1) (sel c (LEAF.PCNT_SEL e.1 k)) (LEAF.PCNT_LO e.1 k)) c) c
  { c with evLast := c.evNow, evNow := [] }

/-! ### The log and the standby link -/

/-- Offset in Kettle SRAM of the entry `seq` of the ring (Table 18.1, R462): by its number modulo 4 096 (DESIGN CHOICE, log 92). -/
def ringAt (seq : Word) : Nat := 0x30000 + 16 * (seq.toNat % 4096)

/-- Append an entry to the log (R462): the ring keeps 4 096. -/
def Chip.logAdd (c : Chip) (tb : TimeBase) (sev src code arg : Nat) : Chip :=
  let run := c.domOn 2
  let e : LogEnt := ⟨c.reg LOG.WR_SEQ, if run then tb.sec.setWidth 32 else BitVec.ofNat 32 (tb.up / 1000000),
    if run then tb.ns else 0, sev, !run, src, code, arg % 2 ^ 16⟩
  let l := c.log ++ [e]
  let c := Chip.bump { c with
    log := l.drop (l.length - 4096)
    sramErr := c.sramErr.filter (fun x => decide (x.1 / 16 ≠ (ringAt e.seq) / 16)) } LOG.WR_SEQ
  -- events of the LOG page (R470); WRAP is read as the wrap of WR_SEQ (DEDUCED, log 54)
  let c := c.when (decide (2 ≤ sev)) (fun c => c.evt pgLog 0)
  c.when (decide (c.reg LOG.WR_SEQ = 0#32)) (fun c => c.evt pgLog 1)

/-- TENURE held or latched. -/
def Chip.tenure (c : Chip) : Nat := c.rf STBY.TEN 15 0

/-- Send a message on the standby link (R347).  What its flags say and how its body is laid out, and so its LEN, is not stated: both are free
values (DESIGN CHOICE, log 95). -/
def Chip.linkSend (c : Chip) (m : LinkMsg) : Chip :=
  let c := c.emit (.link m.type (Config.linkFlags m.type) c.linkSeq (Config.linkLen c.linkSeq) c.tenure m)
  Chip.perf { c with linkSeq := (c.linkSeq + 1) % 2 ^ 16 } 0x95 1

/-- The head enters an entry in the journal of the tick and sends it to a paired standby (R41, R350). -/
def Chip.journal (c : Chip) (e : Entry) : Chip :=
  if c.isHead && c.stby.paired then
    (c.modStby (fun t => { t with sent := t.sent + 1, own := t.own ++ [e] })).linkSend (.entry e)
  else c

/-- A head declares a fault that it cannot mask (R361): it hands over to an IN_STEP standby, and without one sets
UNMASKED.  A tenure of 0xFFFF allows no handover (R366). -/
def Chip.declareFault (c : Chip) (n : Nat) : Chip :=
  if !c.isHead then c
  else if c.stby.paired && decide (c.stby.peerSstate = 2 ∧ c.tenure ≠ 0xFFFF) then
    c.modStby (fun t => { t with handReq := true, fault := n })
  else c.evt pgStby 7

end Sys2Proof.Machine
end

