-- ==== Sys2Proof/Machine/Operands.lean ====
section
/-!
DEFINITION. The operand forms of a Leaf: general, address, control and accumulator registers with their banks (R106,
R116), the results in flight with their visibility (Table 4.1, R147), the post-increment of an address register (R108),
the address of a memory operand (R142) and the places of the Leaf's address space (Table 4.4).
-/

namespace Sys2Proof.Machine

/-- The bank that issues. -/
def Leaf.bank (l : Leaf) : Bank := if l.bankB then l.b else l.f

/-- A general register as the issuing bank reads it: g0 reads 0, and a slow cup reads 0 from an unbanked one (R103,
R116). -/
def Leaf.rdG (l : Leaf) (r : Nat) : Word :=
  if r = 0 then 0#32
  else if l.bankB then (if r < 16 then 0#32 else Tab.get (fun _ => 0#32) l.b.g r)
  else Tab.get (fun _ => 0#32) l.f.g r

/-- An address register. -/
def Leaf.rdA (l : Leaf) (r : Nat) : Word :=
  if l.bankB then (if r < 4 then 0#32 else Tab.get (fun _ => 0#32) l.b.a r)
  else Tab.get (fun _ => 0#32) l.f.a r

/-- A modulo control register. -/
def Leaf.rdAmod (l : Leaf) (r : Nat) : Word :=
  if l.bankB then (if r < 4 then 0#32 else Tab.get (fun _ => 0#32) l.b.amod r)
  else Tab.get (fun _ => 0#32) l.f.amod r

/-- An accumulator as the addend of an accumulation. -/
def Leaf.rdAccAdd (l : Leaf) (r : Nat) : Acc :=
  if l.bankB then (if r < 2 then 0#72 else Tab.get (fun _ => 0#72) l.b.accAdd r)
  else Tab.get (fun _ => 0#72) l.f.accAdd r

/-- An accumulator as extraction and moves read it. -/
def Leaf.rdAcc (l : Leaf) (r : Nat) : Acc :=
  if l.bankB then (if r < 2 then 0#72 else Tab.get (fun _ => 0#72) l.b.accRead r)
  else Tab.get (fun _ => 0#72) l.f.accRead r

/-- The shift tag of an accumulator. -/
def Leaf.rdTag (l : Leaf) (r : Nat) : Nat :=
  if l.bankB then (if r < 2 then 0 else (Tab.get (fun _ => 0#32) l.b.tag r).toNat)
  else (Tab.get (fun _ => 0#32) l.f.tag r).toNat

/-- FLG of the issuing bank. -/
def Leaf.rdFlg (l : Leaf) : Word := l.bank.flg

/-- The bundle that issues. -/
def Leaf.pc (l : Leaf) : Nat := l.bank.pc

/-- Issue a result that becomes visible `lat` bundles on. -/
def Leaf.put (l : Leaf) (slotY : Bool) (lat : Nat) (it : Item) (v : Nat) : Leaf :=
  { l with cur := l.cur ++ [⟨l.bankB, it, v, l.bx + lat, slotY⟩] }

/-- Set FLG bits, visible at i + 3 (Table 4.1). -/
def Leaf.setFlags (l : Leaf) (slotY : Bool) (m : Nat) : Leaf := if m = 0 then l else l.put slotY 3 .flagSet m

/-- FLG.SAT, ASAT, ILL, MEM and BGREG (Table 4.3). -/
def flgSAT : Nat := 1
def flgASAT : Nat := 2
def flgILL : Nat := 4
def flgMEM : Nat := 8
def flgBGREG : Nat := 16

/-- Write a general register: nothing for g0, discarded with BGREG for an unbanked one in a slow cup. -/
def Leaf.putG (l : Leaf) (slotY : Bool) (lat r : Nat) (v : Word) : Leaf :=
  if r = 0 then l
  else if l.bankB && decide (r < 16) then l.setFlags slotY flgBGREG
  else l.put slotY lat (.g r) v.toNat

/-- Write an address register, visible at i + 1. -/
def Leaf.putA (l : Leaf) (r : Nat) (v : Word) : Leaf :=
  if l.bankB && decide (r < 4) then l.setFlags false flgBGREG else l.put false 1 (.a r) v.toNat

/-- Write a modulo control register, visible at i + 1. -/
def Leaf.putAmod (l : Leaf) (r : Nat) (v : Word) : Leaf :=
  if l.bankB && decide (r < 4) then l.setFlags false flgBGREG else l.put false 1 (.amod r) v.toNat

/-- Write an accumulator: to a further accumulation at i + 1, to a reader at i + 3 (R147). -/
def Leaf.putAcc (l : Leaf) (r : Nat) (v : Acc) : Leaf :=
  if l.bankB && decide (r < 2) then l.setFlags true flgBGREG
  else (l.put true 1 (.accAdd r) v.toNat).put true 3 (.accRead r) v.toNat

/-- Write a shift tag. -/
def Leaf.putTag (l : Leaf) (slotY : Bool) (lat r v : Nat) : Leaf :=
  if l.bankB && decide (r < 2) then l.setFlags slotY flgBGREG else l.put slotY lat (.tag r) (v % 32)

/-- Land one result in a bank. -/
def Bank.land (k : Bank) (it : Item) (v : Nat) : Bank :=
  match it with
  | .g r => { k with g := Tab.set (fun _ => 0#32) k.g r (BitVec.ofNat 32 v) }
  | .a r => { k with a := Tab.set (fun _ => 0#32) k.a r (BitVec.ofNat 32 v) }
  | .amod r => { k with amod := Tab.set (fun _ => 0#32) k.amod r (BitVec.ofNat 32 v) }
  | .accAdd r => { k with accAdd := Tab.set (fun _ => 0#72) k.accAdd r (BitVec.ofNat 72 v) }
  | .accRead r => { k with accRead := Tab.set (fun _ => 0#72) k.accRead r (BitVec.ofNat 72 v) }
  | .tag r => { k with tag := Tab.set (fun _ => 0#32) k.tag r (BitVec.ofNat 32 v) }
  | .flagClr => { k with flg := k.flg &&& ~~~(BitVec.ofNat 32 v) }
  | .flagSet => { k with flg := k.flg ||| BitVec.ofNat 32 v }

/-- Land one result in the bank of the instruction that issued it (R119). -/
def Leaf.land (l : Leaf) (x : Flight) : Leaf :=
  if x.bankB then { l with b := l.b.land x.item x.val } else { l with f := l.f.land x.item x.val }

/-- Land results in issue order, clears of FLG first (R103, R144). -/
def Leaf.landAll (l : Leaf) (xs : List Flight) : Leaf :=
  let clr := xs.filter (fun x => decide (x.item = .flagClr))
  let rest := xs.filter (fun x => !decide (x.item = .flagClr))
  (clr ++ rest).foldl Leaf.land l

/-- The update of a post-increment (R108). -/
def postInc (ak amod : Word) (inc : Int) : Word :=
  let len0 := (amod.toNat / 2 ^ 16) / 4 * 4
  let base := (amod.toNat % 2 ^ 16) / 4 * 4
  let len := if 0x10000 < base + len0 then 0x10000 - base else len0
  let n := ak + wOf inc
  if len = 0 then n
  else
    let lo := n.toNat % 2 ^ 16
    if base + len ≤ lo then n - BitVec.ofNat 32 len
    else if lo < base then n + BitVec.ofNat 32 len
    else n

/-- The address of a memory operand (R142). -/
def Leaf.memAddr (l : Leaf) (a : Nat) (post : Bool) (k : Int) : Nat :=
  if post then (l.rdA a).toNat else (l.rdA a + wOf k).toNat

/-- The address-register update of a memory operand (R142). -/
def Leaf.memUpd (l : Leaf) (a : Nat) (post : Bool) (k : Int) : Leaf :=
  if post then l.putA a (postInc (l.rdA a) (l.rdAmod a) k) else l

/-- Where a Leaf address leads (Table 4.4). -/
inductive Place where
  /-- Local data memory, at a debug-window address. -/
  | loc (k : Nat)
  /-- The cup port, at its offset. -/
  | port (o : Nat)
  /-- Shared data memory of Pot `p`, at a debug-window address. -/
  | shared (p k : Nat)
  | none
  deriving DecidableEq, Repr

/-- Debug-window address of a byte of Leaf data memory (Table 4.5). -/
def leafMem (n o : Nat) : Nat := 0x1000000 + n * 0x8000 + o
/-- Debug-window address of a byte of Pot program memory. -/
def progMem (p o : Nat) : Nat := 0x1200000 + p * 0x40000 + o
/-- Debug-window address of a byte of Pot shared data memory. -/
def potMem (p o : Nat) : Nat := 0x1400000 + p * 0x80000 + o

/-- The map of Table 4.4 for Leaf `n`. -/
def placeOf (n a : Nat) : Place :=
  if a < 0x8000 then .loc (leafMem n a)
  else if 0x10000 ≤ a ∧ a < 0x10100 then .port (a - 0x10000)
  else if 0x80000 ≤ a ∧ a < 0x100000 then .shared (n / 8) (potMem (n / 8) (a - 0x80000))
  else if 0x1000000 ≤ a ∧ a < 0x1400000 then .shared ((a - 0x1000000) / 0x80000) (potMem 0 (a - 0x1000000))
  else .none

/-- The access faults of R123: no such address, misaligned, or a Pot that is absent or unpowered; a stepped access also
faults on a Pot whose Leaves are not all in HALT or QUAR (R134). -/
def Chip.accessFault (c : Chip) (n a w : Nat) (step : Bool) : Bool :=
  decide (a % w ≠ 0) ||
  match placeOf n a with
  | .none => true
  | .shared p _ =>
    decide ((c.pot p).state = 0) ||
      (step && !(List.range 8).all (fun i => decide ((c.leaf (8 * p + i)).state = 1 ∨ (c.leaf (8 * p + i)).state = 3)))
  | _ => false

end Sys2Proof.Machine
end

