-- ==== Sys2Proof/Machine/Flags.lean ====
section
/-!
DEFINITION. The arithmetic of a Leaf with the flags it sets (R110 to R112): saturation to 32, 16 and 72 bits, signed
reading of the operands, the search step (R148).
-/

namespace Sys2Proof.Machine

/-- sat32: the value and the flags it sets. -/
def sat32 (v : Int) : Word × Nat := (wOf (satI 32 v), if satI 32 v = v then 0 else flgSAT)

/-- sat16, as `stsh` uses it. -/
def sat16 (v : Int) : Word × Nat := (wOf (satI 16 v), if satI 16 v = v then 0 else flgSAT)

/-- sat72. -/
def sat72 (v : Int) : Acc × Nat := (BitVec.ofInt 72 (satI 72 v), if satI 72 v = v then 0 else flgASAT)

/-- `nrm`: bits from bit 30 downward that equal bit 31, counted until the first that differs. -/
def nrmCount (x : Word) : Nat :=
  ((List.range 31).takeWhile (fun i => decide (bit x (30 - i) = bit x 31))).length

/-- One step of a minimum or maximum search on an accumulator (R148). -/
def searchStep (maxi : Bool) (a : Acc) (x : Word) : Acc × Nat :=
  let cnt := a.toNat / 2 ^ 48 % 2 ^ 16
  let idx := a.toNat / 2 ^ 32 % 2 ^ 16
  let v := BitVec.ofNat 32 a.toNat
  if cnt = 0xFFFF then (a, flgASAT)
  else
    let better := decide (cnt = 0) ||
      (if maxi then decide (v.toInt < x.toInt) else decide (x.toInt < v.toInt))
    let v' := if better then x else v
    let idx' := if better then cnt else idx
    (BitVec.ofNat 72 ((cnt + 1) * 2 ^ 48 + idx' * 2 ^ 32 + v'.toNat), 0)

end Sys2Proof.Machine
end

