-- ==== Sys2Proof/Machine/LeafState.lean ====
section
/-!
DEFINITION. Leaf and Pot states: the queue of a Pot, leaving RUN, abandonment of cups (R166, R167), the entry of a Leaf
into QUAR (R131) and of a Pot into QUAR (R178), and the landing of a bundle's results.
-/

namespace Sys2Proof.Machine

/-- Base address of the AXIS page of an axis. -/
def axPg (a : Nat) : Nat := 0x100000 + 0x1000 * a

/-- Status bits of an axis (Table 7.11): FS, STALLED, ORPHAN, HOLD. -/
def Chip.axStalled (c : Chip) (a : Nat) : Bool := c.rb (AXIS.STAT a) 30
def Chip.axOrphan (c : Chip) (a : Nat) : Bool := c.rb (AXIS.STAT a) 29

/-- Rank of a cup's order in a queue (R157). -/
def CupKind.rank : CupKind → Nat
  | .cross => 0
  | .rerun => 1
  | .plain => 2

/-- A cup stands ahead of another in a queue (R157). -/
def Cup.ahead (x y : Cup) : Bool :=
  decide (x.kind.rank < y.kind.rank ∨ x.kind.rank = y.kind.rank ∧ x.seq < y.seq)

/-- Place a cup in a queue at the place its order gives it. -/
def insertCup (x : Cup) : List Cup → List Cup
  | [] => [x]
  | y :: q => if x.ahead y then x :: y :: q else y :: insertCup x q

/-- A cup of the axis from an earlier tick has not completed (R157). -/
def Chip.earlier (c : Chip) (x : Cup) : Bool :=
  let before := fun y : Cup => decide (y.axis = x.axis ∧ y.tick.toNat < x.tick.toNat)
  (List.range 8).any (fun p => (c.pot p).queue.any before) ||
  (List.range 64).any (fun n =>
    (match (c.leaf n).cup with | some r => before r.cup | none => false) ||
    (match (c.leaf n).assigned with | some r => before r.cup | none => false))

/-- The takeable cups of Pot `p` in the order of its queue (R157). -/
def Chip.takeable (c : Chip) (p : Nat) : List Cup :=
  let t := c.pot p
  if t.state = 0 ∨ (t.state = 2 ∧ t.qcause = 3) then [] else t.queue.filter (fun x => !c.earlier x)

/-- PEAK of a Pot (Table 6.11). -/
def Chip.potPeak (c : Chip) (p : Nat) : Chip :=
  let n := min 255 (c.takeable p).length
  if c.rf (POT.QLEN p) 23 16 < n then c.setF (POT.QLEN p) 23 16 n else c

/-- A cup enters the queue of Pot `p`. -/
def Chip.enqueue (c : Chip) (p : Nat) (x : Cup) : Chip :=
  (c.modPot p (fun t => { t with queue := insertCup x t.queue })).potPeak p

/-- The order number of the next cup appended. -/
def Chip.nextCupSeq (c : Chip) : Chip × Nat := ({ c with cupSeq := c.cupSeq + 1 }, c.cupSeq)

/-- A slow cup returns to the head of its home Pot's slow queue (R171).  What it had in flight is dropped: it starts again with
bank B cleared (DESIGN CHOICE, log 69). -/
def Chip.returnSlow (c : Chip) (n : Nat) : Chip :=
  match (c.leaf n).slow with
  | none => c
  | some w =>
    (c.modPot w.home (fun t => { t with slowQ := w :: t.slowQ })).modLeaf n
      (fun l => if l.bankB then
        { l with
          slow := none, slowStd := false, bankB := false, flight := [], cur := [], usedX := false, usedY := false, delay := 0,
          redir := none, branch := none, endReq := false }
      else { l with slow := none, slowStd := false })

/-- A cup assigned to a Leaf that leaves RUN before it enters returns to the queue it was taken from (R158). -/
def Chip.returnAssigned (c : Chip) (n : Nat) : Chip :=
  match (c.leaf n).assigned with
  | none => c
  | some r => (c.enqueue r.fromPot r.cup).modLeaf n (fun l => { l with assigned := none })

/-- A Leaf leaves RUN: its slow cup is abandoned and a cup not yet entered goes back. -/
def Chip.leaveRun (c : Chip) (n : Nat) : Chip := (c.returnSlow n).returnAssigned n

/-- The axis of an overrun cup is stalled, and its queued cups are removed (R167). -/
def Chip.stall (c : Chip) (a : Nat) : Chip :=
  let c := c.setF (AXIS.STAT a) 30 30 1
  each (List.range 8) (fun p c =>
    if (c.pot p).queue.any (fun x => decide (x.axis = a)) then
      c.modPot p (fun t => { t with queue := t.queue.filter (fun x => decide (x.axis ≠ a)) })
    else c) c

/-- Handle the cup abandoned on Leaf `n` by a quarantine with the given cause; `smem` is the Pot that entered QUAR with
SMEM_UE, if that is why (R166, R167). -/
def Chip.abandon (c : Chip) (n cause : Nat) (smem : Option Nat) : Chip :=
  match (c.leaf n).cup with
  | none => c
  | some r =>
    let c := (c.trouble (POT.RERUN r.cup.home)).evt (pgPot r.cup.home) 4
    let c := c.modLeaf n (fun l => { l with cup := none })
    if cause = 3 then c.stall r.cup.axis
    else if smem = some r.cup.home then c
    else
      let (c, q) := c.nextCupSeq
      c.enqueue r.fromPot { r.cup with kind := if r.cup.kind = .cross then .cross else .rerun, seq := q }

/-- Discard the staged and captured writes of one register (R131). -/
def Chip.dropWrites (c : Chip) (a : Nat) : Chip :=
  { c with cm := { c.cm with
      staged := c.cm.staged.filter (fun e => decide (e.1 ≠ a))
      units := (c.cm.units.map (fun u => { u with writes := u.writes.filter (fun e => decide (e.1 ≠ a)) })).filter
        (fun u => !u.writes.isEmpty || (match u.kind with | .group _ | .auto => false | _ => true)) } }

/-- Base address of a LEAF page. -/
def lfPg (n : Nat) : Nat := 0x20000 + 0x1000 * n

/-- No Leaf of the chip is in RUN while a cup is queued: the head declares the fault NO_LEAF (R168). -/
def Chip.noLeaf (c : Chip) : Chip :=
  if (List.range 8).any (fun p => !(c.pot p).queue.isEmpty) && (List.range 64).all (fun n => decide ((c.leaf n).state ≠ 2)) then
    c.declareFault 1
  else c

/-- A Leaf enters QUAR (R131).  By a hardware cause it also drops the results in flight and the cup write buffer and
abandons its cup. -/
def Chip.quarLeaf (c : Chip) (n cause : Nat) (hw : Bool) (smem : Option Nat) : Chip :=
  let l := c.leaf n
  let dropped := match l.cup with
    | some r => if hw then some r.cup.axis else none
    | none => none
  let c := if hw then c.abandon n cause smem else c
  let c := c.leaveRun n
  let c := c.modLeaf n (fun l => { l with
    state := 3, qcause := cause, quarReq := none, quarArmed := false, halting := false,
    flight := if hw then [] else l.flight, cur := [], usedX := false, usedY := false,
    wbuf := if hw then [] else l.wbuf, branch := none, endReq := false, delay := 0, redir := none,
    bankB := false })
  let c := (c.setF (pgCtrl (lfPg n)) 0 0 0).dropWrites (pgCtrl (lfPg n))
  let c := c.setN (LEAF.QTICK n) c.tickNo
  let c := c.setN (LEAF.QAXIS n) (match dropped with | some a => 0x80000000 + a | none => 0)
  (c.evt (lfPg n) 0).when (decide (l.state = 2)) Chip.noLeaf

/-- A Leaf in RUN halts (Table 4.7).  A host quarantine that still waits is forgotten with it: which of the two prevails at one T0 is not
stated (DESIGN CHOICE, log 70). -/
def Chip.haltLeaf (c : Chip) (n : Nat) : Chip :=
  ((c.leaveRun n).modLeaf n (fun l => { l with state := 1, halting := false, quarReq := none, quarArmed := false })).noLeaf

/-- What follows for a Leaf in RUN when it runs no cup: a host quarantine that has been armed at a T0, or a halt
(Table 4.7). -/
def Chip.settleLeaf (c : Chip) (n : Nat) : Chip :=
  let l := c.leaf n
  if l.state = 2 ∧ l.cup.isNone then
    match l.quarReq with
    | some q => if l.quarArmed then c.quarLeaf n q false none
                else if l.halting && !c.en (lfPg n) then c.haltLeaf n else c
    | none => if l.halting && !c.en (lfPg n) then c.haltLeaf n else c
  else c

/-- Axes homed on Pot `p`. -/
def Chip.homedOn (c : Chip) (p : Nat) : List Nat := below c.nAxes (fun a => decide (c.rf (AXIS.PLACE a) 2 0 = p))

/-- A cup that is dropped on its Leaf: its buffer is discarded, and a suspended slow cup resumes (R178). -/
def Leaf.dropCup (l : Leaf) : Leaf :=
  { l with
    cup := none, wbuf := [], flight := [], cur := [], usedX := false, usedY := false, bankB := l.slow.isSome, delay := 0, redir := none, branch := none,
    endReq := false }

/-- A slow cup that is dropped on its Leaf, in bank B or suspended behind a cup (R178). -/
def Leaf.dropSlow (l : Leaf) : Leaf :=
  if l.bankB then
    { l with
      slow := none, slowStd := false, bankB := false, flight := [], cur := [], usedX := false, usedY := false, delay := 0, redir := none, branch := none,
      endReq := false }
  else { l with slow := none, slowStd := false }

/-- The consequences of SMEM_UE of Pot `p`: its axes are orphaned and have no cup in the tick, their running cups are dropped
wherever they run, those not yet entered go back to a queue from which none is taken, and the slow cups whose areas lie there are dropped (R156,
R178).  A cup dropped on the Leaf of another Pot counts in no POT.RERUN (DESIGN CHOICE, log 97). -/
def Chip.smemLost (c : Chip) (p : Nat) : Chip :=
  let lost := c.homedOn p
  let c := each lost (fun a c =>
    let c := c.modAx a (fun x => { x with lost := true })
    if c.axOrphan a then c else (c.setF (AXIS.STAT a) 29 29 1).evt (pgPot p) 3) c
  let c := each (below 16 (fun g => !(c.seg g).waiting.isEmpty)) (fun g c =>
    c.modSeg g (fun s => { s with waiting := s.waiting.filter (fun a => !lost.contains a) })) c
  let c := c.modPot p (fun t => { t with slowQ := [], slowDone := [] })
  let c := each (List.range 64) (fun n c =>
    match (c.leaf n).slow with
    | some w => if w.home = p then c.modLeaf n Leaf.dropSlow else c
    | none => c) c
  let c := each (List.range 64) (fun n c =>
    match (c.leaf n).assigned with
    | some r => if r.cup.home = p then c.returnAssigned n else c
    | none => c) c
  each (List.range 64) (fun n c =>
    match (c.leaf n).cup with
    | some r => if r.cup.home = p then (c.modLeaf n Leaf.dropCup).settleLeaf n else c
    | none => c) c

/-- A Pot enters QUAR, or takes a more severe cause (R178). -/
def Chip.quarPot (c : Chip) (p cause : Nat) : Chip :=
  let t := c.pot p
  if t.state = 0 ∨ (t.state = 2 ∧ cause ≤ t.qcause) then c
  else
    let fresh := decide (t.state = 1)
    let c := c.modPot p (fun t => { t with state := 2, qcause := cause })
    let c := if fresh then (c.setN (POT.QTICK p) c.tickNo).evt (pgPot p) 0 else c
    let c := each (List.range 8) (fun i c =>
      let n := 8 * p + i
      let s := (c.leaf n).state
      if cause = 1 then
        if s = 1 then c.quarLeaf n 5 false none
        else if s = 2 then c.modLeaf n (fun l => { l with quarReq := some 5, quarArmed := false })
        else c
      else if s = 1 ∨ s = 2 then c.quarLeaf n 5 true (if cause = 3 then some p else none)
      else c) c
    if cause = 3 then c.smemLost p else c

/-! ### Errors of the memories -/

/-- Doublewords the cup write buffer holds. -/
def Leaf.wbufDw (l : Leaf) : List Nat := (l.wbuf.map (fun e => e.1 / 8)).dedup

/-- The error of the SECDED word that holds an address: the words of Leaf data memory are 4 bytes, of Pot memories 8
(R125, R178). -/
def Chip.eccAt (c : Chip) (k w : Nat) : Option Bool :=
  match c.ecc.find? (fun e => decide (e.1 / w = k / w)) with
  | some e => some e.2
  | none => none

/-- Remove the error of a word: it was written back, or written anew. -/
def Chip.eccClear (c : Chip) (k w : Nat) : Chip := { c with ecc := c.ecc.filter (fun e => !decide (e.1 / w = k / w)) }

/-- An access of `n` bytes at `k` reaches a word of `w` bytes with an error of the kind. -/
def Chip.meets (c : Chip) (k n w : Nat) (double : Bool) : Bool :=
  c.ecc.any (fun e => decide (k / w ≤ e.1 / w ∧ e.1 / w ≤ (k + n - 1) / w) && decide (e.2 = double))

/-- The single-bit errors of the words that an access reaches are corrected, written back and counted. -/
def Chip.correct (c : Chip) (k n w count : Nat) : Chip :=
  (c.ecc.filter (fun e => decide (k / w ≤ e.1 / w ∧ e.1 / w ≤ (k + n - 1) / w) && !e.2)).foldl
    (fun c e => (c.eccClear e.1 w).trouble count) c

/-- The words that an access writes whole have new check bits. -/
def Chip.eccFree (c : Chip) (k n w : Nat) : Chip :=
  { c with ecc := c.ecc.filter (fun e => !decide (k ≤ e.1 / w * w ∧ e.1 / w * w + w ≤ k + n)) }

/-! ### The instruction cache (R126) -/

/-- The cache line of a bundle: lines are numbered through the 256 KiB of program memory, 8 bundles each (R126). -/
def icLine (bundle : Nat) : Nat := bundle % 2 ^ 15 / 8

/-- The lines that the set of a line holds, the one used last first. -/
def Leaf.icSet (l : Leaf) (line : Nat) : List Nat := Tab.get (fun _ => []) l.icache (line % 64)

/-- The instruction cache holds a line. -/
def Leaf.icHolds (l : Leaf) (line : Nat) : Bool := (l.icSet line).contains line

/-- A line enters its set in place of the one used least recently, if the set is full, or is used anew (R126). -/
def Leaf.icUse (line : Nat) (l : Leaf) : Leaf :=
  { l with icache := Tab.set (fun _ => []) l.icache (line % 64) ((line :: (l.icSet line).filter (fun x => decide (x ≠ line))).take 4) }

/-- The line of the bundle that issues is used. -/
def Leaf.icTouch (l : Leaf) : Leaf := if l.icHolds (icLine l.pc) then l.icUse (icLine l.pc) else l

/-- A line is invalidated. -/
def Leaf.icDrop (line : Nat) (l : Leaf) : Leaf :=
  { l with icache := Tab.set (fun _ => []) l.icache (line % 64) ((l.icSet line).filter (fun x => decide (x ≠ line))) }

/-! ### Landing -/

/-- Land a list of results on Leaf `n`, with the page events and performance events of the flags they set. -/
def Chip.landList (c : Chip) (n : Nat) (xs : List Flight) : Chip :=
  let m := xs.foldl (fun m x => if x.item = .flagSet then Nat.lor m x.val else m) 0
  let c := c.modLeaf n (fun l => l.landAll xs)
  let c := c.when (m.testBit 2) (fun c => (c.evt (lfPg n) 1).perfLeaf n 0x1E 1)
  let c := c.when (m.testBit 4) (fun c => c.evt (lfPg n) 3)
  let c := c.when (m.testBit 0) (fun c => c.perfLeaf n 0x1C 1)
  c.when (m.testBit 1) (fun c => c.perfLeaf n 0x1D 1)

/-- Land everything in flight: the drain (R120). -/
def Chip.drain (c : Chip) (n : Nat) : Chip :=
  let xs := (c.leaf n).flight
  (c.modLeaf n (fun l => { l with flight := [] })).landList n xs

/-- The results of a bundle, with the register clash of R103: where both slots write one register the slot X result is
discarded and ILL is set.  Where a slow cup writes one unbanked register from both slots, each write is discarded with BGREG (R116) and
none is left to clash: ILL is not set (DESIGN CHOICE, log 71). -/
def Leaf.bundleResults (l : Leaf) : List Flight :=
  let ys := l.cur.filter (fun x => x.slotY)
  let clash := fun x : Flight => !x.slotY && ys.any (fun y => decide (y.item = x.item)) &&
    (match x.item with | .flagClr | .flagSet => false | _ => true)
  let kept := l.cur.filter (fun x => !clash x)
  if l.cur.any clash then kept ++ [⟨l.bankB, .flagSet, flgILL, l.bx + 3, true⟩] else kept

/-- Control passes to the next bundle: sequential, or the target of a branch after its two delay bundles (R104, R145). -/
def Leaf.advance (l : Leaf) : Leaf :=
  let next := (l.pc + 1) % 2 ^ 15
  let setPc := fun (l : Leaf) (v : Nat) =>
    if l.bankB then { l with b := { l.b with pc := v } } else { l with f := { l.f with pc := v } }
  match l.branch with
  | some t => { setPc l next with branch := none, delay := 2, redir := t }
  | none =>
    if l.delay = 0 then setPc l next
    else if l.delay = 1 then
      match l.redir with
      | some t => { setPc l t with delay := 0, redir := none }
      | none => { setPc l next with delay := 0 }
    else { setPc l next with delay := l.delay - 1 }

end Sys2Proof.Machine
end

