-- ==== Sys2Proof/Machine/LeafX.lean ====
section
/-!
DEFINITION. Issue of a Leaf's bundles, and the slot X instructions that touch registers only: Tables 5.3, 5.4 and 5.6
(R140, R141, R143 to R146).

A command is one slot instruction of the bundle that the Leaf now issues; `last` ends the bundle.
-/

namespace Sys2Proof.Machine

/-- Leaf `n` can issue: in RUN, in a cup that has not ended or in a slow cup, whose code is not the standard image. -/
def Leaf.canIssue (l : Leaf) : Bool :=
  decide (l.state = 2) &&
  (if l.bankB then l.slow.isSome && !l.slowStd
   else match l.cup with
     | some r => !r.ended && !r.std
     | none => false)

/-- A slot of the bundle now issuing has its instruction (R100): slot Y, or slot X. -/
def Leaf.used (l : Leaf) (y : Bool) : Bool := if y then l.usedY else l.usedX

/-- A slot takes its instruction. -/
def Leaf.use (y : Bool) (l : Leaf) : Leaf := if y then { l with usedY := true } else { l with usedX := true }

/-- The end of a slow cup: every result in flight lands before FLAG_SUM takes its flags, as at the end of a cup, for which alone the spec
gives a drain (DESIGN CHOICE, log 72), and the slow cup waits for publication (R113, R170, R172). -/
def Chip.slowEnd (c : Chip) (n : Nat) : Chip :=
  match (c.leaf n).slow with
  | none => c
  | some w =>
    let c := c.drain n
    let c := c.raise (LEAF.FLAG_SUM n) ((c.leaf n).b.flg)
    let c := c.modLeaf n (fun l => { l with slow := none, slowStd := false, bankB := false, delay := 0, redir := none })
    let c := if w.taken then c else c.modPot w.home (fun t => { t with slowDone := t.slowDone ++ [w] })
    c.perfLeaf n 0x12 1

/-- The end of the bundle that issues: its results join those in flight, the next bundle begins and what is due
becomes visible (R101 to R104); a bundle with `end` ends the cup or the slow cup (R146). -/
def Chip.closeBundle (c : Chip) (n : Nat) : Chip :=
  let l := c.leaf n
  let all := l.flight ++ l.bundleResults
  let bx := l.bx + 1
  let due := all.filter (fun x => decide (x.vis ≤ bx))
  let rest := all.filter (fun x => !decide (x.vis ≤ bx))
  let ending := l.endReq
  let c := c.modLeaf n (fun l => { (l.icTouch).advance with
    flight := rest, cur := [], bx := bx, endReq := false, usedX := false, usedY := false, issued := true
    stall := if ending then 8 else 5, rel := 0 })
  let c := (c.landList n due).perfLeaf n 0x03 1
  -- a slot that has no instruction of its own issued `nop`
  let c := c.perfLeaf n 0x21 (b2n (l.state = 2 && !l.usedX) + b2n (l.state = 2 && !l.usedY))
  let c := c.perfLeaf n 0x1A (match l.branch with | some (some _) => 1 | _ => 0)
  if ending then
    if l.bankB then c.slowEnd n
    else (c.drain n).modLeaf n (fun l => { l with cup := l.cup.map (fun r => { r with ended := true }) })
  else c

/-- Issue one instruction of slot X, or of slot Y, on Leaf `n` and close the bundle with its last one.  A bundle holds one instruction for
each slot (R100): a command for a slot that has its instruction is none of this bundle's and changes nothing (log 74). -/
def Chip.issue (c : Chip) (n : Nat) (y last wasted : Bool) (f : Chip → Chip) : Chip :=
  if (c.leaf n).canIssue && !(c.leaf n).used y then
    let c := ((f c).perfLeaf n (if wasted then 0x21 else 0x20) 1).modLeaf n (Leaf.use y)
    if last then c.closeBundle n else c
  else c

/-- A slot X instruction that touches the Leaf's registers only. -/
def State.slot (s : State) (n : Nat) (last : Bool) (f : Leaf → Leaf) : Res :=
  .next (s.onChip (fun c => c.issue n false last false (fun c => c.modLeaf n f)))

/-- A slot instruction that executes as a no-operation where `w` holds, and sets ILL there. -/
def State.slotOr (s : State) (n : Nat) (last : Bool) (w : Leaf → Bool) (slotY : Bool) (f : Leaf → Leaf) : Res :=
  .next (s.onChip (fun c => c.issue n slotY last (w (c.leaf n))
    (fun c => c.modLeaf n (fun l => if w l then l.setFlags slotY flgILL else f l))))

/-! ### Shared forms -/

/-- gd := f(x, y), wrapping or without flags. -/
def opRR (f : Word → Word → Word) (gd gs gt : Nat) (l : Leaf) : Leaf := l.putG false 1 gd (f (l.rdG gs) (l.rdG gt))

/-- gd := sat32 of an exact result. -/
def opSat (f : Int → Int → Int) (gd gs gt : Nat) (l : Leaf) : Leaf :=
  let r := sat32 (f (l.rdG gs).toInt (l.rdG gt).toInt)
  (l.putG false 1 gd r.1).setFlags false r.2

/-- gd := f(x) with an immediate. -/
def opRI (f : Word → Word) (gd gs : Nat) (l : Leaf) : Leaf := l.putG false 1 gd (f (l.rdG gs))

/-- gd := sat32 of an exact result of x. -/
def opRISat (f : Int → Int) (gd gs : Nat) (l : Leaf) : Leaf :=
  let r := sat32 (f (l.rdG gs).toInt)
  (l.putG false 1 gd r.1).setFlags false r.2

/-- A 16-bit immediate, sign-extended. -/
def sextK (k : Nat) : Word := wOf (signedN 16 k)

/-- seln and selz: a write only where the condition holds (R140). -/
def opSel (z : Bool) (gd gs gt : Nat) (l : Leaf) : Leaf :=
  if decide (l.rdG gt = 0#32) = z then l.putG false 1 gd (l.rdG gs) else l

/-- A control register as `mfc` reads it (R109, R143). -/
def Chip.ctrlReg (c : Chip) (tb : TimeBase) (n r : Nat) : Word :=
  let l := c.leaf n
  match r with
  | 0 => l.rdFlg
  | 1 => BitVec.ofNat 32 n
  | 2 => BitVec.ofNat 32 (tb.cycle - l.runSince)
  | 3 => if c.tg.running then BitVec.ofNat 32 (c.ofs tb % 2 ^ 18) else 0#32
  | _ => if 4 ≤ r ∧ r ≤ 11 then l.rdAmod (r - 4) else 0#32

/-- `mtc`: clears of FLG and the modulo registers (R143). -/
def opMtc (r gs : Nat) (l : Leaf) : Leaf :=
  if r = 0 then l.put false 1 .flagClr ((l.rdG gs).toNat % 32)
  else if 4 ≤ r ∧ r ≤ 11 then l.putAmod (r - 4) (l.rdG gs)
  else l

/-- A branch in a delay bundle executes as a no-operation (R104). -/
def Leaf.inDelay (l : Leaf) : Bool := decide (0 < l.delay)

/-- A branch: its bundle is followed by two delay bundles; it is taken or not (R145). -/
def opBranch (taken : Leaf → Bool) (target : Leaf → Nat) (l : Leaf) : Leaf :=
  { l with branch := some (if taken l then some (target l) else none) }

/-- Target of an XB branch. -/
def xbTarget (disp : Nat) (l : Leaf) : Nat := (((l.pc : Int) + signedN 16 disp) % 2 ^ 15).toNat

/-- A conditional branch. -/
def opXB (p : Word → Word → Bool) (gs gt disp : Nat) (l : Leaf) : Leaf :=
  opBranch (fun l => p (l.rdG gs) (l.rdG gt)) (xbTarget disp) l

/-- `dbnz`: the register is decremented, and the branch is on the result (R145). -/
def opDbnz (gs disp : Nat) (l : Leaf) : Leaf :=
  opBranch (fun _ => decide (l.rdG gs - 1#32 ≠ 0#32)) (xbTarget disp) (l.putG false 1 gs (l.rdG gs - 1#32))

/-- `jal`: the link index is that of the first bundle after the delay bundles (R145). -/
def opJal (gd target : Nat) (l : Leaf) : Leaf :=
  opBranch (fun _ => true) (fun _ => target) (l.putG false 1 gd (BitVec.ofNat 32 ((l.pc + 3) % 2 ^ 15)))

/-- `end` (R146). -/
def opEnd (l : Leaf) : Leaf := { l with endReq := true }

/-- Which operation an XR function code names, with its effect; `none` for a code not listed (R140). -/
def opXR (c : Chip) (tb : TimeBase) (n : Nat) (func gd gs gt sh : Nat) : Option (Leaf → Leaf) :=
  match func with
  | 0x00 => some (opRR (· + ·) gd gs gt)
  | 0x01 => some (opRR (· - ·) gd gs gt)
  | 0x02 => some (opSat (· + ·) gd gs gt)
  | 0x03 => some (opSat (· - ·) gd gs gt)
  | 0x04 => some (opRR (· &&& ·) gd gs gt)
  | 0x05 => some (opRR (· ||| ·) gd gs gt)
  | 0x06 => some (opRR (· ^^^ ·) gd gs gt)
  | 0x08 => some (opRR (fun x y => x <<< (y.toNat % 32)) gd gs gt)
  | 0x09 => some (opRR (fun x y => x >>> (y.toNat % 32)) gd gs gt)
  | 0x0A => some (opRR (fun x y => x.sshiftRight (y.toNat % 32)) gd gs gt)
  | 0x0B => some (opRI (fun x => x <<< sh) gd gs)
  | 0x0C => some (opRI (fun x => x >>> sh) gd gs)
  | 0x0D => some (opRI (fun x => x.sshiftRight sh) gd gs)
  | 0x0E => some (opRR (fun x y => b2w (decide (x.toInt < y.toInt))) gd gs gt)
  | 0x0F => some (opRR (fun x y => b2w (decide (x.toNat < y.toNat))) gd gs gt)
  | 0x10 => some (opRISat (fun x => (x.natAbs : Int)) gd gs)
  | 0x11 => some (opRISat (fun x => -x) gd gs)
  | 0x12 => some (opRI (fun x => BitVec.ofNat 32 (nrmCount x)) gd gs)
  | 0x13 => some (opSel false gd gs gt)
  | 0x14 => some (opSel true gd gs gt)
  | 0x15 => some (opRISat (fun x => x * 2 ^ sh) gd gs)
  | 0x18 => some (fun l => l.putG false 1 gd (c.ctrlReg tb n gt))
  | 0x19 => some (opMtc gd gs)
  | 0x1A => some (fun l => l.putA (gd % 8) (l.rdG gs))
  | 0x1B => some (fun l => l.putG false 1 gd (l.rdA (gs % 8)))
  | _ => none

/-- Which operation an XI opcode names (R141). -/
def opXI (op gd gs k : Nat) : Option (Leaf → Leaf) :=
  match op with
  | 0x01 => some (opRI (fun x => x + sextK k) gd gs)
  | 0x02 => some (opRISat (fun x => x + signedN 16 k) gd gs)
  | 0x03 => some (opRI (fun x => x &&& BitVec.ofNat 32 k) gd gs)
  | 0x04 => some (opRI (fun x => x ||| BitVec.ofNat 32 k) gd gs)
  | 0x05 => some (opRI (fun x => x ^^^ BitVec.ofNat 32 k) gd gs)
  | 0x06 => some (fun l => l.putG false 1 gd (BitVec.ofNat 32 (k * 2 ^ 16)))
  | 0x07 => some (opRI (fun x => b2w (decide (x.toInt < signedN 16 k))) gd gs)
  | 0x08 => some (opRI (fun x => b2w (decide (x.toNat < (sextK k).toNat))) gd gs)
  | 0x09 => some (fun l => l.putA (gd % 8) (l.rdA (gs % 8) + sextK k))
  | 0x0A => some (fun l => l.putA (gd % 8) (postInc (l.rdA (gd % 8)) (l.rdAmod (gd % 8)) (signedN 16 k)))
  | _ => none

/-! ### The instructions -/

/-- `add` (R140). -/
def execAdd (n gd gs gt : Nat) (last : Bool) (s : State) : Res := s.slot n last (opRR (· + ·) gd gs gt)
/-- `sub` (R140). -/
def execSub (n gd gs gt : Nat) (last : Bool) (s : State) : Res := s.slot n last (opRR (· - ·) gd gs gt)
/-- `adds` (R140). -/
def execAdds (n gd gs gt : Nat) (last : Bool) (s : State) : Res := s.slot n last (opSat (· + ·) gd gs gt)
/-- `subs` (R140). -/
def execSubs (n gd gs gt : Nat) (last : Bool) (s : State) : Res := s.slot n last (opSat (· - ·) gd gs gt)
/-- `and` (R140). -/
def execAnd (n gd gs gt : Nat) (last : Bool) (s : State) : Res := s.slot n last (opRR (· &&& ·) gd gs gt)
/-- `or` (R140). -/
def execOr (n gd gs gt : Nat) (last : Bool) (s : State) : Res := s.slot n last (opRR (· ||| ·) gd gs gt)
/-- `xor` (R140). -/
def execXor (n gd gs gt : Nat) (last : Bool) (s : State) : Res := s.slot n last (opRR (· ^^^ ·) gd gs gt)
/-- `sll` by y[4:0] (R140). -/
def execSll (n gd gs gt : Nat) (last : Bool) (s : State) : Res :=
  s.slot n last (opRR (fun x y => x <<< (y.toNat % 32)) gd gs gt)
/-- `srl` by y[4:0] (R140). -/
def execSrl (n gd gs gt : Nat) (last : Bool) (s : State) : Res :=
  s.slot n last (opRR (fun x y => x >>> (y.toNat % 32)) gd gs gt)
/-- `sra` by y[4:0] (R140). -/
def execSra (n gd gs gt : Nat) (last : Bool) (s : State) : Res :=
  s.slot n last (opRR (fun x y => x.sshiftRight (y.toNat % 32)) gd gs gt)
/-- `slli` (R140). -/
def execSlli (n gd gs sh : Nat) (last : Bool) (s : State) : Res := s.slot n last (opRI (fun x => x <<< sh) gd gs)
/-- `srli` (R140). -/
def execSrli (n gd gs sh : Nat) (last : Bool) (s : State) : Res := s.slot n last (opRI (fun x => x >>> sh) gd gs)
/-- `srai` (R140). -/
def execSrai (n gd gs sh : Nat) (last : Bool) (s : State) : Res :=
  s.slot n last (opRI (fun x => x.sshiftRight sh) gd gs)
/-- `slt`, signed (R140). -/
def execSlt (n gd gs gt : Nat) (last : Bool) (s : State) : Res :=
  s.slot n last (opRR (fun x y => b2w (decide (x.toInt < y.toInt))) gd gs gt)
/-- `sltu`, unsigned (R140). -/
def execSltu (n gd gs gt : Nat) (last : Bool) (s : State) : Res :=
  s.slot n last (opRR (fun x y => b2w (decide (x.toNat < y.toNat))) gd gs gt)
/-- `abss` (R140). -/
def execAbss (n gd gs : Nat) (last : Bool) (s : State) : Res := s.slot n last (opRISat (fun x => (x.natAbs : Int)) gd gs)
/-- `negs` (R140). -/
def execNegs (n gd gs : Nat) (last : Bool) (s : State) : Res := s.slot n last (opRISat (fun x => -x) gd gs)
/-- `nrm` (R140). -/
def execNrm (n gd gs : Nat) (last : Bool) (s : State) : Res :=
  s.slot n last (opRI (fun x => BitVec.ofNat 32 (nrmCount x)) gd gs)
/-- `seln`: a write where the condition register is not zero (R140). -/
def execSeln (n gd gs gt : Nat) (last : Bool) (s : State) : Res := s.slot n last (opSel false gd gs gt)
/-- `selz`: a write where the condition register is zero (R140). -/
def execSelz (n gd gs gt : Nat) (last : Bool) (s : State) : Res := s.slot n last (opSel true gd gs gt)
/-- `sllsi` (R140). -/
def execSllsi (n gd gs sh : Nat) (last : Bool) (s : State) : Res := s.slot n last (opRISat (fun x => x * 2 ^ sh) gd gs)
/-- `mfc` (R143). -/
def execMfc (n gd r : Nat) (last : Bool) (s : State) : Res :=
  s.slot n last (fun l => l.putG false 1 gd (s.chip.ctrlReg s.tb n r))
/-- `mtc` (R143, R144). -/
def execMtc (n r gs : Nat) (last : Bool) (s : State) : Res := s.slot n last (opMtc r gs)
/-- `ga` (R140). -/
def execGa (n ad gs : Nat) (last : Bool) (s : State) : Res := s.slot n last (fun l => l.putA ad (l.rdG gs))
/-- `ag` (R140). -/
def execAg (n gd as : Nat) (last : Bool) (s : State) : Res := s.slot n last (fun l => l.putG false 1 gd (l.rdA as))
/-- `jr` (R145). -/
def execJr (n gs : Nat) (last : Bool) (s : State) : Res :=
  s.slotOr n last Leaf.inDelay false (opBranch (fun _ => true) (fun l => (l.rdG gs).toNat % 2 ^ 15))
/-- `addi` (R141). -/
def execAddi (n gd gs k : Nat) (last : Bool) (s : State) : Res := s.slot n last (opRI (fun x => x + sextK k) gd gs)
/-- `addsi` (R141). -/
def execAddsi (n gd gs k : Nat) (last : Bool) (s : State) : Res :=
  s.slot n last (opRISat (fun x => x + signedN 16 k) gd gs)
/-- `andi` (R141). -/
def execAndi (n gd gs k : Nat) (last : Bool) (s : State) : Res :=
  s.slot n last (opRI (fun x => x &&& BitVec.ofNat 32 k) gd gs)
/-- `ori` (R141). -/
def execOri (n gd gs k : Nat) (last : Bool) (s : State) : Res :=
  s.slot n last (opRI (fun x => x ||| BitVec.ofNat 32 k) gd gs)
/-- `xori` (R141). -/
def execXori (n gd gs k : Nat) (last : Bool) (s : State) : Res :=
  s.slot n last (opRI (fun x => x ^^^ BitVec.ofNat 32 k) gd gs)
/-- `lui` (R141). -/
def execLui (n gd k : Nat) (last : Bool) (s : State) : Res :=
  s.slot n last (fun l => l.putG false 1 gd (BitVec.ofNat 32 (k * 2 ^ 16)))
/-- `slti`, signed (R141). -/
def execSlti (n gd gs k : Nat) (last : Bool) (s : State) : Res :=
  s.slot n last (opRI (fun x => b2w (decide (x.toInt < signedN 16 k))) gd gs)
/-- `sltui`, unsigned against the sign-extended immediate (R141). -/
def execSltui (n gd gs k : Nat) (last : Bool) (s : State) : Res :=
  s.slot n last (opRI (fun x => b2w (decide (x.toNat < (sextK k).toNat))) gd gs)
/-- `aadd`: no modulo correction (R141). -/
def execAadd (n ad as k : Nat) (last : Bool) (s : State) : Res :=
  s.slot n last (fun l => l.putA ad (l.rdA as + sextK k))
/-- `ainc`: the update of a post-increment (R141, R108). -/
def execAinc (n ad k : Nat) (last : Bool) (s : State) : Res :=
  s.slot n last (fun l => l.putA ad (postInc (l.rdA ad) (l.rdAmod ad) (signedN 16 k)))
/-- `b` (R145). -/
def execB (n target : Nat) (last : Bool) (s : State) : Res :=
  s.slotOr n last Leaf.inDelay false (opBranch (fun _ => true) (fun _ => target))
/-- `jal` (R145). -/
def execJal (n gd target : Nat) (last : Bool) (s : State) : Res := s.slotOr n last Leaf.inDelay false (opJal gd target)
/-- `beq` (R145). -/
def execBeq (n gs gt disp : Nat) (last : Bool) (s : State) : Res :=
  s.slotOr n last Leaf.inDelay false (opXB (fun x y => decide (x = y)) gs gt disp)
/-- `bne` (R145). -/
def execBne (n gs gt disp : Nat) (last : Bool) (s : State) : Res :=
  s.slotOr n last Leaf.inDelay false (opXB (fun x y => !decide (x = y)) gs gt disp)
/-- `blt`, signed (R145). -/
def execBlt (n gs gt disp : Nat) (last : Bool) (s : State) : Res :=
  s.slotOr n last Leaf.inDelay false (opXB (fun x y => decide (x.toInt < y.toInt)) gs gt disp)
/-- `bge`, signed (R145). -/
def execBge (n gs gt disp : Nat) (last : Bool) (s : State) : Res :=
  s.slotOr n last Leaf.inDelay false (opXB (fun x y => decide (y.toInt ≤ x.toInt)) gs gt disp)
/-- `bltu`, unsigned (R145). -/
def execBltu (n gs gt disp : Nat) (last : Bool) (s : State) : Res :=
  s.slotOr n last Leaf.inDelay false (opXB (fun x y => decide (x.toNat < y.toNat)) gs gt disp)
/-- `bgeu`, unsigned (R145). -/
def execBgeu (n gs gt disp : Nat) (last : Bool) (s : State) : Res :=
  s.slotOr n last Leaf.inDelay false (opXB (fun x y => decide (y.toNat ≤ x.toNat)) gs gt disp)
/-- `dbnz` (R145). -/
def execDbnz (n gs disp : Nat) (last : Bool) (s : State) : Res := s.slotOr n last Leaf.inDelay false (opDbnz gs disp)
/-- `nop`, in slot X or, where that has its instruction, in slot Y (R136). -/
def execNop (n : Nat) (last : Bool) (s : State) : Res :=
  .next (s.onChip (fun c => c.issue n (c.leaf n).usedX last true (fun c => c)))
/-- An opcode or function code that is not listed: a no-operation that sets ILL (R136). -/
def execReservedOpcode (n : Nat) (slotY last : Bool) (s : State) : Res :=
  s.slotOr n last (fun _ => true) slotY (fun l => l)

end Sys2Proof.Machine
end

