-- ==== Sys2Proof/Machine/Estimator.lean ====
section
/-!
DEFINITION. The speed estimator (R217 to R222), one definition for the cup and for the hardware of the LF block.
-/

namespace Sys2Proof.Machine

/-- Estimator state (Table 8.4). -/
structure Est where
  nPrev : Nat
  agePrev : Nat
  tLast : Nat
  vp : Int
  v : Int
  /-- MTH = COUNT. -/
  count : Bool
  still : Bool
  acq : Bool
  rev : Bool
  dir : Bool
  sat : Bool
  valid : Bool
  fill : Nat
  ring : List Nat
  deriving DecidableEq, Repr

/-- A block of 0: its first step restarts (R229). -/
def Est.zero : Est := ⟨0, 0, 0, 0, 0, false, false, false, false, false, false, false, 0, List.replicate 8 0⟩

/-- The inputs of a step: the sample, the step number and the configuration. -/
structure EstIn where
  n : Nat
  /-- Last-edge word. -/
  w : Nat
  /-- The sample carries CLR, or another rule restarts the estimator (R220). -/
  clr : Bool
  num : Nat
  tper : Nat
  tseen : Nat
  cw : Nat
  vLo : Nat
  vHi : Nat
  stillT : Nat
  deriving DecidableEq, Repr

/-- 256 × 10^9. -/
def estK : Int := 256000000000

/-- sat32 on an exact integer, with whether it clips. -/
def satv (v : Int) : Int × Bool := (satI 32 v, decide (satI 32 v ≠ v))

/-- One step of the estimator: the new state, whether it restarted, and dn (R217, R223). -/
def Est.step (st : Est) (i : EstIn) : Est × Bool × Int :=
  let dirE := decide (2 ^ 31 ≤ i.w)
  let age := max 1 (i.w % 2 ^ 31)
  let win := 2 ^ i.cw
  let dn := signedN 32 (i.n + 2 ^ 32 - st.nPrev)
  let fin := fun (st : Est) (v : Int) (sat : Bool) =>
    let ring := st.ring.set (i.num % 8) i.n
    let fill := min 8 (st.fill + 1)
    let count :=
      if !st.count && decide ((i.vHi : Int) ≤ v.natAbs) && decide (win < fill) then true
      else if st.count && decide ((v.natAbs : Int) < i.vLo) then false
      else st.count
    { st with ring := ring, fill := fill, count := count, nPrev := i.n, agePrev := age, tLast := i.num, v := v, sat := sat }
  if !st.valid || i.clr then
    (fin { st with vp := 0, fill := 0, count := false, still := true, acq := false, rev := false, dir := dirE,
                   valid := true } 0 false, true, dn)
  else
    let gap := (i.num + 2 ^ 32 - st.tLast) % 2 ^ 32
    let ivl := gap * i.tseen
    let edge := decide (age ≤ ivl)
    let st := if gap ≠ 1 ∨ i.tper ≠ i.tseen then { st with fill := 0 } else st
    let cntOk := st.count && decide (win ≤ st.fill)
    let cnt := satv ((signedN 32 (i.n + 2 ^ 32 - st.ring.getD ((i.num + 8 - win % 8) % 8) 0) * estK) / ((win * i.tper : Nat) : Int))
    let st := { st with rev := false }
    if !edge then
      if i.stillT ≤ age then (fin { st with still := true, acq := false, count := false } 0 false, false, dn)
      else if st.still || st.acq then (fin st 0 false, false, dn)
      else if cntOk then (fin st cnt.1 cnt.2, false, dn)
      else
        let b := estK / age
        (fin { st with count := false } (st.vp.sign * min (st.vp.natAbs : Int) b) false, false, dn)
    else if st.still then (fin { st with still := false, acq := true, dir := dirE } 0 false, false, dn)
    else if dirE ≠ st.dir ∨ dn = 0 ∨ dn.sign ≠ (if dirE then -1 else 1) then
      (fin { st with rev := true, acq := false, vp := 0, count := false, dir := dirE } 0 false, false, dn)
    else if cntOk then (fin { st with acq := false } cnt.1 cnt.2, false, dn)
    else
      let span : Int := (st.agePrev + ivl : Nat) - (age : Int)
      let v := satv ((dn * estK) / span)
      (fin { st with vp := v.1, acq := false, count := false } v.1 v.2, false, dn)

/-- The flags of FSTAT, bits [6:0] (Table 8.6). -/
def Est.fstat (st : Est) (rst : Bool) : Nat :=
  b2n st.count + 2 * b2n st.still + 4 * b2n st.acq + 8 * b2n st.rev + 16 * b2n st.dir + 32 * b2n st.sat + 64 * b2n rst

end Sys2Proof.Machine
end

