-- ==== Sys2Proof/Machine/Commit.lean ====
section
/-!
DEFINITION. Staging and capture (R56, R57, R62 to R65, R70 to R72), the header registers of a page (R55 to R61) and the
W1C rule (R432).  The checks and the application of units stand in Units.lean.
-/

namespace Sys2Proof.Machine

/-- Commit group of a page (Table 2.7). -/
def Chip.cgrp (c : Chip) (b : Nat) : Nat := c.rf (pgCtrl b) 11 8

/-- The page commits each write by itself (R71). -/
def Chip.auto (c : Chip) (b : Nat) : Bool := c.rb (pgCtrl b) 4

/-- The page holds staged writes. -/
def Chip.hasStaged (c : Chip) (b : Nat) : Bool := c.cm.staged.any (fun e => decide (pageBase e.1 = b))

/-- A unit holds a write to the page; a reset unit and an FS clear are captured writes of their page (R57, R278). -/
def CUnit.onPage (u : CUnit) (b : Nat) : Bool :=
  u.writes.any (fun e => decide (pageBase e.1 = b)) ||
  (match u.kind with
   | .reset p => decide (p = b)
   | .fsClear a => decide (axPg a = b)
   | _ => false)

/-- The page holds captured writes (Table 2.12). -/
def Chip.hasCaptured (c : Chip) (b : Nat) : Bool := c.cm.units.any (fun u => u.onPage b)

/-- T0s until a request accepted at this instant applies (R65, R72): 1 in the commit window or while a start is pending,
2 in the guard, 0 while no tick runs. -/
def Chip.dueNow (c : Chip) (tb : TimeBase) : Nat :=
  if c.noTick then 0
  else if c.tg.running then (if c.ofs tb < c.guardOpen then 1 else 2)
  else 1

/-- Line nanoseconds (R265). -/
def TimeBase.lns (tb : TimeBase) : Nat := (tb.sec.toNat * 1000000000 + tb.ns) % 2 ^ 32

/-- Enter a unit among those that wait, and in the journal (R350), there with the line nanoseconds of its acceptance. -/
def Chip.addUnit (c : Chip) (tb : TimeBase) (kind : UnitKind) (due : Nat) (ws : Tab (Option Word)) : Chip :=
  let c := c.journal (.unit kind c.cm.seq (BitVec.ofNat 32 tb.lns) ws)
  { c with cm := { c.cm with units := c.cm.units ++ [⟨kind, false, due, c.cm.seq, tb.fast, ws⟩], seq := c.cm.seq + 1 } }

/-- Later captures of a register replace earlier ones in a unit (R66). -/
def mergeWrites (old new : Tab (Option Word)) : Tab (Option Word) :=
  new.foldl (fun t e => Tab.set (fun _ => none) t e.1 e.2) old

/-- Capture for one group: what its pages have staged joins the group's unit of that T0, or makes a new one; nothing
staged captures nothing (R64, R66, R72). -/
def Chip.captureGroup (c : Chip) (tb : TimeBase) (due g : Nat) : Chip :=
  let mine := c.cm.staged.filter (fun e => decide (c.cgrp (pageBase e.1) = g))
  if mine.isEmpty then c
  else
    let rest := c.cm.staged.filter (fun e => !decide (c.cgrp (pageBase e.1) = g))
    let c := { c with cm := { c.cm with staged := rest } }
    let same := fun u : CUnit => decide (u.kind = .group g ∧ u.due = due ∧ u.journal = false) && decide (0 < due)
    if c.cm.units.any same then
      let c := c.journal (.unit (.group g) c.cm.seq (BitVec.ofNat 32 tb.lns) mine)
      { c with cm := { c.cm with units := c.cm.units.map (fun u =>
          if same u then { u with writes := mergeWrites u.writes mine } else u) } }
    else c.addUnit tb (.group g) due mine

/-- A commit request for the groups of a mask (R62, R64). -/
def Chip.commitMask (c : Chip) (tb : TimeBase) (m : Nat) : Chip :=
  each (below 16 (Nat.testBit m)) (fun g c => c.captureGroup tb (c.dueNow tb) g) c

/-- Stage a write, or capture it at once on an AUTO page (R63, R71). -/
def Chip.stage (c : Chip) (tb : TimeBase) (a : Nat) (v : Word) : Chip :=
  if c.auto (pageBase a) then c.addUnit tb .auto (c.dueNow tb) [(a, some v)]
  else { c with cm := { c.cm with staged := Tab.set (fun _ => none) c.cm.staged a (some v) } }

/-- Drop staged writes of a page. -/
def Chip.unstage (c : Chip) (b : Nat) : Chip :=
  { c with cm := { c.cm with staged := c.cm.staged.filter (fun e => !decide (pageBase e.1 = b)) } }

/-- The words of a register that its page's rows list, below the header: every offset of the page that a field of the
given kinds occupies. -/
def rowAddrs (b : Nat) (p : Access → Bool) : List (Nat × Word) :=
  match pageAt b with
  | none => []
  | some q => (q.page.rows.flatMap (fun r =>
      if rowHere q.page.type q.inst r.off && decide (maskOf r.flds p ≠ 0#32) then
        (List.range r.count).map (fun i => (b + r.off + r.stride * i, maskOf r.flds p)) else []))

/-- Bits of a register that show a state which a soft reset of their page does not touch, so that they show it again once the reset has
settled (DESIGN CHOICE, log 18): the line's state, and the schedule and the tenure of a tick that runs; domains, holdover and links; the
retained tenure and starts (R358, R454); what runs on the Kettle; levels of pins and lines. -/
def Chip.keptBits (c : Chip) (type off : Nat) : Word :=
  let all := 0xFFFFFFFF#32
  let live := if c.noTick then 0#32 else all
  match type with
  | 0x02 => if off = 0xC0 then all else if 0x200 ≤ off ∧ off < 0x220 then live else 0#32
  | 0x05 => if off = 0x44 then all else 0#32
  | 0x07 => if off = 0x44 then all else 0#32
  | 0x09 => if off = 0x40 then all else 0#32
  | 0x0B => if off = 0x50 then 0xFFFF0000#32 ||| (live &&& 0x0000FFFF#32) else 0#32
  | 0x0C =>
    if off = 0x40 then 0xFF000000#32
    else if off = 0x44 then 0x00000007#32
    else if off = 0x50 ∨ off = 0x54 then all
    else 0#32
  | 0x0F => if off = 0x40 ∨ off = 0x44 then all else 0#32
  | 0x12 => if off = 0x320 then live else 0#32
  | 0x15 => if off = 0xA0 then all else 0#32
  | _ => 0#32

/-- The reset value of a register on this part: what OTP and the persistent log give (R4, R463, Table 18.10), and the home Pots of an
AX-M128-I (R154). -/
def Chip.resetOf (c : Chip) (a : Nat) : Word :=
  if a = CHIP.CHIP_ID ∨ a = KTL.UNIT_ID_LO ∨ a = KTL.UNIT_ID_HI ∨ a = LOG.WR_SEQ ∨ a = LOG.PERSIST_SEQ then c.reg a
  else if a = KTL.OTP_STAT then c.reg a &&& 4#32
  else if c.m128 then
    match pageAt a with
    | some p => if p.page.type = 0x19 ∧ p.off = 0x44 then BitVec.ofNat 32 (p.inst % 4) else regReset a
    | none => regReset a
  else regReset a

/-- Bits of a register that a soft reset leaves as they are: RWC fields, and FS of an axis, which its reset unit clears (R57). -/
def softMask (p : PageAt) : Word :=
  maskOf (fldsAt p) (fun k => decide (k = .rwc)) ||| (if p.page.type = 0x19 ∧ p.off = 0x54 then oneBit 31 else 0#32)

/-- The effect of an accepted soft reset on the registers of a page (R57). -/
def Chip.softReset (c : Chip) (b : Nat) : Chip :=
  -- registers at 0x040 and above that are not RWC return to their reset values
  let mine := c.regs.filter (fun e => decide (b + 0x40 ≤ e.1 ∧ e.1 < b + 0x1000))
  let c := mine.foldl (fun c e =>
      match pageAt e.1 with
      | none => c
      | some p =>
        let m := c.keptBits p.page.type p.off ||| softMask p
        c.setReg e.1 ((c.reg e.1 &&& m) ||| (c.resetOf e.1 &&& ~~~m))) c
  let c := (c.unstage b).setReg (pgEvtRaw b) 0#32
  { c with settling := if c.settling.contains b then c.settling else c.settling ++ [b] }

/-- A soft reset request (R57). -/
def Chip.srst (c : Chip) (tb : TimeBase) (b : Nat) : Chip :=
  if c.en b || c.hasCaptured b then c.evt b 29
  else
    let c := c.softReset b
    match pageAt b with
    | some p => if p.page.staged then c.addUnit tb (.reset b) (c.dueNow tb) [] else c
    | none => c

/-- Which page-specific effects a soft reset has beside its registers, and its acceptance, are judged on the state
before the write; the EN of the same write is discarded with the page's staged writes where the reset is accepted
(DEDUCED, log 19). -/
def Chip.srstOk (c : Chip) (b : Nat) : Bool := !c.en b && !c.hasCaptured b

/-- A write of PG_CTRL (R56, R57, R63): CGRP and CMODE, kept while the page holds staged or captured writes; ERR_RC; EN;
the soft reset request.  EN of a write that changes CMODE is staged or captured under the new CMODE (DESIGN CHOICE, log 62: R71 leaves
it open). -/
def Chip.writeCtrl (c : Chip) (tb : TimeBase) (b : Nat) (v : Word) : Chip :=
  let held := c.hasStaged b || c.hasCaptured b
  let ok := bit v 1 && c.srstOk b
  let c := c.setF (pgCtrl b) 5 5 (fld v 5 5)
  let c := if held && decide (fld v 11 8 ≠ c.cgrp b ∨ fld v 4 4 ≠ c.rf (pgCtrl b) 4 4) then c
    else (c.setF (pgCtrl b) 11 8 (fld v 11 8)).setF (pgCtrl b) 4 4 (fld v 4 4)
  if ok then c.srst tb b
  else
    let c := c.stage tb (pgCtrl b) v
    if bit v 1 then c.evt b 29 else c

/-- A write of PG_LOCK (R61). -/
def Chip.writeLock (c : Chip) (b : Nat) (v : Word) : Chip :=
  c.setReg (pgLock b) (if fld v 15 0 = 0x5A17 then 0#32 else oneBit 31)

/-- A write of PG_EVT_SET (R58): the bits that the page has. -/
def Chip.writeEvtSet (c : Chip) (b : Nat) (v : Word) : Chip :=
  match pageAt (b + 0x18) with
  | none => c
  | some p => c.setReg (pgEvtRaw b) (c.reg (pgEvtRaw b) ||| (v &&& maskOf (headerFlds p.page.type p.inst 0x10) (fun _ => true)))

/-- A write of PG_ERRCNT (R59). -/
def Chip.writeErrcnt (c : Chip) (b : Nat) : Chip :=
  if c.rb (pgCtrl b) 5 then c else c.setReg (pgErrcnt b) 0#32

/-- The fields of a register, by address. -/
def fldsOf (a : Nat) : List Field := match pageAt a with | some p => fldsAt p | none => []

/-- The plain effect of a write by the access codes of its fields (Table 2.1): RW fields take the value, W1C bits are
cleared, RWC fields are staged. -/
def Chip.writeCodes (c : Chip) (tb : TimeBase) (a : Nat) (v : Word) : Chip :=
  let fs := fldsOf a
  let rw := maskOf fs (fun k => decide (k = .rw))
  let w1c := maskOf fs (fun k => decide (k = .w1c))
  let rwc := maskOf fs (fun k => decide (k = .rwc))
  let c := if rw = 0#32 then c else c.setReg a ((c.reg a &&& ~~~rw) ||| (v &&& rw))
  let c := if w1c &&& v = 0#32 then c else c.w1c a (w1c &&& v)
  if rwc = 0#32 then c else c.stage tb a v

/-! ### Commands -/

/-- A write to `CHIP.COMMIT` (R62, R64). -/
def execCommit (p : Port) (m : Word) (s : State) : Res :=
  .next (s.onChip (fun c => c.gated p CHIP.COMMIT (fun c => c.commitMask s.tb (fld m 15 0))))

/-- A write of 1 to `PG_COMMIT.GO` of the page at `b` (R62). -/
def execPgCommitGo (p : Port) (b : Nat) (s : State) : Res :=
  .next (s.onChip (fun c => c.gated p (b + 0x1C) (fun c => c.captureGroup s.tb (c.dueNow s.tb) (c.cgrp b))))

/-- The block's state has settled after a soft reset (R57). -/
def execSrstSettle (b : Nat) (s : State) : Res :=
  .next (s.onChip (fun c => { c with settling := c.settling.filter (fun x => !decide (x = b)) }))

/-- A write of `PG_LOCK` (R61). -/
def execPgLockWrite (p : Port) (b : Nat) (v : Word) (s : State) : Res :=
  .next (s.onChip (fun c => c.gated p (pgLock b) (fun c => c.writeLock b v)))

/-- A write of `PG_EVT_SET` (R58). -/
def execPgEvtSetWrite (p : Port) (b : Nat) (v : Word) (s : State) : Res :=
  .next (s.onChip (fun c => c.gated p (b + 0x18) (fun c => c.writeEvtSet b v)))

end Sys2Proof.Machine
end

