-- ==== Sys2Proof/Machine/Quad.lean ====
section
/-!
DEFINITION. The inputs of a local feedback channel (R211 to R213): the transitions that wait for their filter, the one that is taken next,
and the count that stands before an instant.
-/

namespace Sys2Proof.Machine

/-- Phase of the inputs (R211). -/
def lfPhase (a b : Bool) : Nat := match a, b with
  | false, false => 0 | true, false => 1 | true, true => 2 | false, true => 3

/-- The counted edge that a change of the inputs gives, if any: true is up, before INV (Table 8.1). -/
def lfEdge (mode : Nat) (a b a' b' : Bool) : Option Bool :=
  let p := lfPhase a b
  let q := lfPhase a' b'
  let up := decide (q = (p + 1) % 4)
  let moved := up || decide (p = (q + 1) % 4)
  let pair := fun (x y : Nat) => decide ((p = x ∧ q = y) ∨ (p = y ∧ q = x))
  match mode with
  | 0 => if !a && a' then some (!b') else none
  | 1 => if !a && a' then some true else if !b && b' then some false else none
  | 2 => if pair 3 0 then some up else none
  | 3 => if pair 0 1 || pair 2 3 then some up else none
  | 4 => if moved then some up else none
  | _ => none

/-- A transition gives input `i` of A, B and Z a new level. -/
def LfPend.moves (p : LfPend) (i : Nat) : Bool := if p.inp < 3 then decide (p.inp = i) else decide (i < 2) && (p.inp - 3).testBit i

/-- The time that a level must last on the inputs (R212). -/
def lfFilterOf (cfg : Word) : Nat := 4 * fld cfg 11 8

/-- A transition is taken 4 ns after the filter has passed it (R226): by then another input that changes within 4 ns has come (R212). -/
def LfPend.ripe (p : LfPend) (now : Nat) : Bool := decide (p.e.ext + lfFilterOf p.cfg + 4 ≤ now)

/-- Place of an input among transitions of one stamp: the counted edges come before the index (R213). -/
def lfKey (inp : Nat) : Nat := match inp with | 1 => 0 | 0 => 1 | 2 => 3 | _ => 2

/-- A transition takes its place among those that wait; none of them is later. -/
def lfPut (p : LfPend) : List LfPend → List LfPend
  | [] => [p]
  | q :: l => if q.e.ext = p.e.ext ∧ lfKey p.inp < lfKey q.inp then p :: q :: l else q :: lfPut p l

/-- Level of input `i` as taken. -/
def Lf.level (l : Lf) (i : Nat) : Bool := match i with | 0 => l.a | 1 => l.b | _ => l.z

/-- Level of input `i` at its ball. -/
def Lf.ball (l : Lf) (i : Nat) : Bool := xor (l.level i) (decide ((l.pend.filter (fun p => p.moves i)).length % 2 = 1))

/-- Remove the latest transition of input `i` that waits. -/
def lfDrop (i : Nat) (l : List LfPend) : List LfPend :=
  match l.reverse.find? (fun p => p.moves i) with
  | some q => l.filter (fun p => decide (p ≠ q))
  | none => l

/-- The ball of input `i` takes level `v` (R212): a level that has lasted less than the filter asks is ignored. -/
def Lf.input (l : Lf) (i : Nat) (v : Bool) (e : Edge) (cfg : Word) (en : Bool) : Lf :=
  if v = l.ball i then l
  else match l.pend.reverse.find? (fun p => p.moves i) with
    | some p =>
      if p.inp = i ∧ e.ext < p.e.ext + lfFilterOf p.cfg then { l with pend := lfDrop i l.pend }
      else { l with pend := lfPut ⟨i, e, cfg, en⟩ l.pend }
    | none => { l with pend := lfPut ⟨i, e, cfg, en⟩ l.pend }

/-- What the next transition of a channel does. -/
structure LfTake where
  /-- The channel with its new levels. -/
  next : Lf
  /-- It is an illegal transition (R212). -/
  illegal : Bool
  /-- The counted edge that it makes: true is up, before INV. -/
  edge : Option Bool
  /-- It is a selected transition of Z (R213). -/
  index : Bool
  deriving DecidableEq, Repr

/-- The inputs A and B take new levels. -/
def Lf.flip (l : Lf) (a b : Bool) (t : Nat) : Lf :=
  { l with a := xor l.a a, b := xor l.b b, atA := if a then some t else l.atA, atB := if b then some t else l.atB }

/-- The stamp lies within 4 ns after an earlier one. -/
def lfClose (t : Nat) (was : Option Nat) : Bool := match was with | some u => decide (t < u + 4) | none => false

/-- The transition `h` of a channel is taken, with `q` after it (R211 to R213).  In the quadrature modes it is illegal where the other input
changes within 4 ns of it; in the others each change of an input counts by itself.  A channel that is not enabled takes its levels and
counts nothing (R215). -/
def Lf.take (l : Lf) (h : LfPend) (q : List LfPend) : LfTake :=
  let t := h.e.ext
  let quad := h.en && decide (2 ≤ fld h.cfg 2 0)
  if h.inp = 2 then
    let m := fld h.cfg 5 4
    ⟨{ l with z := !l.z, pend := q }, false, none, h.en && decide ((m = 1 ∧ l.z = false) ∨ (m = 2 ∧ l.z = true))⟩
  else if 3 ≤ h.inp then ⟨{ l.flip (h.moves 0) (h.moves 1) t with pend := q }, h.en, none, false⟩
  else
    let d := l.flip (h.moves 0) (h.moves 1) t
    match q.find? (fun p => p.moves (1 - h.inp) && decide (p.e.ext < t + 4)) with
    | some p =>
      if !quad then ⟨{ d with pend := q }, false, if h.en then lfEdge (fld h.cfg 2 0) l.a l.b d.a d.b else none, false⟩
      else if 3 ≤ p.inp then ⟨{ d with pend := q }, false, none, false⟩
      else ⟨{ d.flip (p.moves 0) (p.moves 1) p.e.ext with pend := q.filter (fun x => decide (x ≠ p)) }, true, none, false⟩
    | none =>
      if quad && lfClose t (if h.inp = 0 then l.atB else l.atA) then ⟨{ d with pend := q }, true, none, false⟩
      else ⟨{ d with pend := q }, false, if h.en then lfEdge (fld h.cfg 2 0) l.a l.b d.a d.b else none, false⟩

/-- The direction of a counted edge with INV: true is down (R211). -/
def lfDown (cfg : Word) (up : Bool) : Bool := if bit cfg 3 then up else !up

/-- The count and the direction with every counted edge stamped before an instant (R209, R227, Table 14.1), from those that the edges taken so
far have made.  A transition that waits is taken to last as long as its filter asks, and to be legal (DESIGN CHOICE, log 96). -/
def Lf.ahead (now : Nat) (arm : Bool) : Nat → Lf → Word × Bool → Word × Bool
  | 0, _, r => r
  | fuel + 1, l, r => match l.pend with
    | [] => r
    | h :: q =>
      if now ≤ h.e.ext then r
      else
        let m := l.take h q
        let dead := match l.loaded with | some (t, _) => decide (h.e.ext < t) | none => false
        let clears := m.index && arm && decide (l.armAt ≤ h.e.ext)
        let r := match m.edge with
          | some up =>
            let down := lfDown h.cfg up
            (if dead then r.1 else if down then r.1 - 1#32 else r.1 + 1#32, down)
          | none => if clears && !dead then (0#32, r.2) else r
        m.next.ahead now (arm && !clears) fuel r

/-- The count of channel `n` with every counted edge stamped before this instant, and its direction. -/
def Chip.lfAhead (c : Chip) (tb : TimeBase) (n : Nat) : Word × Bool :=
  let l := c.lf n
  l.ahead tb.ext (c.rb (LF.LF_CTRL n) 1) l.pend.length (c.reg (LF.COUNT_LIVE n), l.down)

end Sys2Proof.Machine
end

