-- ==== Sys2Proof/Machine/Capture.lean ====
section
/-!
DEFINITION. Capture units (R369 to R382): the Caddy, triggers, records, marks and the read pointer, and their commands
but the drain into SF2.
-/

namespace Sys2Proof.Machine

/-- BAR0 offset of a byte of the Caddy (R369). -/
def caddyMem (o : Nat) : Nat := 0x400000 + o

/-- The unit is observing: ARMED, TRIGGERED or RUN. -/
def Cu.active (u : Cu) : Bool := decide (1 ≤ u.state ∧ u.state ≤ 3)

/-- CU_ERR with its event (R378). -/
def Chip.cuErr (c : Chip) (n code : Nat) : Chip := (c.setF (CU.CU_STAT n) 31 28 code).evt (pgCu n) 2

/-- Capacity of the allocation of a unit, and its D (R375). -/
def Chip.cuCap (c : Chip) (n : Nat) : Nat := 512 * (c.cu n).alloc.2
def Chip.cuD (c : Chip) (n : Nat) : Nat := c.rf (CU.RATE n) 15 0 + 1

/-- Caddy pages in use by unit `n`, from its ARM to its CLEAR whatever ALLOC holds meanwhile, or by the signature ring (R370). -/
def Chip.cuPages (c : Chip) (n : Nat) : Nat × Nat := if (c.cu n).state = 0 then (0, 0) else (c.cu n).alloc
def Chip.sigPages (c : Chip) : Nat × Nat := (c.rf (SEQ.SIG_CFG 0) 10 0, c.rf (SEQ.SIG_CFG 0) 26 16)

/-- Two runs of pages, base and count, share a page. -/
def pagesMeet (x y : Nat × Nat) : Bool := decide (0 < x.2 ∧ 0 < y.2 ∧ x.1 < y.1 + y.2 ∧ y.1 < x.1 + x.2)

/-- A page is in use (R370). -/
def Chip.pageInUse (c : Chip) (p : Nat) : Bool :=
  pagesMeet (p, 1) c.sigPages || (List.range 16).any (fun n => pagesMeet (p, 1) (c.cuPages n))

/-! ### Records -/

/-- Trigger of unit `n` in observation `obs` with its stamp (R376, R379); the pulse on its line is the caller's. -/
def Chip.cuTrig (c : Chip) (n obs : Nat) (stamp : Word) : Chip :=
  let seq := obs / c.cuD n
  let c := (c.modCu n (fun u => { u with state := 2 })).setN (CU.TRIG_SEQ n) seq
  let c := (c.setReg (CU.TRIG_STAMP n) stamp).evt (pgCu n) 0
  if seq < c.rf (CU.PRE n) 20 0 then (c.raise (CU.CU_STAT n) (oneBit 1)).evt (pgCu n) 3 else c

/-- The unit is DONE once record TRIG_SEQ + POST - 1 is written (R377). -/
def Chip.cuDone (c : Chip) (n : Nat) : Chip :=
  if (c.cu n).state = 2 ∧ (c.rf (CU.POST n) 20 0 : Int) ≤ diff32 (c.reg (CU.WR_SEQ n)) (c.reg (CU.TRIG_SEQ n)) then
    (c.modCu n (fun u => { u with state := 4 })).evt (pgCu n) 1
  else c

/-- Byte offset in the Caddy of record `k` since ARM (R375). -/
def Chip.recAt (c : Chip) (n k : Nat) : Nat := (c.cu n).alloc.1 * 0x1000 + 8 * (k % c.cuCap n)

/-- Byte offset in the Caddy of the valid record with a sequence number (R375, R380). -/
def Chip.seqAt (c : Chip) (n seq : Nat) : Nat := c.recAt n ((c.cu n).recs - (c.rn (CU.WR_SEQ n) + 2 ^ 32 - seq) % 2 ^ 32)

/-- Write a record of unit `n` (R375, R380 to R382). -/
def Chip.cuRecord (c : Chip) (n : Nat) (hi lo : Nat) : Chip :=
  let cap := c.cuCap n
  let at' := caddyMem (c.recAt n (c.cu n).recs)
  let c := ((c.storeLE at' 4 lo).storeLE (at' + 4) 4 hi).eccClear at' 8
  let c := (c.modCu n (fun u => { u with recs := u.recs + 1 })).bump (CU.WR_SEQ n) |>.bump (CU.RECORDS n)
  let wr := c.rn (CU.WR_SEQ n)
  let fill := min cap (c.rn (CU.FILL n) + 1)
  let c := c.setN (CU.FILL n) fill
  let oldest := (wr + 2 ^ 32 - fill) % 2 ^ 32
  let c := c.setN (CU.OLDEST n) oldest
  let c := if c.rb (CU.CU_STAT n) 6 && decide (cap < (wr + 2 ^ 32 - c.rn (CU.MARK n)) % 2 ^ 32) then
      ((c.setF (CU.CU_STAT n) 6 6 0).raise (CU.CU_STAT n) (oneBit 2)).evt (pgCu n) 4
    else c
  let behind := (wr + 2 ^ 32 - c.rn (CU.RD_SEQ n)) % 2 ^ 32
  let c := if fill < behind then
      (((c.troubleBy (CU.LOST_RECS n) (behind - fill)).setN (CU.RD_SEQ n) oldest).raise (CU.CU_STAT n) (oneBit 3)).evt
        (pgCu n) 5
    else c
  c.cuDone n

/-- Judge an observation under a LEVEL trigger: whether it triggers, and the primings (R376). -/
def cuJudge (edge : Nat) (level hyst v : Int) (pr pf : Bool) : Bool × Bool × Bool :=
  let trigR := decide (edge ≠ 1) && pr && decide (level ≤ v)
  let trigF := decide (edge ≠ 0) && pf && decide (v < level)
  (trigR || trigF, pr || decide (v < level - hyst), pf || decide (level + hyst ≤ v))

/-- One observation with value `v`, stamp word `st`, FAST_NS `fast` and clock period `cyc`: whether it triggered is in the state that the
caller compares. -/
def Chip.cuObserve (c : Chip) (n : Nat) (v : Int) (st : Nat) (fast : Word) (cyc : Nat) : Chip :=
  let u := c.cu n
  let d := c.cuD n
  let first := decide (u.obs % d = 0)
  let hi := if first then v else max u.hi v
  let lo := if first then v else min u.lo v
  let j := cuJudge (c.rf (CU.TRIG n) 29 28) (c.ri (CU.LEVEL n)) (c.rf (CU.HYST n) 30 0) v u.primedR u.primedF
  let c := if u.state = 1 ∧ c.rf (CU.TRIG n) 31 30 = 1 ∧ j.1 then c.cuTrig n u.obs fast else c
  let c := c.modCu n (fun x => { x with
    obs := u.obs + 1, obsAt := cyc + 1, hi := hi, lo := lo, primedR := j.2.1, primedF := j.2.2 })
  if (u.obs + 1) % d = 0 then
    if c.rb (CU.RATE n) 30 then c.cuRecord n (wOf hi).toNat (wOf lo).toNat else c.cuRecord n st (wOf v).toNat
  else c

/-- An observation of unit `n` is made in this clock period (R374): an instant whose FAST_NS is a multiple of 8, or the publication of the
Tray's image. -/
def Chip.cuDue (c : Chip) (tb : TimeBase) (n : Nat) : Bool :=
  (c.cu n).active && decide ((c.cu n).obsAt ≠ tb.cycle + 1) &&
  (if c.rb (CU.RATE n) 31 then decide (tb.fast.toNat % 8 = 0)
   else c.tg.running && !c.tg.published && decide (c.pourClose + 500 ≤ c.ofs tb))

/-- Number of the observation whose window contains this instant (R376): not one that is made at it. -/
def Chip.cuObsOf (c : Chip) (tb : TimeBase) (n : Nat) : Nat := (c.cu n).obs + b2n (c.cuDue tb n)

/-- An edge at this instant. -/
def Chip.edgeNow (c : Chip) (tb : TimeBase) : Edge := ⟨tb.fast, tb.ext, (List.range 16).map (c.cuObsOf tb)⟩

/-! ### Arming -/

/-- The source and base are legal (Table 14.1, R373). -/
def Chip.cuSrcOk (c : Chip) (n : Nat) : Bool :=
  let w := c.reg (CU.SRC n)
  let idx := fld w 23 16
  let f := fld w 3 0
  let fast := c.rb (CU.RATE n) 31
  (match fld w 31 30 with
   | 0 => !fast && decide (idx < c.nAxes)
   | 1 => decide (idx < 16) && (decide (f = 0) || (!fast && decide (f = 1 ∨ f = 2)))
   | 2 => decide (idx < 64 ∧ f = 0)
   | _ => false) && decide (c.rf (CU.TRIG n) 31 30 ≠ 3) && decide (c.rf (CU.TRIG n) 29 28 ≠ 3)

/-- The rate sum of R378, as an exact fraction: numerator over the product of the D of the units counted. -/
def Chip.rateOk (c : Chip) (n : Nat) : Bool :=
  let us := below 16 (fun u => decide (u = n) || ((c.cu u).active && c.rb (CU.RATE u) 31))
  let prod := us.foldl (fun p u => p * c.cuD u) 1
  decide (us.foldl (fun s u => s + (1 + c.rf (CU.CU_CTRL u) 5 5) * (prod / c.cuD u)) 0 ≤ prod)

/-- The first check of Table 14.4 that refuses an ARM, 0 if none. -/
def Chip.armCheck (c : Chip) (n : Nat) : Nat :=
  let base := c.rf (CU.ALLOC n) 10 0
  let pages := c.rf (CU.ALLOC n) 27 16
  let kind := c.rf (CU.TRIG n) 31 30
  let post := c.rf (CU.POST n) 20 0
  let fast := c.rb (CU.RATE n) 31
  if !c.domOn 3 || c.caddyFill then 1
  else if !c.cuSrcOk n then 2
  else if ¬ (1 ≤ pages ∧ pages ≤ 2048 ∧ base + pages ≤ 2048) then 3
  else if pagesMeet (base, pages) c.sigPages
      || (List.range 16).any (fun u => decide (u ≠ n) && pagesMeet (base, pages) (c.cuPages u)) then 4
  else if kind ≠ 0 ∧ (512 * pages < c.rf (CU.PRE n) 20 0 + post ∨ post = 0) then 5
  else if fast && (decide (c.cuD n = 1) || !c.rateOk n) then 6
  else 0

/-- An ARM (R377, R378). -/
def Chip.cuArm (c : Chip) (tb : TimeBase) (n : Nat) : Chip :=
  if (c.cu n).active then c.cuErr n 7
  else
    let e := c.armCheck n
    if e ≠ 0 then c.cuErr n e
    else
      let c := c.modCu n (fun _ => { Cu.reset with
        state := if c.rf (CU.TRIG n) 31 30 = 0 then 3 else 1, armAt := tb.ext,
        alloc := (c.rf (CU.ALLOC n) 10 0, c.rf (CU.ALLOC n) 27 16) })
      let c := (((c.setN (CU.WR_SEQ n) 0).setN (CU.FILL n) 0).setN (CU.RD_SEQ n) 0).setN (CU.LOST_RECS n) 0
      let c := ((c.setN (CU.OLDEST n) 0).setN (CU.CU_STAT n) 0).setReg (CU.TRIG_SEQ n) 0xFFFFFFFF#32
      c.setN (CU.MARK n) 0

/-- A STOP (R377). -/
def Chip.cuStop (c : Chip) (n : Nat) : Chip :=
  if (c.cu n).active then (c.modCu n (fun u => { u with state := 4 })).evt (pgCu n) 1 else c

/-- A REWIND (R382). -/
def Chip.cuRewind (c : Chip) (n : Nat) : Chip :=
  if c.rb (CU.CU_STAT n) 6 then c.setReg (CU.RD_SEQ n) (c.reg (CU.MARK n)) else c.cuErr n 9

/-- A write of a mark (R381). -/
def Chip.cuMark (c : Chip) (n : Nat) (m : Word) : Chip :=
  if (c.rn (CU.WR_SEQ n) + 2 ^ 32 - m.toNat) % 2 ^ 32 ≤ c.rn (CU.FILL n) then
    (((c.setReg (CU.MARK n) m).setF (CU.CU_STAT n) 6 6 1).setF (CU.CU_STAT n) 2 2 0)
  else c.cuErr n 8

/-- A write to a configuration register of a unit: discarded with BUSY while it is active (R377). -/
def Chip.cuConfig (c : Chip) (n a : Nat) (v : Word) : Chip :=
  if (c.cu n).active then c.cuErr n 7
  else
    let rw := maskOf (fldsOf a) (fun k => decide (k = .rw))
    c.setReg a ((c.reg a &&& ~~~rw) ||| (v &&& rw))

/-- A host write of a 32-bit word to the Caddy window, at byte offset `o` (R371). -/
def Chip.caddyWrite (c : Chip) (o : Nat) (v : Word) : Chip :=
  if !c.domOn 3 then c
  else if c.pageInUse (o / 0x1000) then (c.trouble (CU.CADDY_WR_REF 0)).evt (pgCu 0) 6
  else (c.storeLE (caddyMem (o / 4 * 4)) 4 v.toNat).eccClear (caddyMem o) 8

/-- The check of a Caddy word that is read, and whether it is uncorrectable (R372). -/
def Chip.caddyCheck (c : Chip) (o : Nat) : Chip × Bool :=
  match c.eccAt (caddyMem o) 8 with
  | some true => ((c.trouble (CU.CADDY_UE 0)).evt (pgCu 0) 6, true)
  | some false => ((c.eccClear (caddyMem o) 8).trouble (CU.CADDY_CE 0), false)
  | none => (c, false)

/-- CLEAR of a unit in DONE (R377). -/
def Chip.cuClear (c : Chip) (n : Nat) : Chip :=
  if (c.cu n).state = 4 then c.modCu n (fun u => { u with state := 0 }) else c

/-! ### Commands -/

/-- A write to `CU.MARK` (R381). -/
def execMarkWrite (p : Port) (n : Nat) (m : Word) (s : State) : Res :=
  .next (s.onChip (fun c => c.gated p (CU.MARK n) (fun c => c.cuMark n m)))

end Sys2Proof.Machine
end

