-- ==== Sys2Proof/Machine/Matrix.lean ====
section
/-!
DEFINITION. The event matrix (R403 to R407): sources, lines, their edges and the consumers of edges.
-/

namespace Sys2Proof.Machine

/-- Level of a source. -/
def Chip.srcLevel (c : Chip) (k : Nat) : Bool := Tab.get (fun _ => false) c.src k

/-- The bank supply of event pin `n` is present (R397). -/
def Chip.pinSupply (c : Chip) (n : Nat) : Bool := decide (Tab.get (fun _ => 0) c.vsense (n / 8) ≠ 0)

/-- A source is an event pin whose bank supply is absent: a line that takes its input from it reads 0 (R397). -/
def Chip.srcDark (c : Chip) (k : Nat) : Bool := decide (k < 48) && !c.pinSupply k

/-- Level that the configuration gives line `n` (R397, R404). -/
def Chip.lineOf (c : Chip) (n : Nat) : Bool :=
  let w := c.reg (EVX.LINE n)
  let a := c.srcLevel (fld w 7 0)
  let b := c.srcLevel (fld w 15 8)
  let l := match fld w 29 28 with
    | 0 => a
    | 1 => a || b
    | 2 => a && b
    | _ => xor a b
  bit w 31 && !c.srcDark (fld w 7 0) && !(decide (fld w 29 28 ≠ 0) && c.srcDark (fld w 15 8)) && xor l (bit w 30)

/-- The register that holds a bit of line `n`: LEVEL and LEVT. -/
def levelReg (n : Nat) : Nat := if n < 32 then EVX.LEVEL_LO else EVX.LEVEL_HI
def levtReg (n : Nat) : Nat := if n < 32 then EVX.LEVT_LO else EVX.LEVT_HI

/-- Level of line `n` as last seen. -/
def Chip.line (c : Chip) (n : Nat) : Bool := c.rb (levelReg n) (n % 32)

/-- What the window of an observing unit holds after its line has taken a level in clock period `cyc`: a level that falls in the period in
which it rose, or in which the window opened, has not been high at an instant of the window (Table 14.1). -/
def Cu.lineAt (x : Cu) (cyc : Nat) (v : Bool) : Cu :=
  if v then { x with rose := some cyc }
  else match x.rose with
    | some t => { x with seen := x.seen || decide (t ≠ cyc), rose := none }
    | none => x

/-- The source line was high in the window that closes in clock period `cyc`, which it does not include. -/
def Cu.high (x : Cu) (cyc : Nat) : Bool := x.seen || (match x.rose with | some t => decide (t ≠ cyc) | none => false)

/-- Line `n` takes level `v`: the LEVEL bit, the edge event (R407), and the windows of units that observe it. -/
def Chip.putLine (c : Chip) (tb : TimeBase) (n : Nat) (v : Bool) : Chip :=
  let ie := c.rf (EVX.LINE n) 27 26
  let c := (c.setF (levelReg n) (n % 32) (n % 32) (b2n v)).perf 0x97 (b2n v)
  let c := if (v && decide (ie = 1 ∨ ie = 3)) || (!v && decide (ie = 2 ∨ ie = 3)) then
      c.raise (levtReg n) (oneBit (n % 32)) else c
  each (below 16 (fun u => (c.cu u).active && decide (c.rf (CU.SRC u) 31 30 = 2 ∧ c.rf (CU.SRC u) 23 16 = n)))
    (fun u c => c.modCu u (fun x => x.lineAt tb.cycle v)) c

/-- Units that a rising edge of line `n` triggers, stamped at this instant without wraps (R376). -/
def Chip.cuFor (c : Chip) (n at' : Nat) : List Nat :=
  below 16 (fun u => decide ((c.cu u).state = 1 ∧ c.rf (CU.TRIG u) 31 30 = 2 ∧ c.rf (CU.TRIG u) 5 0 = n)
    && decide ((c.cu u).armAt ≤ at'))

/-- Bring every line to the level its sources give, with the triggers that follow; a trigger pulses its own source, so
`fuel` bounds the chain by the number of units. -/
def Chip.relevel (c : Chip) (tb : TimeBase) (e : Edge) : Nat → Chip
  | 0 => c
  | fuel + 1 =>
    let moved := below 64 (fun n => xor (c.lineOf n) (c.line n))
    let up := moved.filter (fun n => c.lineOf n)
    let c := each moved (fun n d => d.putLine tb n (c.lineOf n)) c
    let us := up.flatMap (fun n => c.cuFor n e.ext)
    if us.isEmpty then c
    else
      let c := each us.dedup (fun u c => (c.cuTrig u (e.obs.getD u 0) e.stamp).cuDone u) c
      let c := { c with
        src := us.foldl (fun t u => Tab.set (fun _ => false) t (0x58 + u) true) c.src
        pulses := us.foldl (fun l u => l ++ [(0x58 + u, tb.cycle + 8)]) c.pulses }
      c.relevel tb e fuel

/-- Source `k` takes a level with an edge. -/
def Chip.setSrcAt (c : Chip) (tb : TimeBase) (e : Edge) (k : Nat) (v : Bool) : Chip :=
  Chip.relevel { c with src := Tab.set (fun _ => false) c.src k v } tb e 17

/-- Source `k` takes a level at this instant. -/
def Chip.setSrc (c : Chip) (tb : TimeBase) (k : Nat) (v : Bool) : Chip := c.setSrcAt tb (c.edgeNow tb) k v

/-- An 8 ns pulse on source `k`. -/
def Chip.pulse (c : Chip) (tb : TimeBase) (k : Nat) : Chip :=
  Chip.setSrc { c with pulses := c.pulses.filter (fun e => decide (e.1 ≠ k)) ++ [(k, tb.cycle + 8)] } tb k true

/-- Pulses whose 8 ns have passed end. -/
def Chip.endPulses (c : Chip) (tb : TimeBase) : Chip :=
  let done := c.pulses.filter (fun e => decide (e.2 ≤ tb.cycle))
  if done.isEmpty then c
  else
    let c := { c with pulses := c.pulses.filter (fun e => !decide (e.2 ≤ tb.cycle)) }
    each (done.map (fun e => e.1)) (fun k c => c.setSrc tb k false) c

/-- Where buffer `i` of the Tray stands. -/
def trayBase (i : Nat) : Nat := 2 ^ 25 + i * 0x40000

/-- A LEVEL or EVENT trigger of unit `n` in observation `obs` by other means than a line, with its pulse. -/
def Chip.cuTrigPulse (c : Chip) (tb : TimeBase) (n obs : Nat) (stamp : Word) : Chip :=
  ((c.cuTrig n obs stamp).cuDone n).pulse tb (0x58 + n)

/-- The window of a unit that observes a line opens in this clock period with the line's level (Table 14.1). -/
def Chip.cuWindow (c : Chip) (tb : TimeBase) (n : Nat) : Chip :=
  let w := c.reg (CU.SRC n)
  c.modCu n (fun x => { x with
    seen := false, rose := if decide (fld w 31 30 = 2) && c.line (fld w 23 16) then some tb.cycle else none })

/-- One observation of unit `n` with the pulse of a trigger it makes. -/
def Chip.cuObservation (c : Chip) (tb : TimeBase) (n : Nat) (v : Int) (st : Nat) : Chip :=
  let was := (c.cu n).state
  let recs := c.reg (CU.RECORDS n)
  let c := (c.cuObserve n v st tb.fast tb.cycle).cuWindow tb n
  let c := c.when (decide (c.reg (CU.RECORDS n) ≠ recs)) (fun c => c.perf 0x93 1)
  if was = 1 ∧ (c.cu n).state ≠ 1 then c.pulse tb (0x58 + n) else c

/-- The value a unit of KIND LF or EVENT observes (Table 14.1). -/
def Chip.cuValue (c : Chip) (tb : TimeBase) (n : Nat) : Int :=
  let w := c.reg (CU.SRC n)
  let i := fld w 23 16
  if fld w 31 30 = 2 then b2n ((c.cu n).high tb.cycle)
  else match fld w 3 0 with
    | 0 => (c.lfAhead tb i).1.toInt
    | 1 => c.ri (LF.S_COUNT i)
    | _ => c.ri (LF.SPEED i)

/-- FORCE of a unit in ARMED (R376). -/
def Chip.cuForce (c : Chip) (tb : TimeBase) (n : Nat) : Chip :=
  if (c.cu n).state = 1 then c.cuTrigPulse tb n (c.cuObsOf tb n) tb.fast else c

/-- The value that a unit of the TICK base observes, from an image of which the outputs of its axis are given (R374). -/
def Chip.cuTickValue (c : Chip) (tb : TimeBase) (n : Nat) (outs : List Byte) : Int :=
  let w := c.reg (CU.SRC n)
  if fld w 31 30 = 0 then (BitVec.ofNat 32 (ofLE (((outs ++ List.replicate 64 0#8).drop (4 * fld w 3 0)).take 4))).toInt else c.cuValue tb n

/-- The observation of a unit of the TICK base of the image that stands in buffer `i` (R374). -/
def Chip.tickObserve (c : Chip) (tb : TimeBase) (i n : Nat) : Chip :=
  if (c.cu n).active && !c.rb (CU.RATE n) 31 then
    let w := c.reg (CU.SRC n)
    let at' := trayBase i + 0x2000 + 0x80 * fld w 23 16
    let c := c.when (decide (fld w 31 30 = 0 ∧ (c.byte at').toNat / 2 % 4 ≠ 0)) (fun c => c.raise (CU.CU_STAT n) (oneBit 4))
    c.cuObservation tb n (c.cuTickValue tb n (c.bytes (at' + 64) 64)) (c.tickNo % 2 ^ 32)
  else c

/-- An accepted ARM opens the first window; observation 0 is made at the acceptance instant where that is an instant of the FAST base, or
the instant at which this tick's image has been published (R375). -/
def Chip.cuFirst (c : Chip) (tb : TimeBase) (n : Nat) : Chip :=
  let c := c.cuWindow tb n
  if c.rb (CU.RATE n) 31 then (if c.cuDue tb n then c.cuObservation tb n (c.cuValue tb n) tb.fast.toNat else c)
  else match c.tray.latest with
    | some i => if c.tg.running && c.tg.published && decide (c.reg TRAY.PUB_FAST = tb.fast) then c.tickObserve tb i n else c
    | none => c

/-- A write of CU_CTRL: STREAM, then the requests in bit order, each judged in turn (R377, R378, R382). -/
def Chip.writeCuCtrl (c : Chip) (tb : TimeBase) (n : Nat) (v : Word) : Chip :=
  let c := if (c.cu n).active then (if fld v 5 5 ≠ c.rf (CU.CU_CTRL n) 5 5 then c.cuErr n 7 else c)
    else c.setF (CU.CU_CTRL n) 5 5 (fld v 5 5)
  let c := c.when (bit v 0) (fun c =>
    let d := c.cuArm tb n
    if !(c.cu n).active && (d.cu n).active then d.cuFirst tb n else d)
  let c := c.when (bit v 1) (fun c => c.cuStop n)
  let c := c.when (bit v 2) (fun c => c.cuForce tb n)
  let c := c.when (bit v 3) (fun c => c.cuRewind n)
  c.when (bit v 4) (fun c => c.cuClear n)

/-- Writing ARM, with the other fields of CU_CTRL as written (R378). -/
def execArm (p : Port) (n : Nat) (v : Word) (s : State) : Res :=
  .next (s.onChip (fun c => c.gated p (CU.CU_CTRL n) (fun c => c.writeCuCtrl s.tb n (v ||| 1#32))))

/-- Writing STOP (R377). -/
def execStop (p : Port) (n : Nat) (v : Word) (s : State) : Res :=
  .next (s.onChip (fun c => c.gated p (CU.CU_CTRL n) (fun c => c.writeCuCtrl s.tb n (v ||| 2#32))))

/-- Writing CLEAR (R377). -/
def execClear (p : Port) (n : Nat) (v : Word) (s : State) : Res :=
  .next (s.onChip (fun c => c.gated p (CU.CU_CTRL n) (fun c => c.writeCuCtrl s.tb n (v ||| 16#32))))

/-- Writing REWIND (R382). -/
def execRewind (p : Port) (n : Nat) (v : Word) (s : State) : Res :=
  .next (s.onChip (fun c => c.gated p (CU.CU_CTRL n) (fun c => c.writeCuCtrl s.tb n (v ||| 8#32))))

/-- Writing FORCE (R376). -/
def execForce (p : Port) (n : Nat) (v : Word) (s : State) : Res :=
  .next (s.onChip (fun c => c.gated p (CU.CU_CTRL n) (fun c => c.writeCuCtrl s.tb n (v ||| 4#32))))

/-- An observation of the FAST-base units, at an instant whose FAST_NS is a multiple of 8 (R374). -/
def execFastObservation (s : State) : Res :=
  .next (s.onChip (fun c =>
    each (below 16 (fun n => c.rb (CU.RATE n) 31 && c.cuDue s.tb n))
      (fun n c => if (c.cu n).active then c.cuObservation s.tb n (c.cuValue s.tb n) s.tb.fast.toNat else c) c))

end Sys2Proof.Machine
end

