-- ==== Sys2Proof/Machine/Feedback.lean ====
section
/-!
DEFINITION. Local feedback channels (R209 to R217, R226, R227, R232): counting, index, compare, samples and the channel
estimator.  Transitions are taken in the order of their stamps, 4 ns after the filter has passed them (R226).
-/

namespace Sys2Proof.Machine

/-- The enabled axes, ascending: MAP is 0 where nothing is listed. -/
def Chip.enAxes (c : Chip) : List Nat :=
  c.regs.filterMap (fun e =>
    if 0x100000 ≤ e.1 ∧ e.1 < 0x200000 ∧ e.1 % 0x1000 = 0x40 ∧ bit e.2 31 then some ((e.1 - 0x100000) / 0x1000) else none)

/-- Segment, node and index of an axis (Table 1.2). -/
def Chip.axSeg (c : Chip) (a : Nat) : Nat := c.rf (AXIS.MAP a) 27 24
def Chip.axNode (c : Chip) (a : Nat) : Nat := c.rf (AXIS.MAP a) 20 16
def Chip.axIdx (c : Chip) (a : Nat) : Nat := c.rf (AXIS.MAP a) 9 8
def Chip.axHome (c : Chip) (a : Nat) : Nat := c.rf (AXIS.PLACE a) 2 0
def Chip.axEn (c : Chip) (a : Nat) : Bool := c.rb (AXIS.MAP a) 31

/-- A pulse of the compare unit, or an inversion of its line (R226). -/
def Chip.lfDrive (c : Chip) (tb : TimeBase) (n : Nat) : Chip :=
  let out := c.rb (LF.CMP_STAT n) 1
  if c.rb (LF.CMP_CTRL n) 8 then
    (c.setF (LF.CMP_STAT n) 1 1 (b2n (!out))).setSrc tb (0x38 + n) (!out)
  else
    let c := c.when ((c.lf n).pulseEnd.isSome) (fun c => c.trouble (LF.CMP_MERGE n))
    let c := c.modLf n (fun l => { l with pulseEnd := some (tb.cycle + 8 * max 1 (c.rf (LF.CMP_CTRL n) 7 0)) })
    (c.setF (LF.CMP_STAT n) 1 1 1).setSrc tb (0x38 + n) true

/-- CMP after a hit or a judgement that moves it by `step` (R226, R227). -/
def cmpMoved (cmp step : Word) (down : Bool) : Word := if down then cmp - step else cmp + step

/-- PITCH of a channel. -/
def Chip.lfPitch (c : Chip) (n : Nat) : Word := BitVec.ofNat 32 (c.rf (LF.PITCH n) 30 0)

/-- A hit (R226). -/
def Chip.lfHit (c : Chip) (tb : TimeBase) (n : Nat) : Chip := ((c.bump (LF.HITS n)).evt (pgLf n) 0).lfDrive tb n

/-- The compare unit judges a counted edge of instant `t` that has made the count `k` (R226): an edge stamped before a write of CMP or EN is
judged against the value that stood before it (R227). -/
def Chip.lfCompare (c : Chip) (tb : TimeBase) (n t : Nat) (k : Word) (down : Bool) : Chip :=
  match (c.lf n).cmpOld.find? (fun x => decide (t < x.1)) with
  | some (w, cmp, en) =>
    c.when (en && decide (k = cmp)) (fun c => (c.modLf n (fun l => { l with
      cmpOld := l.cmpOld.map (fun x => if x.1 = w then (w, cmpMoved cmp (c.lfPitch n) down, en) else x) })).lfHit tb n)
  | none =>
    c.when (c.rb (LF.CMP_CTRL n) 31 && decide (k = c.reg (LF.CMP n))) (fun c =>
      (c.setReg (LF.CMP n) (cmpMoved (c.reg (LF.CMP n)) (c.lfPitch n) down)).lfHit tb n)

/-- An edge stamped before the last LOAD changes the count that stood before it (R214). -/
def Lf.overridden (l : Lf) (t : Nat) : Option (Nat × Word) := match l.loaded with | some x => if t < x.1 then some x else none | none => none

/-- The count for an edge of instant `t`, and its change. -/
def Chip.lfAt (c : Chip) (n t : Nat) : Word := match (c.lf n).overridden t with | some x => x.2 | none => c.reg (LF.COUNT_LIVE n)
def Chip.lfSet (c : Chip) (n t : Nat) (k : Word) : Chip :=
  match (c.lf n).overridden t with
  | some x => c.modLf n (fun l => { l with loaded := some (x.1, k) })
  | none => c.setReg (LF.COUNT_LIVE n) k

/-- One counted edge of channel `n` (R211, R212, R226). -/
def Chip.lfCount (c : Chip) (tb : TimeBase) (n : Nat) (h : LfPend) (up : Bool) : Chip :=
  let down := lfDown h.cfg up
  let near := match (c.lf n).edgeAt with
    | some t => decide (h.e.ext < t + 16)
    | none => false
  let k := c.lfAt n h.e.ext
  let c := c.modLf n (fun l => { l with down := down, stamp := h.e.stamp, edgeAt := some h.e.ext, err := l.err || near })
  let k := if down then k - 1#32 else k + 1#32
  -- after edges that are too close the count is undefined by one: a free value
  let k := if near then (if Config.freeBit c.free then (if Config.freeBit (c.free + 1) then k + 1#32 else k - 1#32) else k) else k
  let c := if near then ({ c with free := c.free + 2 }.trouble (LF.ERR_RATE n)).evt (pgLf n) 3 else c
  (c.lfSet n h.e.ext k).lfCompare tb n h.e.ext k down

/-- An illegal transition (R212): it changes no count. -/
def Chip.lfQuad (c : Chip) (n : Nat) : Chip :=
  ((c.modLf n (fun l => { l with err := true })).trouble (LF.ERR_QUAD n)).evt (pgLf n) 3

/-- A selected transition of Z (R213): with ZCLR_ARM read as 1 at it, it clears the count. -/
def Chip.lfZ (c : Chip) (tb : TimeBase) (n : Nat) (h : LfPend) : Chip :=
  let t := h.e.ext
  let arm := c.rb (LF.LF_CTRL n) 1 && decide ((c.lf n).armAt ≤ t)
  let c := (c.setReg (LF.IDX_COUNT n) (c.lfAt n t)).setReg (LF.IDX_STAMP n) h.e.stamp
  let c := (c.modLf n (fun l => { l with idx := true })).evt (pgLf n) 1
  let c := if arm then
      (((c.lfSet n t 0#32).setF (LF.LF_CTRL n) 1 1 0).modLf n (fun l => { l with clr := true })).evt (pgLf n) 4
    else c
  c.pulse tb (0x48 + n)

/-- The next transition of a channel is taken. -/
def Chip.lfTake (c : Chip) (tb : TimeBase) (n : Nat) (h : LfPend) (q : List LfPend) : Chip :=
  let m := (c.lf n).take h q
  let c := c.modLf n (fun _ => m.next)
  let c := c.when m.illegal (fun c => c.lfQuad n)
  let c := match m.edge with | some up => c.lfCount tb n h up | none => c
  c.when m.index (fun c => c.lfZ tb n h)

/-! ### Samples -/

/-- The estimator block of a channel, as in Table 8.4, in words. -/
def estOf (l : List Nat) : Est :=
  let f := l.getD 5 0
  ⟨l.getD 0 0, l.getD 1 0, l.getD 2 0, signedN 32 (l.getD 3 0), signedN 32 (l.getD 4 0), f.testBit 0, f.testBit 1,
   f.testBit 2, f.testBit 3, f.testBit 4, f.testBit 5, f.testBit 6, f / 256 % 16, (List.range 8).map (fun j => l.getD (6 + j) 0)⟩

def estWords (s : Est) : List Nat :=
  [s.nPrev, s.agePrev, s.tLast, (wOf s.vp).toNat, (wOf s.v).toNat, s.fstat false + 64 * b2n s.valid + 256 * s.fill] ++ s.ring

/-- The secondary sample of an axis as its channel latched it (R216). -/
def Chip.latchSec (c : Chip) (a : Nat) : Chip :=
  let n := c.rf (AXIS.FB_CFG a) 27 24
  let l := if c.rb (AXIS.FB_CFG a) 31 && c.rb (LF.S_STAT n) 0 then
      leBytes 4 (c.rn (LF.S_COUNT n)) ++ leBytes 4 (c.rn (LF.S_EDGE n)) ++ leBytes 4 (c.rn (LF.S_STAT n)) else []
  c.modAx a (fun x => { x with sec := l })

/-- What has been taken from a channel at the T0 of this tick takes its sample where it came after it. -/
def Chip.lfRelatch (c : Chip) (n : Nat) : Chip :=
  let c := { c with tray := { c.tray with lfAt := c.tray.lfAt.set n (c.reg (LF.IDX_COUNT n), c.reg (LF.HITS n)) } }
  if c.isStandby then c
  else (c.enAxes.filter (fun a => decide (c.rf (AXIS.FB_CFG a) 27 24 = n) && (c.seg (c.axSeg a)).active &&
    decide ((c.seg (c.axSeg a)).t0 = c.tg.t0Fast))).foldl (fun (c : Chip) (a : Nat) => c.latchSec a) c

/-- The sample of channel `n` at a T0 and the step of its estimator (R209, R215, R217). -/
def Chip.lfSampleNow (c : Chip) (n : Nat) (o : LfOwed) : Chip :=
  let l := c.lf n
  -- AGE counts from the stamp of the last edge to T0 in the time base (R209)
  let age := match l.edgeAt with
    | some t => min 0x7FFFFFFF (o.at' - t)
    | none => 0x7FFFFFFF
  let w := age + 2 ^ 31 * b2n (l.edgeAt.isSome && l.down)
  let valid := l.enAll
  let stat := b2n valid + 2 * b2n l.clr + 4 * b2n l.idx + 8 * b2n l.err
  let k := c.reg (LF.COUNT_LIVE n)
  let c := (((c.setReg (LF.S_COUNT n) k).setN (LF.S_EDGE n) w).setN (LF.S_STAT n) stat).setReg (LF.S_STAMP n) l.stamp
  let r := (estOf l.est).step ⟨k.toNat, w, l.clr || !l.valid, o.tick, o.period, l.est.getD 14 o.period,
    c.rf (LF.LF_CFG n) 17 16, c.rf (LF.V_LO n) 30 0, c.rf (LF.V_HI n) 30 0, c.rn (LF.STILL_T n)⟩
  let c := if valid then ((c.setI (LF.SPEED n) r.1.v).setN (LF.FSTAT n) (r.1.fstat r.2.1)).modLf n (fun l => { l with
      est := estWords r.1 ++ [o.period] })
    else (c.setN (LF.SPEED n) 0).setN (LF.FSTAT n) 0
  (c.modLf n (fun l => { l with clr := false, idx := false, err := false, valid := valid, enAll := o.en, owed := none })).lfRelatch n

/-- A sample is made once every edge stamped before its T0 has been taken (R209), at most 64 ns after it. -/
def Chip.lfSampleDue (c : Chip) (n : Nat) : Chip :=
  match (c.lf n).owed with
  | some o => if (c.lf n).pend.any (fun p => decide (p.e.ext < o.at')) then c else c.lfSampleNow n o
  | none => c

/-- The transitions that have passed the filter are taken in the order of their stamps, and a sample in its place among them. -/
def Chip.lfRun (c : Chip) (tb : TimeBase) (n : Nat) : Nat → Chip
  | 0 => c.lfSampleDue n
  | fuel + 1 =>
    let c := c.lfSampleDue n
    match (c.lf n).pend with
    | h :: q => if h.ripe tb.ext then (c.lfTake tb n h q).lfRun tb n fuel else c
    | [] => c

/-- What is kept for edges that are all taken is dropped. -/
def Lf.prune (l : Lf) : Lf :=
  let live := fun (t : Nat) => l.pend.any (fun p => decide (p.e.ext < t))
  { l with cmpOld := l.cmpOld.filter (fun x => live x.1), loaded := match l.loaded with | some x => if live x.1 then some x else none | none => none }

/-- The transitions of channel `n` that have lasted long enough are taken (R212). -/
def Chip.lfSettle (c : Chip) (tb : TimeBase) (n : Nat) : Chip :=
  if (c.lf n).pend.isEmpty && (c.lf n).owed.isNone then c
  else (c.lfRun tb n ((c.lf n).pend.length + 1)).modLf n Lf.prune

/-- Instant of the T0 of this tick without wraps, or this instant while no tick runs. -/
def Chip.t0Ext (c : Chip) (tb : TimeBase) : Nat := if c.tg.running then tb.ext - (tb.fast - c.tg.t0Fast).toNat else tb.ext

/-- A T0 asks for the sample of channel `n` (R215). -/
def Chip.lfSample (c : Chip) (tb : TimeBase) (n : Nat) : Chip :=
  (c.modLf n (fun l => { l with owed := some ⟨c.t0Ext tb, c.tickNo % 2 ^ 32, c.period, c.en (pgLf n)⟩ })).lfSettle tb n

/-- Some channel owes its sample of this T0. -/
def Chip.lfOwes (c : Chip) : Bool := (List.range 16).any (fun n => (c.lf n).owed.isSome)

/-! ### Inputs -/

/-- The ball of input `i` of channel `n` takes a level (R212). -/
def Chip.lfInput (c : Chip) (tb : TimeBase) (n i : Nat) (v : Bool) : Chip :=
  c.modLf n (fun l => l.input i v (c.edgeNow tb) (c.reg (LF.LF_CFG n)) (c.en (pgLf n)))

/-- The balls A and B of a channel take levels (R211, R212). -/
def Chip.lfMove (c : Chip) (tb : TimeBase) (n : Nat) (a b : Bool) : Chip := (c.lfInput tb n 1 b).lfInput tb n 0 a

/-- The balls A and B of a channel change within 4 ns of each other and now stand at these levels (R212): without the filter, an illegal
transition in the quadrature modes; in the others the changes count by themselves. -/
def Chip.lfIllegal (c : Chip) (tb : TimeBase) (n : Nat) (a b : Bool) : Chip :=
  let l := c.lf n
  let da := xor a (l.ball 0)
  let db := xor b (l.ball 1)
  if !c.en (pgLf n) || decide (c.rf (LF.LF_CFG n) 2 0 < 2) || decide (lfFilterOf (c.reg (LF.LF_CFG n)) ≠ 0) || (da && db) then c.lfMove tb n a b
  else c.modLf n (fun l => { l with pend := lfPut ⟨3 + b2n da + 2 * b2n db, c.edgeNow tb, c.reg (LF.LF_CFG n), true⟩ l.pend })

/-! ### The compare unit's registers -/

/-- Judge the compare value against the count and the direction of the edges stamped before this instant (R227). -/
def Chip.lfJudge (c : Chip) (tb : TimeBase) (n : Nat) : Chip :=
  let r := c.lfAhead tb n
  let d0 := diff32 (c.reg (LF.CMP n)) r.1
  let d := if r.2 then -d0 else d0
  if 0 < d then c
  else
    let c := (c.raise (LF.CMP_STAT n) 1#32).evt (pgLf n) 2
    let pitch := c.rf (LF.PITCH n) 30 0
    if pitch = 0 then c
    else
      let k := (-d).toNat / pitch + 1
      (c.setReg (LF.CMP n) (cmpMoved (c.reg (LF.CMP n)) (BitVec.ofNat 32 (k * pitch)) r.2)).setN (LF.SKIPPED n)
        (min 0xFFFFFFFF (c.rn (LF.SKIPPED n) + k))

/-- Before a write of CMP or of its EN: what stands is kept for the edges stamped earlier that have not been taken (R227). -/
def Chip.lfKeep (c : Chip) (tb : TimeBase) (n : Nat) : Chip :=
  c.when ((c.lf n).pend.any (fun p => decide (p.e.ext < tb.ext))) (fun c => c.modLf n (fun l =>
    { l with cmpOld := l.cmpOld ++ [(tb.ext, c.reg (LF.CMP n), c.rb (LF.CMP_CTRL n) 31)] }))

/-- A write of CMP (R227). -/
def Chip.writeCmp (c : Chip) (tb : TimeBase) (n : Nat) (v : Word) : Chip := ((c.lfKeep tb n).setReg (LF.CMP n) v).lfJudge tb n

/-- A write of CMP_CTRL: a change of EN from 0 to 1 is judged (R227). -/
def Chip.writeCmpCtrl (c : Chip) (tb : TimeBase) (n : Nat) (v : Word) : Chip :=
  let was := c.rb (LF.CMP_CTRL n) 31
  let rw := maskOf (fldsOf (LF.CMP_CTRL n)) (fun k => decide (k = .rw))
  let c := (c.when (decide (was ≠ bit v 31)) (fun c => c.lfKeep tb n)).setReg (LF.CMP_CTRL n) (v &&& rw)
  if !was && bit v 31 then c.lfJudge tb n else c

/-- A write of LF_CTRL: ZCLR_ARM, and LOAD as staged (R63, R213, R214). -/
def Chip.writeLfCtrl (c : Chip) (tb : TimeBase) (n : Nat) (v : Word) : Chip :=
  (c.when (bit v 1 && !c.rb (LF.LF_CTRL n) 1) (fun c => (c.setF (LF.LF_CTRL n) 1 1 1).modLf n (fun l => { l with armAt := tb.ext }))).stage tb
    (LF.LF_CTRL n) v

/-- The count is set to PRESET by a unit that applies (R214): edges stamped before that instant are overridden. -/
def Chip.lfLoad (c : Chip) (tb : TimeBase) (n : Nat) : Chip :=
  let t := c.t0Ext tb
  let k := c.reg (LF.COUNT_LIVE n)
  (((c.setReg (LF.COUNT_LIVE n) (c.reg (LF.PRESET n))).setF (LF.LF_CTRL n) 0 0 0).modLf n (fun l => { l with
    clr := true, loaded := if l.pend.any (fun p => decide (p.e.ext < t)) then some (t, k) else none })).evt (pgLf n) 4

/-! ### Commands -/

/-- A transition of A or B (R211). -/
def execCountedEdge (n : Nat) (a b : Bool) (s : State) : Res := .next (s.onChip (fun c => c.lfMove s.tb n a b))

/-- A change of both A and B within 4 ns (R212). -/
def execErrQuad (n : Nat) (a b : Bool) (s : State) : Res := .next (s.onChip (fun c => c.lfIllegal s.tb n a b))

/-- The compare pulse ends (R226). -/
def execComparePulseEnd (n : Nat) (s : State) : Res :=
  .next (s.onChip (fun c => match (c.lf n).pulseEnd with
    | some t => if t ≤ s.tb.cycle then
        ((c.modLf n (fun l => { l with pulseEnd := none })).setF (LF.CMP_STAT n) 1 1 0).setSrc s.tb (0x38 + n) false
      else c
    | none => c))

/-- A transition of Z (R213). -/
def execIdx (n : Nat) (z : Bool) (s : State) : Res := .next (s.onChip (fun c => c.lfInput s.tb n 2 z))

/-- A write of LF_CTRL with ZCLR_ARM = 1, which stages its LOAD (R63, R213). -/
def execZclrArm (p : Port) (n : Nat) (v : Word) (s : State) : Res :=
  .next (s.onChip (fun c => c.gated p (LF.LF_CTRL n) (fun c => c.writeLfCtrl s.tb n (v ||| 2#32))))

/-- A write of `LF.CMP` (R227). -/
def execCmpWrite (p : Port) (n : Nat) (v : Word) (s : State) : Res :=
  .next (s.onChip (fun c => c.gated p (LF.CMP n) (fun c => c.writeCmp s.tb n v)))

/-- A write of CMP_CTRL with EN = 1 (R227). -/
def execCmpEnable (p : Port) (n : Nat) (v : Word) (s : State) : Res :=
  .next (s.onChip (fun c => c.gated p (LF.CMP_CTRL n) (fun c => c.writeCmpCtrl s.tb n (v ||| oneBit 31))))

end Sys2Proof.Machine
end

