-- ==== Sys2Proof/Machine/Steep.lean ====
section
/-!
DEFINITION. The standard steep image's cup, exact to the bit: flag clearing and coefficient changes (R195), the
estimators, position and slip (R217 to R225), the profile slice (R238, R242), the obstruction check and signature (R252
to R254), the loops (R181 to R198), commutation (R199 to R202), the Pour record image and the Tray outputs (R203, R204,
R230, R258).

The cup works on the axis's state block in Pot memory; `b` is the block's address.
-/

namespace Sys2Proof.Machine

/-- A word of memory, unsigned and signed. -/
def Chip.w32 (c : Chip) (a : Nat) : Nat := c.loadLE a 4
def Chip.i32 (c : Chip) (a : Nat) : Int := signedN 32 (c.loadLE a 4)
/-- Store a word, modulo 2^32. -/
def Chip.st32 (c : Chip) (a v : Nat) : Chip := c.storeLE a 4 (v % 2 ^ 32)
def Chip.sti (c : Chip) (a : Nat) (v : Int) : Chip := c.st32 a (wOf v).toNat

/-- Reduction modulo 2^32 into the signed range. -/
def wrap32 (v : Int) : Int := (wOf v).toInt

/-- Reduction modulo 2^64 into the signed range. -/
def wrap64 (v : Int) : Int := (BitVec.ofInt 64 v).toInt

/-- Debug-window address of the state block of an axis in its home Pot (Table 6.1). -/
def blockOf (home a : Nat) : Nat := potMem home (a * 0x400)

/-- Debug-window address of a Leaf address of Pot memory in the global form (Table 4.4). -/
def globalMem (a : Nat) : Nat := potMem 0 (a - 0x1000000)

/-- Set bits of LFLAGS: flag bit `i` of loop `k` (Table 7.3). -/
def Chip.lflag (c : Chip) (b k i : Nat) (p : Bool) : Chip :=
  if p then c.st32 (b + 0x204) (Nat.lor (c.w32 (b + 0x204)) (2 ^ (8 * k + i))) else c

/-- Address of the dynamic state of loop `k` and of its active set (Tables 7.7, 7.8). -/
def loopSt (b k : Nat) : Nat := b + 0x220 + 0x20 * k
def loopCf (b k : Nat) : Nat := b + 0x40 + 0x40 * k

/-- ACT and PEND bits of the block (Table 7.8). -/
def Chip.stBit (c : Chip) (b i : Nat) : Bool := (c.w32 (b + 0x208)).testBit i
def Chip.setStBit (c : Chip) (b i : Nat) (v : Bool) : Chip :=
  let w := c.w32 (b + 0x208)
  c.st32 (b + 0x208) (if v then Nat.lor w (2 ^ i) else w - w / 2 ^ i % 2 * 2 ^ i)

/-- The word LAW of an active set: ISH, FFSEL, DSEL, COMPAT, BUMPLESS, LAW (Table 7.10). -/
def Chip.lawWord (c : Chip) (cf : Nat) : Word := BitVec.ofNat 32 (c.w32 (cf + 0x30))

/-- The re-clamp of R198. -/
def Chip.reclamp (c : Chip) (b k : Nat) : Chip :=
  let st := loopSt b k
  let cf := loopCf b k
  let i := c.i32 st
  let u := c.i32 (st + 4)
  let i' := clampI (c.i32 (cf + 0x20)) (c.i32 (cf + 0x24)) i
  let u' := clampI (c.i32 (cf + 0x28)) (c.i32 (cf + 0x2C)) u
  let c := (c.sti st i').sti (st + 4) u'
  (c.lflag b k 1 (decide (i' ≠ i))).lflag b k 2 (decide (u' ≠ u))

/-- The first steps of a cup: flag clearing and coefficient-change processing (R195). -/
def Chip.cupBegin (c : Chip) (b : Nat) : Chip :=
  let gen := c.w32 (b + 0x34) % 256
  let c := if gen ≠ c.w32 (b + 0x20C) % 256 then
      (c.st32 (b + 0x204) (Nat.land (c.w32 (b + 0x204)) (2 ^ 32 - 1 - c.w32 (b + 0x0C)))).st32 (b + 0x20C) gen
    else c
  each (List.range 4) (fun k c =>
    let g := c.loadLE (b + 0x08 + k) 1
    if g = c.loadLE (b + 0x200 + k) 1 then c
    else
      let c := c.setStBit b (8 + k) true
      let law := c.lawWord (loopCf b k)
      let c := if c.stBit b k && bit law 3 && !bit law 0 then c.reclamp b k else c
      c.storeLE (b + 0x200 + k) 1 g) c

/-- The inputs of a cup that its loops read. -/
structure CupIn where
  /-- TICK_NO [31:0] of the cup. -/
  g2 : Nat
  /-- The number that schedules the loops: the tick, or the segment cycle (R184). -/
  num : Nat
  mode : Nat
  ctrl : Nat
  auxFb : Nat
  /-- Primary count and phase currents. -/
  n : Nat
  ia : Int
  ib : Int
  deriving DecidableEq, Repr

/-- The sat32 of a term, with its clip. -/
def satTerm (k e : Int) (sh : Nat) : Int × Bool := satv (asr (k * e) sh)

/-- One evaluation of loop `k` with set-point `r`, feedback `y`, feed-forward word `ffw` and speed `v` (R185, R188,
R191). -/
def Chip.evalLoop (c : Chip) (b : Nat) (i : CupIn) (k : Nat) (r y ffw v : Int) : Chip :=
  let st := loopSt b k
  let cf := loopCf b k
  let law := c.lawWord cf
  let diff := fun (x z : Int) => if k = 0 ∧ i.mode ≠ 2 then (wrap32 (x - z), false) else satv (x - z)
  let hyst := bit law 0
  let e := if hyst then satv (r - y) else diff r y
  let init := !c.stBit b k
  let c := if init then
      ((((((((c.st32 st 0).st32 (st + 4) 0).sti (st + 8) e.1).sti (st + 0xC) y).sti (st + 0x10) r).st32 (st + 0x14)
        0xFFFF).st32 (st + 0x18) i.g2).setStBit b (8 + k) false)
    else c
  let c := c.setStBit b k true
  let ulo := c.i32 (cf + 0x28)
  let uhi := c.i32 (cf + 0x2C)
  if hyst then
    let since := min 0xFFFF (c.w32 (st + 0x14) + (i.g2 + 2 ^ 32 - c.w32 (st + 0x18)) % 2 ^ 32)
    let band := c.i32 (cf + 0x34)
    let out := decide (c.w32 st = 1)
    let want := if band ≤ e.1 then true else if e.1 < -band then false else out
    let sw := decide (want ≠ out) && decide (c.w32 (cf + 0x38) % 2 ^ 16 ≤ since)
    let out := if sw then want else out
    let c := ((c.st32 (st + 0x14) (if sw then 0 else since)).st32 (st + 0x18) i.g2).st32 st (b2n out)
    let c := c.sti (st + 4) (if out then uhi else ulo)
    ((c.sti (st + 0x10) r).lflag b k 0 e.2).lflag b k 5 sw
  else
    let ish := fld law 15 12
    let uPrev := c.i32 (st + 4)
    let dv := if bit law 4 then diff (c.i32 (st + 0xC)) y else diff e.1 (c.i32 (st + 8))
    let f := match fld law 9 8 with
      | 0 => (0, false)
      | 1 => diff r (c.i32 (st + 0x10))
      | 2 => (ffw, false)
      | _ => (v, false)
    let p := satTerm (c.i32 cf) e.1 (c.w32 (cf + 4) % 32)
    let d := satTerm (c.i32 (cf + 0x10)) dv.1 (c.w32 (cf + 0x14) % 32)
    let ff := satTerm (c.i32 (cf + 0x18)) f.1 (c.w32 (cf + 0x1C) % 32)
    let di := satTerm (c.i32 (cf + 8)) e.1 (c.w32 (cf + 0xC) % 32)
    let satA := e.2 || dv.2 || f.2 || p.2 || d.2 || ff.2 || di.2
    let ilo := c.i32 (cf + 0x20)
    let ihi := c.i32 (cf + 0x24)
    let i0 := c.i32 st
    let uPre := p.1 + asr i0 ish + d.1 + ff.1
    let reload := c.stBit b (8 + k) && bit law 2
    let held := !reload && bit law 3 && (decide (uhi < uPre ∧ 0 < di.1) || decide (uPre < ulo ∧ di.1 < 0))
    let t := if reload then (uPrev - p.1 - d.1 - ff.1) * 2 ^ ish else i0 + di.1
    let i1 := if held then i0 else clampI ilo ihi t
    let satI1 := !held && decide (i1 ≠ t)
    let bump := reload && (decide (i1 ≠ t) || decide (uPrev < ulo ∨ uhi < uPrev))
    let uRaw := p.1 + asr i1 ish + d.1 + ff.1
    let u := clampI ulo uhi uRaw
    let c := (((((c.sti st i1).sti (st + 4) u).sti (st + 8) e.1).sti (st + 0xC) y).sti (st + 0x10) r).setStBit b (8 + k)
      false
    ((((c.lflag b k 0 satA).lflag b k 1 satI1).lflag b k 2 (decide (u ≠ uRaw))).lflag b k 3 bump).lflag b k 4 held

/-- Loop `k` is evaluated in this cup (R182). -/
def Chip.loopDue (c : Chip) (b : Nat) (i : CupIn) (k : Nat) : Bool :=
  let casc := BitVec.ofNat 32 (c.w32 (b + 4))
  let div := 2 ^ (match k with | 0 => fld casc 5 4 | 1 => fld casc 3 2 | _ => fld casc 1 0)
  decide ((i.num + 8 - fld casc 10 8) % div = 0)

/-- The set-point of a loop that an outer loop feeds (R183). -/
def Chip.fedSp (c : Chip) (b outer k : Nat) : Int :=
  if c.stBit b outer then c.i32 (loopSt b outer + 4) else c.i32 (loopSt b k + 0x10)

/-- A loop in this cup: evaluated where it is active and due; ACT becomes 0 where it is inactive (R185). -/
def Chip.runLoop (c : Chip) (b : Nat) (i : CupIn) (active : Bool) (k : Nat) (r : Chip → Int) (y ffw v : Int) : Chip :=
  if !active then c.setStBit b k false
  else if c.loopDue b i k then c.evalLoop b i k (r c) y ffw v
  else c

/-! ### The profile slice -/

/-- Profile state within a table (R238). -/
structure Slice where
  seg : Nat
  left : Nat
  p : Int
  v : Int
  a : Int
  done : Bool
  deriving DecidableEq, Repr

/-- Type and length of an entry of a profile table at address `t` (R237). -/
def Chip.ptType (c : Chip) (t seg : Nat) : Nat := if 16 ≤ seg then 3 else c.loadLE (t + 8 * seg + 6) 1
def Chip.ptLen (c : Chip) (t seg : Nat) : Nat := c.loadLE (t + 8 * seg + 4) 2
def Chip.ptJerk (c : Chip) (t seg : Nat) : Int := c.i32 (t + 8 * seg)

/-- Pass entries that have no ticks left (R238); `fuel` bounds the sixteen entries of a table. -/
def Chip.passSeg (c : Chip) (t cruise : Nat) : Nat → Slice → Slice
  | 0, s => s
  | fuel + 1, s =>
    if s.left = 0 ∧ c.ptType t s.seg ≠ 3 then
      let seg := s.seg + 1
      c.passSeg t cruise fuel { s with seg := seg, left := if c.ptType t seg = 1 then cruise else c.ptLen t seg }
    else s

/-- One tick of motion (R238). -/
def Chip.profStep (c : Chip) (t cruise : Nat) (dist : Int) (s : Slice) : Slice :=
  if c.ptType t s.seg = 3 then s
  else
    let j := if c.ptType t s.seg = 1 then 0 else c.ptJerk t s.seg
    let a := wrap64 (s.a + j)
    let v := wrap64 (s.v + a)
    let p := wrap64 (s.p + v)
    let s := c.passSeg t cruise 17 { s with a := a, v := v, p := p, left := s.left - 1 }
    if c.ptType t s.seg = 3 then { s with p := dist, v := 0, a := 0, done := true } else s

/-- `n` steps. -/
def Chip.profSteps (c : Chip) (t cruise : Nat) (dist : Int) : Nat → Slice → Slice
  | 0, s => s
  | n + 1, s => c.profSteps t cruise dist n (c.profStep t cruise dist s)

/-- What the slice of the cup's tick gives (R242). -/
structure SliceOut where
  /-- The axis is served. -/
  served : Bool
  sp : Int
  ff : Int
  acc : Int
  up : Bool
  hold : Bool
  done : Bool
  gap : Bool
  base : Nat
  reqGen : Nat
  /-- TARGET of the record. -/
  target : Word
  deriving DecidableEq, Repr

/-- The profile table of number `pt` in the image data of a Pot (R237). -/
def Chip.ptAddr (c : Chip) (pot pt : Nat) : Nat := potMem pot (c.rf (SEQ.PT_OFS 0) 18 0 + 128 * pt)

/-- PROF_DIV and SEQ_DIV (Table 9.11). -/
def Chip.profDiv (c : Chip) : Nat := 2 ^ (3 + c.rf (SEQ.SVC_CFG 0) 9 8)
def Chip.seqDiv (c : Chip) : Nat := 2 ^ (4 + c.rf (SEQ.SVC_CFG 0) 13 12)

/-- The state of a slice record as stored at `r` (Table 9.3). -/
def Chip.sliceAt (c : Chip) (r : Nat) : Slice :=
  ⟨c.w32 (r + 4) % 32, c.w32 (r + 8), signedN 64 (c.loadLE (r + 0x10) 8), signedN 64 (c.loadLE (r + 0x18) 8),
   signedN 64 (c.loadLE (r + 0x20) 8), (c.w32 (r + 4)).testBit 11⟩

/-- Distance of the move of a record, in 2^-32 counts (R239). -/
def Chip.sliceDist (c : Chip) (r : Nat) : Int := (wrap32 (c.i32 (r + 0x2C) - c.i32 (r + 0x28))).natAbs * 2 ^ 32

/-- The slice of the cup's tick: the published record taken k steps on (R238, R242). -/
def Chip.sliceNow (c : Chip) (b home g2 : Nat) : SliceOut :=
  let addr := c.w32 (b + 0x1F4)
  let served := (c.w32 b).testBit 12 && decide (addr ≠ 0)
  if !served then ⟨false, c.i32 (b + 0x10), c.i32 (b + 0x20), 0, true, false, true, false, 0, 0, 0#32⟩
  else
    let r := globalMem addr
    let w := c.w32 (r + 4)
    let base := c.w32 r
    let k0 := (g2 + 2 ^ 32 - base) % 2 ^ 32
    let lim := 2 * c.profDiv
    let gap := decide (lim ≤ k0)
    let k := if gap then lim - 1 else k0
    let start := c.i32 (r + 0x28)
    let up := !w.testBit 10
    let sgn : Int := if up then 1 else -1
    let gen := w / 2 ^ 16 % 256
    let tgt := BitVec.ofNat 32 (c.w32 (r + 0x2C))
    if w.testBit 12 then ⟨true, start, 0, 0, up, true, w.testBit 11, gap, base, gen, tgt⟩
    else if w.testBit 13 then ⟨true, c.i32 (r + 0x2C), 0, 0, up, false, true, gap, base, gen, tgt⟩
    else
      let s := c.profSteps (c.ptAddr home (w / 32 % 32)) (c.w32 (r + 0xC)) (c.sliceDist r) k (c.sliceAt r)
      let tper := c.w32 (b + 0x1A0)
      let ff := satI 32 ((sgn * s.v * 256000000000) / ((2 ^ 32 * tper : Nat) : Int))
      ⟨true, wrap32 (start + sgn * asr s.p 32), if gap then 0 else ff, satI 32 (asr s.a 16), up, false, s.done, gap, base, gen, tgt⟩

/-! ### Estimators in the state block -/

/-- Read an estimator block (Table 8.4). -/
def Chip.estAt (c : Chip) (e : Nat) : Est :=
  let f := c.w32 (e + 0x14)
  ⟨c.w32 e, c.w32 (e + 4), c.w32 (e + 8), c.i32 (e + 0xC), c.i32 (e + 0x10), f.testBit 0, f.testBit 1, f.testBit 2,
   f.testBit 3, f.testBit 4, f.testBit 5, f.testBit 6, f / 256 % 16, (List.range 8).map (fun j => c.w32 (e + 0x20 + 4 * j))⟩

/-- Write an estimator block; bits [31:12] of the flag word are kept. -/
def Chip.putEst (c : Chip) (e : Nat) (s : Est) : Chip :=
  let f := c.w32 (e + 0x14) / 2 ^ 12 * 2 ^ 12 + s.fstat false + 64 * b2n s.valid + 256 * s.fill
  let c := ((((c.st32 e s.nPrev).st32 (e + 4) s.agePrev).st32 (e + 8) s.tLast).sti (e + 0xC) s.vp).sti (e + 0x10) s.v
  each (List.range 8) (fun j c => c.st32 (e + 0x20 + 4 * j) (s.ring.getD j 0)) (c.st32 (e + 0x14) f)

/-- The primary estimator's step and the extended position (R217, R223). -/
def Chip.primary (c : Chip) (b num n w : Nat) (restart : Bool) : Chip × Est × Bool :=
  let e := b + 0x300
  let tper := c.w32 (b + 0x1A0)
  let r := (c.estAt e).step ⟨n, w, restart, num, tper, c.w32 (e + 0x1C), c.w32 (b + 0x180) / 2 ^ 16 % 4, c.w32 (b + 0x184),
    c.w32 (b + 0x188), c.w32 (b + 0x18C)⟩
  let x0 : Int := signedN 64 (c.w32 e + c.w32 (e + 0x18) * 2 ^ 32)
  let x : Int := if r.2.1 then signedN 32 n else wrap64 (x0 + r.2.2)
  let c := (c.putEst e r.1).st32 (e + 0x18) ((BitVec.ofInt 64 x).toNat / 2 ^ 32)
  (c, r.1, r.2.1)

/-- The secondary estimator and the slip check (R217, R220, R224, R225): the chip, the speed and the secondary part of
FSTAT. -/
def Chip.secondary (c : Chip) (b num tseen : Nat) (ok : Bool) (nP n w status : Nat) (rstP : Bool) : Chip × Int × Nat :=
  let e := b + 0x340
  let f := c.w32 (e + 0x14)
  if !ok then
    let c := c.st32 (e + 0x14) (f - f / 64 % 2 * 64)
    (c, 0, 2 ^ 16 * (f / 2 ^ 15 % 2) + 2 ^ 24 * (f / 2 ^ 24 % 256))
  else
    let gen := c.w32 (b + 0x19C) % 256
    let rz := decide (gen ≠ f / 2 ^ 16 % 256)
    let r := (c.estAt e).step ⟨n, w, rz || status.testBit 1, num, c.w32 (b + 0x1A0), tseen, c.w32 (b + 0x1A4) % 4,
      c.w32 (b + 0x1A8), c.w32 (b + 0x1AC), c.w32 (b + 0x1B0)⟩
    let c := c.putEst e r.1
    let refOk := f.testBit 14
    let slip0 := f.testBit 15
    let run0 := f / 2 ^ 24 % 256
    let en := (c.w32 (b + 0x180)).testBit 8
    -- a new REZERO_GEN takes a reference whether or not the check is enabled (R224)
    let newRef := rz || (en && (!refOk || r.2.1 || rstP))
    let refP := if newRef then nP else c.w32 (e + 0x18)
    let refS := if newRef then n else c.w32 (e + 0x1C)
    let run1 := if newRef then 0 else run0
    let slip1 := if newRef then false else slip0
    let dp := signedN 32 (nP + 2 ^ 32 - refP)
    let ds := signedN 32 (n + 2 ^ 32 - refS)
    let dev := dp - asr (ds * c.i32 (b + 0x190)) (c.w32 (b + 0x194) % 32)
    let ovr := en && decide ((c.w32 (b + 0x198) : Int) < dev.natAbs)
    let run := if en then (if ovr then min 255 (run1 + 1) else 0) else run1
    let slip := if en then slip1 || decide (c.w32 (b + 0x180) % 256 ≤ run) else slip1
    let low := c.w32 (e + 0x14) % 2 ^ 12
    let c := c.st32 (e + 0x14) (low + 2 ^ 14 * b2n (refOk || newRef) + 2 ^ 15 * b2n slip + 2 ^ 16 * gen + 2 ^ 24 * run)
    let c := (c.st32 (e + 0x18) refP).st32 (e + 0x1C) refS
    (c, r.1.v, 2 ^ 8 * r.1.fstat r.2.1 + 2 ^ 15 + 2 ^ 16 * b2n slip + 2 ^ 17 * b2n ovr + 2 ^ 24 * run)

/-! ### Obstruction and signature -/

/-- The group word of the configuration half (Table 9.7). -/
structure GroupWord where
  state : Nat
  role : Nat
  member : Bool
  deriving DecidableEq, Repr

def Chip.groupWord (c : Chip) (b : Nat) : GroupWord :=
  let w := c.w32 (b + 0x1E8)
  ⟨w % 16, w / 16 % 16, w.testBit 16⟩

/-- The envelope limit of a bin (R252): ENV where ENV_OK, else F_ABS.  The word at 0x1F0 holds the address of the
member's envelope, and in its two low bits, which no envelope address uses, the number l of the LEAF, so that the header
word at 0x240 follows from it (DEDUCED, log 55). -/
def Chip.envLimit (c : Chip) (b : Nat) (leafRole opening : Bool) (bin : Nat) : Int × Bool :=
  let fabs : Int := c.w32 (b + 0x1C4) / 2 ^ 16
  let word := c.w32 (b + 0x1F0)
  if !leafRole || decide (word = 0) then (fabs, false)
  else
    let l := word % 4
    let env := globalMem (word - l)
    if (c.w32 (env - 0x10 - 0x100 * l)).testBit l then
      (min fabs (c.loadLE (env + (if opening then 128 else 0) + 2 * bin) 2), true)
    else (fabs, false)

/-- What the obstruction check of a cup leaves for the rest of the cup (R252 to R254). -/
structure ObsOut where
  /-- Set-point of loop 0 and FF word after a freeze. -/
  sp : Int
  ff : Int
  /-- The relief clamp applies (R253). -/
  latch : Bool
  /-- Tray words at 0xC8 and 0xCC (Table 9.9). -/
  f : Int
  word : Nat
  deriving DecidableEq, Repr

/-- sgn, with sgn(0) = 0. -/
def sgnI (v : Int) : Int := v.sign

/-- The direction of a move: whether it is toward POS_B (R252).  The slice names its target, which is POS_A or POS_B of the axis's member
entry; where it is neither, because they have changed since, the direction recorded for the move stands (DEDUCED, log 77). -/
def Chip.moveDir (c : Chip) (axis : Nat) (target : Word) (recorded : Bool) : Bool :=
  match c.regs.find? (fun e => decide (0xD0000 ≤ e.1 ∧ e.1 < 0xF0000 ∧ 0x80 ≤ e.1 % 0x1000 ∧ e.1 % 0x1000 < 0xC0) && bit e.2 31 &&
      decide (fld e.2 7 0 = axis)) with
  | some e =>
    let g := (e.1 - 0xD0000) / 0x1000
    let m := e.1 % 0x1000 / 4 - 0x20
    if c.reg (SEQ.POS_B g m) = target then true else if c.reg (SEQ.POS_A g m) = target then false else recorded
  | none => recorded

/-- The obstruction check and the signature of a cup (R252 to R254), with `tq` the torque, `v` the primary speed, `n` the
primary count and `g2` the tick. -/
def Chip.obstruct (c : Chip) (b axis : Nat) (i : CupIn) (sl : SliceOut) (tq v : Int) : Chip × ObsOut :=
  let cfg := BitVec.ofNat 32 (c.w32 (b + 0x1C0))
  let g := c.groupWord b
  let obs := BitVec.ofNat 32 (c.w32 (b + 0x3C0))
  let opening := c.moveDir axis sl.target (bit obs 10)
  -- clearing (R253): the group is not OBSTRUCTED and the slice is newer than the freeze
  let newer := decide (0 < wrap32 ((sl.base : Int) - c.w32 (b + 0x3CC)))
  let clr := decide (g.state ≠ 5) && sl.served && newer && (bit obs 8 || bit obs 9)
  let run0 := if clr then 0 else fld obs 7 0
  let latch0 := bit obs 8 && !clr
  let froz0 := bit obs 9 && !clr
  let en := bit cfg 31
  let fm := satI 32 (asr (c.i32 (b + 0x1C8) * tq) (c.w32 (b + 0x1CC) % 32))
  let fj := satI 32 (asr (c.i32 (b + 0x1D0) * sl.acc) (c.w32 (b + 0x1D4) % 32))
  let fb := satI 32 (asr (c.i32 (b + 0x1D8) * v) (c.w32 (b + 0x1DC) % 32))
  let fs : Int := (c.w32 (b + 0x1C4) % 2 ^ 16 : Nat) * sgnI v
  let f := if en then satI 32 (fm - fj - fb - fs) else 0
  let fd := if sl.up then f else -f
  let bin := (clampI 0 63 (asr (signedN 32 (i.n + 2 ^ 32 - c.w32 (b + 0x1E0))) (fld cfg 4 0))).toNat
  let lim := c.envLimit b (g.member && decide (g.role = 0)) opening bin
  let moving := sl.served && !sl.hold && !sl.done
  let armed := en && g.member && decide (g.state = 2 ∨ g.state = 4 ∨ g.state = 6) && moving && !froz0
  let ovr := armed && decide (lim.1 ≤ fd)
  let run := if ovr then min 255 (run0 + 1) else if armed then 0 else run0
  let hit := armed && decide (fld cfg 23 16 ≤ run)
  let sgn : Int := if sl.up then 1 else -1
  let latch := latch0 || hit
  let froz1 := froz0 || hit
  -- a LOCK member follows its demand and does not freeze
  let joins := g.member && decide (g.role ≠ 1 ∧ g.state = 5) && !latch && !froz1
  let froz := froz1 || joins
  let fsp := if hit then wrap32 ((i.n : Int) - sgn * (c.w32 (b + 0x1E4) / 2 ^ 16 : Nat))
    else if joins then wrap32 i.n else c.i32 (b + 0x3C8)
  let c := if hit || joins then (c.sti (b + 0x3C8) fsp).st32 (b + 0x3CC) i.g2 else c
  -- the signature
  let sig := en && g.member && moving
  let newSig := sig && decide (fld obs 23 16 ≠ sl.reqGen)
  let c := if newSig then (each (List.range 64) (fun j c => c.setByte (b + 0x380 + j) 0#8) c).sti (b + 0x3D0) 0 else c
  let old := c.loadLE (b + 0x380 + bin) 1
  let lev := (clampI 0 255 (asr fd (fld cfg 11 8))).toNat
  let c := if sig then (c.storeLE (b + 0x380 + bin) 1 (max old lev)).sti (b + 0x3D0) (max (c.i32 (b + 0x3D0)) fd) else c
  let dir := if newSig then opening else bit obs 10
  let gen := if newSig then sl.reqGen else fld obs 23 16
  let c := c.st32 (b + 0x3C0) (run + 2 ^ 8 * b2n latch + 2 ^ 9 * b2n froz + 2 ^ 10 * b2n dir + 2 ^ 16 * gen)
  let sp := if froz then fsp else sl.sp
  let ff := if froz then 0 else sl.ff
  let word := bin + 2 ^ 8 * run + 2 ^ 16 * b2n ovr + 2 ^ 17 * b2n (en && decide ((c.w32 (b + 0x1C4) / 2 ^ 16 : Nat) ≤ fd))
    + 2 ^ 18 * b2n latch + 2 ^ 19 * b2n froz + 2 ^ 20 * b2n armed + 2 ^ 21 * b2n lim.2 + 2 ^ 22 * b2n sl.gap
    + 2 ^ 23 * b2n (sl.served && sl.done) + 2 ^ 24 * b2n (sl.served && sl.hold)
  (c, ⟨sp, ff, latch, f, word⟩)

/-- The clamp on the set-point of loop 3, or on the torque (R249, R253). -/
def Chip.motionClamp (c : Chip) (b : Nat) (latch : Bool) (v : Int) : Int :=
  let g := c.groupWord b
  let iso := (c.w32 (b + 0x1EC) % 2 ^ 16 : Nat)
  let obs := (c.w32 (b + 0x1E4) % 2 ^ 16 : Nat)
  let v := if g.member && decide (g.state = 8 ∨ g.state = 15) && decide (g.role ≠ 1) then clampI (-(iso : Int)) iso v else v
  if latch then clampI (-(obs : Int)) obs v else v

/-- A number read from big-endian bytes of a frame record. -/
def be (l : List Byte) (o n : Nat) : Nat := ofBE ((l.drop o).take n)

/-- The node header reports a feedback restart (Table 10.4). -/
def hdrRestart (h : List Byte) : Bool := (be h 0 2).testBit 11

/-- Write bytes to the cup port of Leaf `n`. -/
def Chip.setPort (c : Chip) (n o : Nat) (bs : List Byte) : Chip :=
  c.modLeaf n (fun l => { l with port := bs.zipIdx.foldl (fun p e => Tab.set (fun _ => 0#8) p (o + e.2) e.1) l.port })

/-- The standard image's cup on Leaf `n` (R183). -/
def Chip.steepCup (c : Chip) (n : Nat) (x : Cup) (cycle4 secOk : Bool) : Chip :=
  let b := blockOf x.slot x.axis
  let lmode := BitVec.ofNat 32 (c.w32 b)
  let g2 := x.tick.toNat % 2 ^ 32
  let num := if cycle4 then x.tick.toNat / 4 % 2 ^ 32 else g2
  let mode := fld lmode 1 0
  let ctrl := fld lmode 5 4
  let i : CupIn := ⟨g2, num, mode, ctrl, fld lmode 9 8, be x.record 4 4, signedN 16 (be x.record 0 2),
    signedN 16 (be x.record 2 2)⟩
  let tseen := c.w32 (b + 0x31C)
  let c := c.cupBegin b
  -- position and speed
  let (c, est, rst) := c.primary b num i.n (be x.record 8 4) (hdrRestart x.hdr)
  let (c, secV, secF) := c.secondary b num tseen secOk i.n (ofLE (x.sec.take 4)) (ofLE ((x.sec.drop 4).take 4))
    (ofLE ((x.sec.drop 8).take 4)) rst
  let c := c.st32 (b + 0x31C) (c.w32 (b + 0x1A0))
  let v := est.v
  -- angle, Clarke and Park
  let full := decide (mode = 0)
  let thS := (asr (wrap32 ((i.n : Int) - c.i32 (b + 0x28)) * c.i32 (b + 0x2C)) (c.w32 (b + 0x30) % 32) % 2 ^ 16).toNat
  let adv := satv (asr (c.i32 (b + 0x38) * v) (c.w32 (b + 0x3C) % 32))
  let thO := (((thS : Int) + adv.1) % 2 ^ 16).toNat
  let iBe := asr ((i.ia + 2 * i.ib) * 18919) 15
  let id := asr (i.ia * cos16 thS + iBe * sin16 thS) 15
  let iq := asr (iBe * cos16 thS - i.ia * sin16 thS) 15
  -- slice and obstruction
  let sl := c.sliceNow b x.home g2
  let tq := if full then iq
    else if mode = 1 then (if x.kind = .cross then (c.ax x.axis).priorTq else (c.ax x.axis).prevTq)
    else (Config.auxTorque x.axis x.tick.toNat).toInt
  let (c, ob) := c.obstruct b x.axis i sl tq v
  let aux := decide (mode = 2)
  let pos := decide (ctrl = 0)
  let vel := decide (ctrl ≠ 2)
  let c := c.sti (b + 0x3C4) (if aux then c.i32 (b + 0x10) else ob.sp)
  -- loops 0 and 1; the SAT_A bits of this cup are kept apart for FLG.SAT (R192)
  let lf0 := c.w32 (b + 0x204)
  let c := c.st32 (b + 0x204) (lf0 - Nat.land lf0 0x01010101)
  let y0 : Int := if aux then (if i.auxFb = 1 then i.ia else wrap32 i.n) else wrap32 i.n
  let c := c.runLoop b i (aux || pos) 0 (fun c => if aux then c.i32 (b + 0x10) else ob.sp) y0 ob.ff v
  let c := c.runLoop b i (!aux && vel) 1 (fun c => if pos then c.fedSp b 0 1 else c.i32 (b + 0x14)) v ob.ff v
  -- loops 2 and 3
  let c := c.runLoop b i full 2 (fun c => c.i32 (b + 0x18)) id ob.ff v
  let c := c.runLoop b i full 3
    (fun c => c.motionClamp b ob.latch (if vel then c.fedSp b 1 3 else c.i32 (b + 0x1C))) iq ob.ff v
  let satA := decide (Nat.land (c.w32 (b + 0x204)) 0x01010101 ≠ 0)
  let c := c.st32 (b + 0x204) (Nat.lor (c.w32 (b + 0x204)) (Nat.land lf0 0x01010101))
  -- inverse Park
  let vd := c.i32 (loopSt b 2 + 4)
  let vq := c.i32 (loopSt b 3 + 4)
  let al := asr (vd * cos16 thO - vq * sin16 thO) 15
  let bt := asr (vd * sin16 thO + vq * cos16 thO) 15
  let out16 := full && (decide (satI 16 al ≠ al) || decide (satI 16 bt ≠ bt))
  let c := c.lflag b 3 6 out16
  let torque := c.motionClamp b ob.latch (if ctrl = 2 then c.i32 (b + 0x1C) else c.i32 (loopSt b 1 + 4))
  -- the Pour record image (Table 7.5)
  let le := fun (k : Nat) (z : Int) => leBytes k (wOf z).toNat
  let c := c.setPort n 0x80 (match mode with
    | 0 => le 2 (satI 16 al) ++ le 2 (satI 16 bt) ++ [0#8, 0#8]
    | 1 => le 4 torque ++ [0#8, 0#8] ++ leBytes 2 (c.w32 (b + 0x24) % 2 ^ 16)
    | _ => le 4 (c.i32 (loopSt b 0 + 4)) ++ [0#8, 0#8, 0#8, 0#8])
  let c := c.setPort n 0x88 [0#8, 0#8, 0#8, 0#8]
  let c := c.st32 (b + 0x210) (if full then thS + 2 ^ 16 * thO else c.w32 (b + 0x210))
  -- the Tray outputs (Tables 7.6, 8.5, 9.9)
  let z := fun (p : Bool) (v : Int) => le 4 (if p then v else 0)
  let entry := if aux || pos then 0 else if vel then 1 else 3
  let c := c.setPort n 0x90
    ((if mode = 1 ∧ ctrl = 2 then le 4 (c.i32 (b + 0x1C)) else le 4 (c.i32 (loopSt b entry + 0x10)))
      ++ le 4 (c.i32 (loopSt b 0 + 4)) ++ z (!aux) (c.i32 (loopSt b 1 + 4))
      ++ z full id ++ z full iq ++ z full vd ++ z full vq ++ z full (thS + 2 ^ 16 * thO : Nat)
      ++ leBytes 4 (c.w32 (b + 0x204)))
  let c := c.setPort n 0xB4 (leBytes 4 i.n ++ leBytes 4 (c.w32 (b + 0x318)) ++ le 4 v
    ++ leBytes 4 (est.fstat rst + secF) ++ le 4 secV)
  let c := c.setPort n 0xC8 (le 4 ob.f ++ leBytes 4 ob.word)
  c.modLeaf n (fun l => if est.sat || satA || out16 || (full && adv.2) then { l with f := { l.f with flg := l.f.flg ||| 1#32 } } else l)

end Sys2Proof.Machine
end

