-- ==== Sys2Proof/Machine/Seq.lean ====
section
/-!
DEFINITION. Door groups: members, proving, hardware transitions (R246), the sequencer's evaluation (R245, Table 9.5) and
the effects of an entry into a state (R248, R254, R255).
-/

namespace Sys2Proof.Machine

/-! ### Axes and members -/

/-- Address of the state block of an axis. -/
def Chip.axBlock (c : Chip) (a : Nat) : Nat := blockOf (c.axHome a) a

/-- A member entry. -/
structure Mem where
  g : Nat
  m : Nat
  axis : Nat
  role : Nat
  prove : Nat
  deriving DecidableEq, Repr

/-- The entries of the member tables with EN = 1, in ascending group and member. -/
def Chip.memTable (c : Chip) : List Mem :=
  c.regs.filterMap (fun e =>
    if 0xD0000 ≤ e.1 ∧ e.1 < 0xF0000 ∧ 0x80 ≤ e.1 % 0x1000 ∧ e.1 % 0x1000 < 0xC0 ∧ bit e.2 31 then
      some ⟨(e.1 - 0xD0000) / 0x1000, e.1 % 0x1000 / 4 - 0x20, fld e.2 7 0, fld e.2 26 24, fld e.2 30 29⟩
    else none)

/-- The members in force: entries of enabled groups whose axis is enabled (R243). -/
def Chip.members (c : Chip) : List Mem := c.memTable.filter (fun x => c.en (pgSeq x.g) && c.axEn x.axis)

def Chip.membersOf (c : Chip) (g : Nat) : List Mem := c.members.filter (fun x => decide (x.g = g))
def Chip.memberOf (c : Chip) (a : Nat) : Option Mem := c.members.find? (fun x => decide (x.axis = a))

/-- The LEAF members of a group, in ascending member. -/
def Chip.leafMems (c : Chip) (g : Nat) : List Mem := (c.membersOf g).filter (fun x => decide (x.role = 0))

/-- STATE of a group. -/
def Chip.seqState (c : Chip) (g : Nat) : Nat := c.rf (SEQ.STAT g) 31 28

/-- The axes that the profiler of Pot `p` serves (R233), ascending. -/
def Chip.served (c : Chip) (p : Nat) : List Nat :=
  c.enAxes.filter (fun a => decide (c.axHome a = p) && c.rb (AXIS.LMODE a) 12)

/-- Word 1 or 0 of an entry of the service table in Pot `p` (R234), as an offset in the Pot's memory. -/
def Chip.svcArea (c : Chip) (p entry word : Nat) : Nat :=
  c.loadLE (potMem p (c.rf (SEQ.SVC_TAB 0) 18 0 + 8 * entry + 4 * word)) 4 % 2 ^ 19

/-- Address of an entry of the service table in Pot `p` (R234). -/
def Chip.svcAddr (c : Chip) (p entry : Nat) : Nat := potMem p (c.rf (SEQ.SVC_TAB 0) 18 0 + 8 * entry)

/-- Entry of a kind in the service table (R234). -/
def svcEntry (kind p g : Nat) : Nat :=
  match kind with | 0 => p | 1 => 8 + p | 2 => 16 + g | _ => 48 + g

/-- Leaf address of an offset in Pot `p`. -/
def leafAddr (p o : Nat) : Nat := 0x1000000 + p * 0x80000 + o

/-! ### The cycle record -/

/-- Store bytes in the cycle record of a group (Table 9.6). -/
def Chip.crec (c : Chip) (g o : Nat) (l : List Byte) : Chip :=
  c.modGrp g (fun t => { t with crec := l.zipIdx.foldl (fun r e => Tab.set (fun _ => 0#8) r (o + e.2) e.1) t.crec })

/-- An access to `n` bytes of the shared data memory of Pot `p` meets the errors of its words (R178): single-bit errors are corrected and
counted; a double-bit error quarantines the Pot, and its words read 0. -/
def Chip.smemTouch (c : Chip) (p k n : Nat) : Chip :=
  if c.meets k n 8 true then
    let bad := c.ecc.filter (fun e => decide (k / 8 ≤ e.1 / 8 ∧ e.1 / 8 ≤ (k + n - 1) / 8) && e.2)
    (bad.foldl (fun c e => c.setBytes (e.1 / 8 * 8) (List.replicate 8 0#8)) c).quarPot p 3
  else c.correct k n 8 (POT.SMEM_CE p)

/-- Copy SIG and F_PEAK of LEAF `l`, axis `a`, into the cycle record for a direction (R254), by an access to its state block (R178). -/
def Chip.sigCopy (c : Chip) (g a l : Nat) (opening : Bool) : Chip :=
  let b := c.axBlock a
  let c := c.smemTouch (c.axHome a) (b + 0x380) 0x54
  let peak := (clampI 0 0xFFFF (c.i32 (b + 0x3D0))).toNat
  let c := c.crec g (0x40 + 0x80 * l + (if opening then 0x40 else 0)) (c.bytes (b + 0x380) 64)
  c.crec g (0x24 + 4 * l + (if opening then 2 else 0)) (leBytes 2 peak)

/-- A cup of the axis from whatever tick runs on a Leaf. -/
def Chip.axRunning (c : Chip) (a : Nat) : Bool :=
  (List.range 64).any (fun n => match (c.leaf n).cup with | some r => decide (r.cup.axis = a) | none => false)

/-- The copies that an entry into OPEN, or into LOCKING, makes (R254): at once, or after a running cup. -/
def Chip.sigCopies (c : Chip) (g : Nat) (opening : Bool) : Chip :=
  ((c.leafMems g).take 4).zipIdx.foldl (fun c e =>
    if c.axRunning e.1.axis then c.modGrp g (fun t => { t with sigOwed := t.sigOwed ++ [(e.1.axis, e.2, opening)] })
    else c.sigCopy g e.1.axis e.2 opening) c

/-- The end of a cycle (R255). -/
def Chip.cycleEnd (c : Chip) (g : Nat) : Chip :=
  let t := c.grp g
  if !t.inCycle then c
  else
    let good := !t.obs && !t.fault && !t.retry
    let c := (c.bump (SEQ.CYCLES g)).evt (pgSeq g) 3
    let n := min 4 (c.leafMems g).length
    let w := g + 2 ^ 8 * b2n good + 2 ^ 9 * b2n t.obs + 2 ^ 10 * b2n t.retry + 2 ^ 16 * (2 ^ n - 1)
    let c := c.crec g 0 (leBytes 4 w ++ leBytes 4 (c.rn (SEQ.CYCLES g)))
    let c := c.crec g 0x20 (leBytes 4 (t.unTries + 2 ^ 8 * t.lkTries + 2 ^ 16 * c.rf (SEQ.STAT g) 15 8))
    c.modGrp g (fun t => { t with inCycle := false, k2 := t.k2 ++ [t.crec] })

/-! ### Entering a state -/

/-- A group enters a state (R246): STATE_GEN, ENTRY_TICK, events, the cycle's bookkeeping (R254, R255), and the
configuration halves that follow at the next T0 (R257). -/
def Chip.seqEnter (c : Chip) (g state : Nat) : Chip :=
  let old := c.seqState g
  let tick := c.tickNo % 2 ^ 32
  let c := c.setF (SEQ.STAT g) 31 28 state
  let c := c.setF (SEQ.STAT g) 23 16 ((c.rf (SEQ.STAT g) 23 16 + 1) % 256)
  let c := (c.setN (SEQ.ENTRY_TICK g) tick).evt (pgSeq g) 0
  let c := c.when (decide (state = 5)) (fun c => (c.evt (pgSeq g) 1).modGrp g (fun t => { t with obs := true }))
  let c := c.when (decide (state = 8)) (fun c => (c.evt (pgSeq g) 2).modGrp g (fun t => { t with fault := true }))
  let c := c.modGrp g (fun t => { t with dirty := true, pulse := if old = state then t.pulse else false })
  -- leaving CLOSED_LOCKED begins a cycle
  let c := c.when (decide (old = 0 ∧ state ≠ 0)) (fun c => c.modGrp g (fun t => { t with
    inCycle := true, obs := decide (state = 5), fault := decide (state = 8), retry := false, crec := [],
    seenOpen := false, seenClosing := false }))
  let t := c.grp g
  let stamp := fun (c : Chip) (o : Nat) => c.crec g o (leBytes 4 tick)
  match state with
  | 0 => (stamp c 0x1C).cycleEnd g
  | 1 => if old = 1 then c else stamp c 0x08
  | 2 => stamp c 0x0C
  | 3 =>
    let c := if t.seenOpen then c else (stamp c 0x10).modGrp g (fun t => { t with seenOpen := true })
    let c := c.modGrp g (fun t => { t with viaReopen := decide (old = 6) })
    if old = 2 ∨ old = 6 then c.sigCopies g true else c
  | 4 => if t.seenClosing then c else (stamp c 0x14).modGrp g (fun t => { t with seenClosing := true })
  | 7 =>
    if old = 7 then c
    else
      let c := stamp c 0x18
      if old = 4 then c.sigCopies g false else c
  | _ => c

/-- A transition made by the SEQ block between sequencer runs (R246), with its journal entry. -/
def Chip.seqHardware (c : Chip) (tb : TimeBase) (g state cause axis : Nat) : Chip :=
  let old := c.seqState g
  let c := c.setF (SEQ.STAT g) 27 24 cause
  let c := if state = 5 then (c.setF (SEQ.STAT g) 3 0 old).setN (SEQ.OBS g) (2 ^ 31 + axis) else c
  (c.seqEnter g state).journal (.seq ⟨g, state, cause, axis⟩)

/-- A member's on-time cup reports LATCH newly set (R246). -/
def Chip.seqObstructed (c : Chip) (tb : TimeBase) (a : Nat) : Chip :=
  if c.isStandby then c
  else match c.memberOf a with
    | some x => let s := c.seqState x.g
                if s = 2 ∨ s = 4 ∨ s = 6 then c.seqHardware tb x.g 5 5 a else c
    | none => c

/-- AXIS.STAT of an axis newly shows FS, STALLED or ORPHAN (R246).  A group in FAULT takes the transition as any other state but ISOLATED
does, with a new CAUSE. -/
def Chip.seqAxisFault (c : Chip) (tb : TimeBase) (a : Nat) : Chip :=
  if c.isStandby then c
  else match c.memberOf a with
    | some x => if c.seqState x.g = 15 then c else c.seqHardware tb x.g 8 6 a
    | none => c

/-- The groups of axes that newly show FS, STALLED or ORPHAN since chip `old` are faulted (R246). -/
def Chip.tellAxes (c : Chip) (tb : TimeBase) (old : Chip) : Chip :=
  (old.members.map (fun x => x.axis)).dedup.foldl (fun e a =>
    if Nat.land (c.rf (AXIS.STAT a) 31 29) (7 - old.rf (AXIS.STAT a) 31 29) ≠ 0 then e.seqAxisFault tb a else e) c

/-- Run an effect that may set FS, STALLED or ORPHAN, and fault the groups of the axes that newly show one (R246). -/
def Chip.watchAxes (c : Chip) (tb : TimeBase) (f : Chip → Chip) : Chip := (f c).tellAxes tb c

/-- An access of the chip or of a cup to `n` bytes of the shared data memory of Pot `p` (R178), with what follows for the groups (R246). -/
def Chip.smemMeet (c : Chip) (tb : TimeBase) (p k n : Nat) : Chip :=
  if c.meets k n 8 true then c.watchAxes tb (fun c => c.smemTouch p k n) else c.smemTouch p k n

/-- As a write of `n` bytes, which replaces the words it covers whole: only a double-bit error is met. -/
def Chip.smemWrite (c : Chip) (tb : TimeBase) (p k n : Nat) : Chip :=
  if c.meets k n 8 true then c.smemMeet tb p k n else c.eccFree k n 8

/-! ### Proving (R243) -/

/-- The Strainer level of an event pin latched at the T0. -/
def Chip.epLatch (c : Chip) (n : Nat) : Bool := decide (n < 48) && c.rb (EP.EP_LATCH (n / 8)) (n % 8)

/-- The lock input and the closed input read their proving levels; one that is not enabled proves nothing wrong. -/
def Chip.lockInput (c : Chip) (g : Nat) : Bool := c.epLatch (c.rf (SEQ.PROVE g) 29 24)
def Chip.closedInput (c : Chip) (g : Nat) : Bool := c.epLatch (c.rf (SEQ.PROVE g) 21 16)

/-- A count is in position at X (R243). -/
def inPos (n x : Word) (band : Nat) : Bool := decide (-(band : Int) ≤ diff32 n x ∧ diff32 n x < band)

/-- What a run reads of a member (R236): the count and SLIP from the state block, BAD and DONE from the slice in force. -/
def Chip.memIn (c : Chip) (x : Mem) : MemIn :=
  let b := c.axBlock x.axis
  let addr := c.w32 (b + 0x1F4)
  let w := if addr = 0 then 0 else c.w32 (globalMem addr + 4)
  ⟨BitVec.ofNat 32 (c.w32 (b + 0x300)), (c.w32 (b + 0x354)).testBit 15, w.testBit 14, w.testBit 11⟩

/-- Every member entry of a run's input frame, as the run finds it now. -/
def Chip.memIns (c : Chip) (g : Nat) : Tab MemIn :=
  (c.membersOf g).foldl (fun t x => Tab.set (fun _ => MemIn.none) t x.m (c.memIn x)) []

/-! ### The sequencer -/

/-- The configuration of a group: registers 0x44 to 0x17F of its page. -/
def Chip.seqCfg (c : Chip) (g : Nat) : List (Nat × Word) :=
  c.regs.filter (fun e => decide (pgSeq g + 0x44 ≤ e.1 ∧ e.1 < pgSeq g + 0x180))

/-- The chip with another configuration of a group. -/
def Chip.withCfg (c : Chip) (g : Nat) (l : List (Nat × Word)) : Chip :=
  { c with regs := c.regs.filter (fun e => decide (e.1 < pgSeq g + 0x44)) ++ l ++
      c.regs.filter (fun e => decide (pgSeq g + 0x180 ≤ e.1)) }

/-- What an evaluation looks at: the group, its run and its members. -/
structure Eval where
  g : Nat
  run : SeqRun
  mems : List Mem
  deriving DecidableEq, Repr

def Eval.inp (e : Eval) (x : Mem) : MemIn := Tab.get (fun _ => MemIn.none) e.run.mems x.m

/-- A member is in position at POS_A or POS_B. -/
def Chip.memAt (c : Chip) (e : Eval) (x : Mem) (posB : Bool) : Bool :=
  inPos (e.inp x).n (c.reg (if posB then SEQ.POS_B e.g x.m else SEQ.POS_A e.g x.m)) (c.rf (SEQ.BAND e.g x.m) 30 0)

/-- A LOCK member is proved locked, or unlocked (R243). -/
def Chip.lockProved (c : Chip) (e : Eval) (x : Mem) (unlocked : Bool) : Bool :=
  let w := c.reg (SEQ.PROVE e.g)
  let input := bit w 31 && decide ((e.run.lock = bit w 30) ≠ (unlocked = true))
  match x.prove with
  | 0 => c.memAt e x unlocked
  | 1 => input
  | _ => c.memAt e x unlocked && input

def Chip.locksProved (c : Chip) (e : Eval) (unlocked : Bool) : Bool :=
  (e.mems.filter (fun x => decide (x.role = 1))).all (fun x => c.lockProved e x unlocked)

/-- The closed input is proved: it reads its proving level, or is not enabled. -/
def Chip.closedProved (c : Chip) (e : Eval) : Bool :=
  let w := c.reg (SEQ.PROVE e.g)
  !bit w 23 || decide (e.run.closed = bit w 22)

/-- Every enabled proving input reads its proving level. -/
def Chip.inputsProve (c : Chip) (e : Eval) : Bool :=
  let w := c.reg (SEQ.PROVE e.g)
  (!bit w 31 || decide (e.run.lock = bit w 30)) && c.closedProved e

/-- Every profiled member is in position, and DONE where that is asked. -/
def Chip.profAt (c : Chip) (e : Eval) (posB done : Bool) : Bool :=
  (e.mems.filter (fun x => decide (x.role ≠ 1))).all (fun x => (!done || (e.inp x).done) && c.memAt e x posB)

/-- A group timer has elapsed (R245). -/
def Chip.elapsed (c : Chip) (e : Eval) (t : Nat) : Bool :=
  decide (t * c.seqDiv ≤ (e.run.tick + 2 ^ 32 - c.rn (SEQ.ENTRY_TICK e.g)) % 2 ^ 32)

/-- Requests to the profiled members (R247): a move to POS_A or POS_B on a table, or a hold. -/
def Chip.request (c : Chip) (e : Eval) (hold : Bool) (table : Nat) (posB : Bool) : Chip :=
  (e.mems.filter (fun x => decide (x.role ≠ 1))).foldl (fun c x =>
    let target := c.reg (if posB then SEQ.POS_B e.g x.m else SEQ.POS_A e.g x.m)
    c.modGrp e.g (fun t =>
      let gen := ((Tab.get (fun _ => Req.none) t.reqs x.m).gen + 1) % 256
      { t with reqs := Tab.set (fun _ => Req.none) t.reqs x.m ⟨gen, true, hold, table, target⟩ })) c

def Chip.demand (c : Chip) (g : Nat) (posB : Bool) : Chip := c.modGrp g (fun t => { t with demand := some posB })

/-- Enter FAULT with a cause. -/
def Chip.seqFault (c : Chip) (g cause : Nat) : Chip := (c.setF (SEQ.STAT g) 27 24 cause).seqEnter g 8

/-- The position rule (R245): its requests are holds. -/
def Chip.positionRule (c : Chip) (e : Eval) : Chip :=
  let d := c.request e true 0 false
  if c.locksProved e false && c.closedProved e && c.profAt e false false then d.seqEnter e.g 0
  else if c.locksProved e true && c.profAt e true false then d.seqEnter e.g 3
  else d.seqFault e.g 9

/-- A retry of the lock demand: inverted for one run, then as the state asks; the timer begins anew (Table 9.5). -/
def Chip.lockRetry (c : Chip) (e : Eval) (state : Nat) : Chip :=
  let un := decide (state = 1)
  let c := (c.demand e.g (!un)).seqEnter e.g state
  c.modGrp e.g (fun t => { t with
    pulse := true, retry := true
    unTries := if un then t.unTries + 1 else t.unTries
    lkTries := if un then t.lkTries else t.lkTries + 1 })

/-- A move of the profiled members with the entry into its state. -/
def Chip.seqMove (c : Chip) (e : Eval) (state table : Nat) (posB : Bool) : Chip :=
  (c.request e false table posB).seqEnter e.g state

/-- The command of a run has a transition in this state (Table 9.5). -/
def cmdKnown (cmd state : Nat) : Bool :=
  match cmd with
  | 1 => decide (state = 0 ∨ state = 4)
  | 2 => decide (state = 3)
  | 3 => true
  | 4 => decide (state = 8 ∨ state = 15)
  | 5 => decide (state = 8)
  | _ => false

/-- The first row of Table 9.5, in order, whose condition holds, with its effect. -/
def Chip.seqRow (c : Chip) (e : Eval) : Chip :=
  let g := e.g
  let s := c.seqState g
  let cmd := e.run.cmd
  let slip := e.mems.any (fun x => (e.inp x).slip)
  let bad := e.mems.any (fun x => (e.inp x).bad)
  let t := c.grp g
  let lo := fun r => c.rf r 15 0
  let hi := fun r => c.rf r 31 16
  if cmd = some 3 then c.seqEnter g 15
  else if s ≠ 15 ∧ (slip ∨ bad) then
    (if (s = 8) ∧ (c.rf (SEQ.STAT g) 27 24 = (if slip then 7 else 8)) then c else c.seqFault g (if slip then 7 else 8))
  else match s with
  | 0 =>
    if cmd = some 1 then
      let c := ((c.setF (SEQ.STAT g) 15 8 0).demand g true).seqEnter g 1
      c.modGrp g (fun t => { t with unTries := 0, lkTries := 0 })
    else if !c.inputsProve e then c.seqFault g 1
    else c
  | 1 =>
    if c.locksProved e true then c.seqMove e 2 (c.rf (SEQ.PT g) 4 0) true
    else if c.elapsed e (lo (SEQ.T_LOCKS g)) then
      if t.unTries < c.rf (SEQ.CFG g) 7 0 then c.lockRetry e 1 else (c.demand g false).seqFault g 2
    else c
  | 3 =>
    let dwell := if t.viaReopen then hi (SEQ.DWELL g) else lo (SEQ.DWELL g)
    if cmd = some 2 ∨ (c.rb (SEQ.CFG g) 31 ∧ !c.rb (SEQ.STAT g) 7 ∧ c.elapsed e dwell) then
      (c.setF (SEQ.STAT g) 7 7 0).seqMove e 4 (c.rf (SEQ.PT g) 12 8) false
    else c
  | 4 =>
    if cmd = some 1 then (((c.setF (SEQ.STAT g) 27 24 10).setF (SEQ.STAT g) 3 0 4).setN (SEQ.OBS g) 0).seqEnter g 5
    else if c.profAt e false true then (c.demand g false).seqEnter g 7
    else if c.elapsed e (hi (SEQ.T_MOVES g)) then c.seqFault g 4
    else c
  | 5 =>
    let retries := c.rf (SEQ.STAT g) 15 8
    let cause := c.rf (SEQ.STAT g) 27 24
    if !c.elapsed e (lo (SEQ.OBS_HOLD g)) then c
    else if cause = 10 then (c.setF (SEQ.STAT g) 7 7 1).seqMove e 6 (c.rf (SEQ.PT g) 20 16) true
    else if cause = 5 ∧ retries < c.rf (SEQ.CFG g) 23 16 then
      ((c.setF (SEQ.STAT g) 15 8 (retries + 1)).modGrp g (fun t => { t with retry := true })).seqMove e 6
        (c.rf (SEQ.PT g) 20 16) true
    else c.seqFault g 5
  | 7 =>
    if c.locksProved e false && c.closedProved e then c.seqEnter g 0
    else if c.elapsed e (hi (SEQ.T_LOCKS g)) then
      if t.lkTries < c.rf (SEQ.CFG g) 15 8 then c.lockRetry e 7 else c.seqFault g 3
    else c
  | 8 => if (cmd = some 5 ∨ cmd = some 4) ∧ !slip ∧ !bad then c.positionRule e else c
  | 15 => if cmd = some 4 ∧ !slip ∧ !bad then c.positionRule e else c
  | 2 | 6 =>
    if c.profAt e true true then c.seqEnter g 3
    else if c.elapsed e (lo (SEQ.T_MOVES g)) then c.seqFault g 4
    else c
  | _ => c

/-- An evaluation whose results the SEQ block takes (R245, R247): the inverted lock demand of a retry ends, an unknown
command is counted, and the row applies. -/
def Chip.seqEval (c : Chip) (e : Eval) : Chip :=
  let s := c.seqState e.g
  let c := if (c.grp e.g).pulse then (c.demand e.g (decide (s = 1))).modGrp e.g (fun t => { t with pulse := false }) else c
  let c := match e.run.cmd with
    | some k => if cmdKnown k s then c else c.trouble (SEQ.CMD_IGN e.g)
    | none => c
  c.seqRow e

/-- The writes of a changed lock demand (R248). -/
def Chip.demandWrites (c : Chip) (g : Nat) (old : Option Bool) : Tab (Option Word) :=
  match (c.grp g).demand with
  | some d => if old = some d then [] else
      ((c.membersOf g).filter (fun x => decide (x.role = 1))).foldl (fun t x =>
        Tab.set (fun _ => none) t (AXIS.SP_POS x.axis) (some (c.reg (if d then SEQ.POS_B g x.m else SEQ.POS_A g x.m)))) []
  | none => []

/-- The run that a command row stands for: the input frame of this instant (R236, R245). -/
def Chip.seqNow (c : Chip) (g : Nat) (cmd : Option Nat) : Eval :=
  ⟨g, ⟨cmd, c.tickNo % 2 ^ 32, c.rf (SEQ.STAT g) 23 16, c.lockInput g, c.closedInput g, c.memIns g, c.seqCfg g⟩, c.membersOf g⟩

/-- LEARN_RESET (R256): the histories and ENV_OK of the group are cleared in the published area. -/
def Chip.learnReset (c : Chip) (tb : TimeBase) (g : Nat) : Chip :=
  let p := g % c.nPots
  let c := c.smemMeet tb p (c.svcAddr p (16 + g)) 8
  let b := potMem p (c.svcArea p (16 + g) 1)
  let c := (c.smemWrite tb p (b + 0x240) 2).smemWrite tb p (b + 0x650) 0x800
  (c.fillZero (b + 0x240) 2).fillZero (b + 0x650) 0x800

end Sys2Proof.Machine
end

