-- ==== Sys2Proof/Machine/Services.lean ====
section
/-!
DEFINITION. The service slow cups (R233 to R240, R255, R256): releases, input frames, publications, and what the
standard image's profiler and signature kinds compute.
-/

namespace Sys2Proof.Machine

/-! ### Input frames (R236) -/

/-- A cup of the axis from a tick before `tick` is queued, assigned or running. -/
def Chip.owesCup (c : Chip) (a tick : Nat) : Bool :=
  let before := fun x : Cup => decide (x.axis = a ∧ x.tick.toNat < tick)
  (List.range 8).any (fun p => (c.pot p).queue.any before) ||
  (List.range 64).any (fun n =>
    (match (c.leaf n).cup with | some r => before r.cup | none => false) ||
    (match (c.leaf n).assigned with | some r => before r.cup | none => false))

/-- A request record in bytes (R247). -/
def Req.bytes (r : Req) : List Byte :=
  leBytes 4 (r.gen + 2 ^ 8 * b2n r.valid + 2 ^ 9 * b2n r.hold + 2 ^ 10 * r.table) ++ leBytes 4 r.target.toNat ++ leBytes 8 0

/-- The input entry of a served axis (Table 9.2). -/
def Chip.profEntry (c : Chip) (a : Nat) : List Byte :=
  let b := c.axBlock a
  let mem := c.memberOf a
  let w := match mem with
    | some x => a + 2 ^ 8 * x.g + 2 ^ 16 * c.seqState x.g + 2 ^ 20 * x.role + 2 ^ 24 * c.rf (SEQ.STAT x.g) 23 16
    | none => a + 2 ^ 8 * 0xFF
  let req := match mem with
    | some x => Tab.get (fun _ => Req.none) (c.grp x.g).reqs x.m
    | none => Req.none
  leBytes 4 w ++ leBytes 4 (c.w32 (b + 0x3C4)) ++ leBytes 4 (c.w32 (b + 0x3C0) / 2 ^ 9 % 2) ++ leBytes 4 (c.w32 (b + 0x3CC))
    ++ req.bytes

/-- The groups that a kind 1 release of Pot `p` serves at a tick (R233), enabled ones. -/
def Chip.seqGroups (c : Chip) (p tick : Nat) : List Nat :=
  below 32 (fun g => c.en (pgSeq g) && decide (g % c.nPots = p) &&
    (!c.m128 || decide ((g < 16) ↔ (tick / c.seqDiv % 2 = 0))))

/-- The state blocks of axes are read by the chip (R178, R236). -/
def Chip.meetBlocks (c : Chip) (tb : TimeBase) (axes : List Nat) : Chip :=
  axes.foldl (fun c a => c.smemMeet tb (c.axHome a) (c.axBlock a + 0x200) 0x200) c

/-- The part of the frame of slow cup `w` that describes axis `a` is written (R236). -/
def Chip.frameEntry (c : Chip) (tb : TimeBase) (w : SlowCup) (a : Nat) : Chip :=
  let c := c.meetBlocks tb [a]
  match w.kind with
  | 0 =>
    let n := c.w32 (globalMem w.staging + 4)
    match firstBelow (min n 48) (fun i => decide (c.loadLE (globalMem w.staging + 0x10 + 0x20 * i) 1 = a)) with
    | some i => c.setBytes (globalMem w.staging + 0x10 + 0x20 * i) (c.profEntry a)
    | none => c
  | 1 => match c.memberOf a with
    | some x => c.modGrp x.g (fun t => { t with run := t.run.map (fun r =>
        { r with mems := Tab.set (fun _ => MemIn.none) r.mems x.m (c.memIn x) }) })
    | none => c
  | _ => c

/-- Every slow cup that has not completed. -/
def Chip.slowCups (c : Chip) : List SlowCup :=
  (List.range 8).flatMap (fun p => (c.pot p).slowQ) ++ (List.range 64).filterMap (fun n => (c.leaf n).slow)

/-- Change every slow cup that has not completed. -/
def Chip.mapSlow (c : Chip) (f : SlowCup → SlowCup) : Chip :=
  let c := each (below 8 (fun p => !(c.pot p).slowQ.isEmpty)) (fun p c => c.modPot p (fun t => { t with slowQ := t.slowQ.map f })) c
  each (below 64 (fun n => (c.leaf n).slow.isSome)) (fun n c => c.modLeaf n (fun l => { l with slow := l.slow.map f })) c

/-- The entries of input frames whose axes have no cup from an earlier tick left are written (R236). -/
def Chip.settleOwed (c : Chip) (tb : TimeBase) : Chip :=
  let free := fun (w : SlowCup) (a : Nat) => !c.owesCup a w.released.toNat
  let ws := c.slowCups.filter (fun w => w.owed.any (free w))
  if ws.isEmpty then c
  else (ws.foldl (fun d w => (w.owed.filter (free w)).foldl (fun d a => d.frameEntry tb w a) d) c).mapSlow
    (fun w => { w with owed := w.owed.filter (fun a => !free w a) })

/-! ### Releases -/

/-- A slow cup of the kind homed on Pot `p` has not completed (R169), on a standby in the SLOW phase also one of the head's (R352). -/
def Chip.slowBusy (c : Chip) (p kind : Nat) : Bool :=
  c.slowCups.any (fun w => decide (w.home = p ∧ w.kind = kind)) || (c.isStandby && c.stby.slowWait.contains (p, kind))

/-- The Pot can hold slow cups: in service and not lost (R178). -/
def Chip.potSound (c : Chip) (p : Nat) : Bool := let t := c.pot p; decide (t.state = 1 ∨ (t.state = 2 ∧ t.qcause ≠ 3))

/-- `n` bytes that no rule states. -/
def freeBytes (k n : Nat) : List Byte := (List.range n).map (fun i => (Config.freeWord (k + i)).setWidth 8)

/-- Release a slow cup (R169) with its parameter word and its axes, and write its input frame (R236).  The frame of kind 1 is kept as the run of
each group beside the staging area, for its layout is not stated; there its bytes are free values (DESIGN CHOICE, log 100). -/
def Chip.release (c : Chip) (tb : TimeBase) (p kind param div : Nat) (axes : List Nat) : Chip :=
  if !c.potSound p then c
  else if c.slowBusy p kind then c.trouble (POT.SLOW_SKIP p)
  else
    let e := svcEntry kind p param
    let c := c.smemMeet tb p (c.svcAddr p e) 8
    if !c.potSound p then c
    else
    let owed := axes.filter (fun a => c.owesCup a c.tickNo)
    let c := c.meetBlocks tb (axes.filter (fun a => !owed.contains a))
    let w : SlowCup := ⟨kind, p, BitVec.ofNat 32 param, leafAddr p (c.svcArea p e 0), leafAddr p (c.svcArea p e 1), 4096,
      BitVec.ofNat 64 (c.tickNo + div), c.tg.tickNo, (List.range 32).map (fun g => c.rf (SEQ.STAT g) 23 16), false, owed, false, false⟩
    let st := globalMem w.staging
    let n := 0x10 + 0x20 * axes.length
    let c := if kind ≤ 1 then c.smemWrite tb p st n else if kind = 2 then c.smemWrite tb p st 0x240 else c
    let c := match kind with
      | 0 =>
        let c := c.setBytes st (leBytes 4 c.tickNo ++ leBytes 4 axes.length ++ leBytes 4 c.period ++ leBytes 4 0)
        axes.zipIdx.foldl (fun (c : Chip) (e : Nat × Nat) => c.setBytes (st + 0x10 + 0x20 * e.2) (c.profEntry e.1)) c
      | 1 => each (c.seqGroups p c.tickNo) (fun g c =>
          c.modGrp g (fun t => { t with
            slot := none
            run := some ⟨t.slot, c.tickNo % 2 ^ 32, c.rf (SEQ.STAT g) 23 16, c.lockInput g, c.closedInput g, c.memIns g,
              c.seqCfg g⟩ })) { c.setBytes st (freeBytes c.free n) with free := c.free + n }
      | 2 => match (c.grp param).k2 with
        | r :: _ => (c.setBytes st ((List.range 0x240).map (fun i => Tab.get (fun _ => 0#8) r i))).modGrp param
            (fun t => { t with k2 := t.k2.drop 1 })
        | [] => c
      | _ => c
    c.modPot p (fun t => { t with slowQ := t.slowQ ++ [w] })

/-- The releases of a T0, kind by kind in each Pot (R233, step 5 of R235). -/
def Chip.releases (c : Chip) (tb : TimeBase) : Chip :=
  let c := c.settleOwed tb
  let n := c.tickNo
  each (List.range c.nPots) (fun p c =>
    let c := if n % c.profDiv = 0 && !(c.served p).isEmpty then c.release tb p 0 p c.profDiv ((c.served p).take 48) else c
    let gs := c.seqGroups p n
    let axes := (gs.flatMap (fun g => (c.membersOf g).map (fun x => x.axis))).dedup
    let own := below 32 (fun g => c.en (pgSeq g) && decide (g % c.nPots = p))
    let c := if n % c.seqDiv = 0 && !own.isEmpty then c.release tb p 1 p c.seqDiv axes else c
    let c := match firstBelow 32 (fun g => decide (g % c.nPots = p) && !(c.grp g).k2.isEmpty) with
      | some g => if c.slowBusy p 2 then c else c.release tb p 2 g c.seqDiv []
      | none => c
    each (below 32 (fun g => decide (g % c.nPots = p) && (c.grp g).k3)) (fun g c =>
      (c.modGrp g (fun t => { t with k3 := false })).release tb p 3 g c.seqDiv []) c) c

/-! ### The profiler (R237 to R240) -/

/-- A run of ramp entries of one type from rest or cruise (R237): the entry after it and V, A, P, in exact arithmetic
that wraps at the end. -/
structure Ramp where
  seg : Nat
  v : Int
  a : Int
  p : Int
  ok : Bool
  deriving DecidableEq, Repr

/-- Step through the entries of one type; `fuel` bounds the sixteen entries. -/
def Chip.rampRun (c : Chip) (t ty : Nat) : Nat → Ramp → Ramp
  | 0, r => r
  | fuel + 1, r =>
    if c.ptType t r.seg = ty then
      let n : Int := c.ptLen t r.seg
      let j := c.ptJerk t r.seg
      let tri := n * (n + 1) / 2
      c.rampRun t ty fuel ⟨r.seg + 1, wrap64 (r.v + n * r.a + j * tri), wrap64 (r.a + n * j),
        wrap64 (r.p + n * r.v + r.a * tri + j * (n * (n + 1) * (n + 2) / 6)), r.ok && decide (1 ≤ n)⟩
    else r

/-- d_up, d_dn and Vc of a valid profile table (R237). -/
def Chip.tablePlan (c : Chip) (t : Nat) : Option (Int × Int × Int) :=
  let up := c.rampRun t 0 16 ⟨0, 0, 0, 0, true⟩
  let dn := c.rampRun t 2 16 ⟨up.seg + 1, up.v, 0, 0, true⟩
  if up.seg ≠ 0 ∧ up.ok ∧ up.a = 0 ∧ 0 < up.v ∧ c.ptType t up.seg = 1 ∧ dn.seg ≠ up.seg + 1 ∧ dn.ok ∧ dn.a = 0 ∧ dn.v = 0 ∧
    dn.seg < 16 ∧ c.ptType t dn.seg = 3 then some (up.p, dn.p, up.v)
  else none

/-- A slice record (Table 9.3). -/
structure SliceRec where
  base : Nat
  seg : Nat
  table : Nat
  down : Bool
  done : Bool
  hold : Bool
  step : Bool
  bad : Bool
  gen : Nat
  left : Nat
  cruise : Nat
  p : Int
  v : Int
  a : Int
  start : Nat
  target : Nat
  deriving DecidableEq, Repr

def SliceRec.bytes (r : SliceRec) : List Byte :=
  let w := r.seg % 32 + 2 ^ 5 * r.table + 2 ^ 10 * b2n r.down + 2 ^ 11 * b2n r.done + 2 ^ 12 * b2n r.hold
    + 2 ^ 13 * b2n r.step + 2 ^ 14 * b2n r.bad + 2 ^ 16 * r.gen
  let q := fun (x : Int) => leBytes 8 (BitVec.ofInt 64 x).toNat
  leBytes 4 r.base ++ leBytes 4 w ++ leBytes 4 r.left ++ leBytes 4 r.cruise ++ q r.p ++ q r.v ++ q r.a ++ leBytes 4 r.start
    ++ leBytes 4 r.target

/-- A record that holds the set-point. -/
def holdRec (base sp gen : Nat) (bad : Bool) : SliceRec :=
  ⟨base, 0, 0, false, false, true, false, bad, gen, 0, 0, 0, 0, 0, sp, sp⟩

/-- A planned move (R239). -/
def Chip.planMove (c : Chip) (p base start target table creep gen : Nat) : SliceRec :=
  let diff := wrap32 ((target : Int) - start)
  let d : Int := diff.natAbs * 2 ^ 32
  let mk := fun (t cruise : Nat) => SliceRec.mk base 0 t (decide (diff < 0)) false false false false gen
    (c.ptLen (c.ptAddr p t) 0) cruise 0 0 0 start target
  match c.tablePlan (c.ptAddr p table) with
  | none => holdRec base start gen true
  | some (up, dn, vc) =>
    if up + dn ≤ d then mk table ((d - up - dn) / vc).toNat
    else match c.tablePlan (c.ptAddr p creep) with
      | none => holdRec base start gen true
      | some (up, dn, vc) =>
        if up + dn ≤ d then mk creep ((d - up - dn) / vc).toNat
        else { mk creep 0 with done := true, step := true, down := decide (diff < 0) }

/-- The record of one served axis (R240), from its input entry at `e`. -/
def Chip.profile (c : Chip) (p base published e : Nat) : SliceRec :=
  let w := c.w32 e
  let axis := w % 256
  let g := w / 256 % 256
  let sp := c.w32 (e + 4)
  let frozen := (c.w32 (e + 8)).testBit 0
  let req := c.w32 (e + 0x10)
  let gen := req % 256
  let n := min 48 (c.w32 (published + 4))
  let old := (firstBelow n (fun i => decide (c.loadLE (published + 0x10 + 0x20 * i) 1 = axis))).map
    (fun i => published + 0x610 + 0x30 * i)
  let oldGen := match old with | some r => c.w32 (r + 4) / 2 ^ 16 % 256 | none => 0
  let new := req.testBit 8 && decide (gen ≠ oldGen)
  if new && !req.testBit 9 then c.planMove p base sp (c.w32 (e + 0x14)) (req / 2 ^ 10 % 32) (c.rf (SEQ.PT (g % 32)) 28 24) gen
  else if new then holdRec base sp gen false
  else if frozen then holdRec base sp oldGen false
  else match old with
    | none => holdRec base sp 0 false
    | some r =>
      let f := c.w32 (r + 4)
      let k := (base + 2 ^ 32 - c.w32 r) % 2 ^ 32
      let same := SliceRec.mk base (f % 32) (f / 32 % 32) (f.testBit 10) (f.testBit 11) (f.testBit 12) (f.testBit 13)
        (f.testBit 14) oldGen (c.w32 (r + 8)) (c.w32 (r + 0xC)) (c.sliceAt r).p (c.sliceAt r).v (c.sliceAt r).a
        (c.w32 (r + 0x28)) (c.w32 (r + 0x2C))
      if f.testBit 12 || f.testBit 13 || f.testBit 11 then same
      else
        let s := c.profSteps (c.ptAddr p (f / 32 % 32)) (c.w32 (r + 0xC)) (c.sliceDist r) k (c.sliceAt r)
        { same with seg := s.seg, left := s.left, p := s.p, v := s.v, a := s.a, done := s.done }

/-- The profile tables that the record of an input entry at `e` is computed from (R239, R240). -/
def Chip.profTables (c : Chip) (published e : Nat) : List Nat :=
  let w := c.w32 e
  let req := c.w32 (e + 0x10)
  let n := min 48 (c.w32 (published + 4))
  let old := (firstBelow n (fun i => decide (c.loadLE (published + 0x10 + 0x20 * i) 1 = w % 256))).map
    (fun i => c.w32 (published + 0x610 + 0x30 * i + 4))
  let new := req.testBit 8 && decide (req % 256 ≠ (old.getD 0) / 2 ^ 16 % 256)
  if new then (if req.testBit 9 then [] else [req / 2 ^ 10 % 32, c.rf (SEQ.PT (w / 256 % 256 % 32)) 28 24])
  else match old with
    | some f => if (c.w32 (e + 8)).testBit 0 || f.testBit 11 || f.testBit 12 || f.testBit 13 then [] else [f / 32 % 32]
    | none => []

/-- The profile tables that a profiler run reads: addresses of 128 bytes each. -/
def Chip.profReads (c : Chip) (w : SlowCup) : List Nat :=
  let st := globalMem w.staging
  (((List.range (min 48 (c.w32 (st + 4)))).flatMap (fun i => c.profTables (globalMem w.published) (st + 0x10 + 0x20 * i))).dedup).map
    (c.ptAddr w.home)

/-- What the standard profiler leaves in its staging area (R240). -/
def Chip.profiler (c : Chip) (w : SlowCup) : Chip :=
  let st := globalMem w.staging
  let base := (w.released.toNat + c.profDiv) % 2 ^ 32
  each (List.range (min 48 (c.w32 (st + 4)))) (fun i c =>
    c.setBytes (st + 0x610 + 0x30 * i) (c.profile w.home base (globalMem w.published) (st + 0x10 + 0x20 * i)).bytes) c

/-! ### Signature learning (R255, R256) -/

/-- One bin of a learned envelope (R256), from the history of a direction at `h`. -/
def Chip.envBin (c : Chip) (h histN sh margin b : Nat) : Nat :=
  let js := below 64 (fun j => decide (b ≤ j + 1 ∧ j ≤ b + 1))
  let m := (List.range histN).foldl (fun m k => js.foldl (fun m j => max m (c.loadLE (h + 128 * k + j) 1)) m) 0
  min 0xFFFF (m * 2 ^ sh + margin)

/-- Learn one LEAF member (R256): shift its history, keep HIST_N cycles and recompute every bin. -/
def Chip.learnLeaf (c : Chip) (st l axis good : Nat) : Chip :=
  let h := st + 0x650 + 0x200 * l
  let n := c.rf (AXIS.LEARN axis) 18 16
  let old := c.bytes h 0x200
  let c := c.setBytes h (c.bytes (st + 0x40 + 0x80 * l) 0x80 ++ (old.take 0x180).take (0x80 * (n - 1))
    ++ List.replicate (0x180 - 0x80 * (n - 1)) 0#8)
  let c := each (List.range 128) (fun i c =>
    c.storeLE (st + 0x250 + 0x100 * l + 2 * i) 2 (c.envBin (h + 64 * (i / 64)) n (c.rf (AXIS.OBS_CFG axis) 11 8)
      (c.rf (AXIS.LEARN axis) 15 0) (i % 64))) c
  if n ≤ good then c.storeLE (st + 0x240) 1 (Nat.lor (c.loadLE (st + 0x240) 1) (2 ^ l)) else c

/-- What the standard kind 2 leaves in its staging area: the learned part of the published area, advanced on a good
cycle (R256). -/
def Chip.signature (c : Chip) (w : SlowCup) : Chip :=
  let st := globalMem w.staging
  let c := c.setBytes (st + 0x240) (c.bytes (globalMem w.published + 0x240) 0xC10)
  let leaves := ((c.leafMems w.param.toNat).take 4).zipIdx.filter (fun e => c.rb (AXIS.OBS_CFG e.1.axis) 30)
  if (c.w32 st).testBit 8 && !leaves.isEmpty then
    let good := min 255 (c.loadLE (st + 0x241) 1 + 1)
    leaves.foldl (fun c e => c.learnLeaf st e.2 e.1.axis good) (c.storeLE (st + 0x241) 1 good)
  else c

/-- What the standard image's slow cup of a kind computes (R233): kinds 1 and 3 leave nothing in their areas. -/
def Chip.service (c : Chip) (w : SlowCup) : Chip :=
  match w.kind with | 0 => c.profiler w | 2 => c.signature w | _ => c

/-- A record of the cycle enters the signature ring (R255). -/
def Chip.ringAppend (c : Chip) (w : SlowCup) : Chip :=
  let pg := c.sigPages
  if pg.2 = 0 ∨ !c.domOn 3 then c
  else
    let o := c.rn (SEQ.SIG_WR 0) % (pg.2 * 0x1000)
    let c := if c.sigUnread.contains o then c.trouble (SEQ.SIG_OVW 0) else c
    let c := c.setBytes (caddyMem (pg.1 * 0x1000 + o)) (c.bytes (globalMem w.staging) 0x240 ++ List.replicate 0x1C0 0#8)
    let c := { c with sigUnread := c.sigUnread.filter (fun x => decide (x ≠ o)) ++ [o] }
    c.setN (SEQ.SIG_WR 0) ((o + 0x400) % (pg.2 * 0x1000))

/-! ### Publication (R172, R246) -/

/-- The SEQ block takes the results of a group's run, or ignores a stale one (R246): the chip and the writes of changed
lock demands.  The run has evaluated its input frame, with the group's configuration at the release (R245). -/
def Chip.seqTake (c : Chip) (g : Nat) : Chip × Tab (Option Word) :=
  match (c.grp g).run with
  | none => (c, [])
  | some r =>
    let c := c.modGrp g (fun t => { t with run := none })
    if r.gen ≠ c.rf (SEQ.STAT g) 23 16 then ((c.trouble (SEQ.SEQ_STALE g)).evt (pgSeq g) 4, [])
    else
      let old := (c.grp g).demand
      let was := c.withCfg g r.cfg
      let c := (was.seqEval ⟨g, r, was.membersOf g⟩).withCfg g (c.seqCfg g)
      (c, c.demandWrites g old)

/-- Publish a slow cup (R172): the staging area as it stands becomes the published area, whose contents until now stay on record for cups
of earlier ticks (R173). -/
def Chip.publish (c : Chip) (tb : TimeBase) (w : SlowCup) : Chip :=
  let c := c.modPot w.home (fun t => { t with slowDone := t.slowDone.filter (fun x => decide (x ≠ w)) })
  let c := c.mapSlow (fun x => if x = w then { x with taken := true } else x)
  let area := globalMem w.published
  let c := (c.smemMeet tb w.home (globalMem w.staging) w.len).smemWrite tb w.home area w.len
  let c := { c with pubLog := c.pubLog ++ [PubOld.mk c.tg.tickNo area (c.bytes area w.len)] }
  let c := (c.setBytes area (c.bytes (globalMem w.staging) w.len)).perf 0x90 1
  if w.kind = 2 then (c.ringAppend w).modGrp w.param.toNat (fun t => { t with k3 := true }) else c

/-- The slow cups whose publication is due (R172), in ascending Pot and kind: those that have completed and whose due tick has come; on a
standby those that the SEAL names, whether or not its own copy has completed: one that has not publishes its staging area as it stands
(DESIGN CHOICE, log 75). -/
def Chip.duePubs (c : Chip) (named : Option (List (Nat × Nat))) : List SlowCup :=
  (List.range 8).flatMap (fun p => (List.range 8).flatMap (fun k =>
    let done := (c.pot p).slowDone.filter (fun w => decide (w.kind = k))
    match named with
    | none => done.filter (fun w => decide (w.due.toNat ≤ c.tickNo))
    | some l =>
      if !l.contains (p, k) then []
      else if !done.isEmpty then done
      else (c.slowCups.filter (fun w => decide (w.home = p ∧ w.kind = k) && !w.taken)).take 1))

/-- What publications replaced is kept while a cup from an earlier tick, or of a segment cycle that began earlier, may read it (R173). -/
def Chip.prunePubs (c : Chip) : Chip :=
  let ticks := (List.range 8).flatMap (fun p => (c.pot p).queue.map (fun x => x.tick)) ++
    (List.range 64).filterMap (fun n => (c.leaf n).cup.map (fun r => r.cup.tick)) ++
    (List.range 64).filterMap (fun n => (c.leaf n).assigned.map (fun r => r.cup.tick))
  { c with pubLog := c.pubLog.filter (fun e =>
      decide (c.tickNo < e.tick.toNat + 8) || ticks.any (fun t => decide (t.toNat < e.tick.toNat))) }

/-- Steps 1 and 2 of R235: the publications and the groups' new states. -/
def Chip.publications (c : Chip) (tb : TimeBase) (named : Option (List (Nat × Nat))) : Chip × Tab (Option Word) :=
  let c := c.prunePubs
  let ws := c.duePubs named
  let runs := ws.filter (fun w => decide (w.kind = 1) && (w.std || c.slowCups.contains w))
  let c := ws.foldl (fun c w => c.publish tb w) c
  let gs := runs.flatMap (fun w => c.seqGroups w.home w.released.toNat)
  gs.foldl (fun r g => let q := r.1.seqTake g
    (q.1.tellAxes tb r.1, q.2.foldl (fun t e => Tab.set (fun _ => none) t e.1 e.2) r.2)) (c, [])

/-- Slow cups that are incomplete at their due tick (R172). -/
def Chip.slowLates (c : Chip) : Chip :=
  let late := c.slowCups.filter (fun w => !w.late && decide (w.due.toNat ≤ c.tickNo))
  if late.isEmpty then c
  else (late.foldl (fun c w => (c.trouble (POT.SLOW_LATE w.home)).evt (pgPot w.home) 5) c).mapSlow
    (fun w => if w.due.toNat ≤ c.tickNo then { w with late := true } else w)

end Sys2Proof.Machine
end

