-- ==== Sys2Proof/Machine/Cups.lean ====
section
/-!
DEFINITION. The configuration half of a state block (R153, R205, R228, R257) and the life of a cup: assignment (R158),
stealing (R162), entry (R117, R159, R160), completion (R120, R161) and overrun (R32).
-/

namespace Sys2Proof.Machine

/-! ### The configuration half -/

/-- The segment of an axis runs a segment cycle (R294). -/
def Chip.cyc4 (c : Chip) (g : Nat) : Bool := c.rb (SEG.APPLY g) 30
def Chip.axCyc4 (c : Chip) (a : Nat) : Bool := c.cyc4 (c.axSeg a)

/-- The motion-services words of an axis (Table 9.7). -/
def Chip.cfgMotion (c : Chip) (a : Nat) : List Nat :=
  let home := c.axHome a
  let mem := c.memberOf a
  let group := match mem with
    | some x => c.seqState x.g + 16 * x.role + 2 ^ 8 * c.rf (SEQ.STAT x.g) 23 16 + 2 ^ 16
    | none => 0
  let iso := match mem with | some x => c.rf (SEQ.ISO_TQ x.g) 15 0 | none => 0
  let env := match mem with
    | some x =>
      let l := (c.leafMems x.g).findIdx (fun y => decide (y.m = x.m))
      if x.role = 0 ∧ l < 4 then
        leafAddr (x.g % c.nPots) (c.svcArea (x.g % c.nPots) (16 + x.g) 1 + 0x250 + 0x100 * l) + l
      else 0
    | none => 0
  let i := (c.served home).findIdx (fun b => decide (b = a))
  let slice := if c.axEn a && c.rb (AXIS.LMODE a) 12 then
      leafAddr home (c.svcArea home home 1 + 0x610 + 0x30 * i) else 0
  let w := fun r => c.rn r
  [w (AXIS.OBS_CFG a), c.rf (AXIS.FS a) 15 0 + 2 ^ 16 * c.rf (AXIS.F_ABS a) 15 0, w (AXIS.KT a), w (AXIS.KT_SH a),
   w (AXIS.KJ a), w (AXIS.KJ_SH a), w (AXIS.KB a), w (AXIS.KB_SH a), w (AXIS.STROKE_LO a),
   c.rf (AXIS.OBS_TQ a) 15 0 + 2 ^ 16 * c.rf (AXIS.RELIEF a) 15 0, group, iso, env, slice, 0, 0]

/-- The feedback words of an axis (Table 8.3). -/
def Chip.cfgFeedback (c : Chip) (a : Nat) : List Nat :=
  let w := fun r => c.rn r
  let ch := c.rf (AXIS.FB_CFG a) 27 24
  let tper := c.period * (if c.axCyc4 a then 4 else 1)
  [w (AXIS.FB_CFG a), w (AXIS.V_LO a), w (AXIS.V_HI a), w (AXIS.STILL_T a), w (AXIS.SEC_GAIN a), w (AXIS.SEC_SH a),
   w (AXIS.SLIP_TOL a), (c.ax a).rezGen, tper, c.rf (LF.LF_CFG ch) 17 16, w (LF.V_LO ch), w (LF.V_HI ch),
   w (LF.STILL_T ch), 0, 0, 0]

/-- Base of bank `sel` of loop `k` on an AXIS page (Table 7.9). -/
def bankAddr (a k : Nat) (sel : Bool) : Nat := axPg a + (if sel then 0x200 else 0x100) + 0x40 * k

/-- The active set of loop `k` (R194). -/
def Chip.activeSet (c : Chip) (a k : Nat) : List Nat :=
  (List.range 16).map (fun i => c.rn (bankAddr a k (c.rb (AXIS.BANK a) k) + 4 * i))

/-- The words of the configuration half of an axis (Table 7.7). -/
def Chip.cfgWords (c : Chip) (a : Nat) : List Nat :=
  let w := fun r => c.rn r
  let x := c.ax a
  [w (AXIS.LMODE a), w (AXIS.CASC a), x.coefGen.foldr (fun b acc => b + 256 * acc) 0, x.clrMask.toNat, w (AXIS.SP_POS a),
   w (AXIS.SP_VEL a), w (AXIS.SP_ID a), w (AXIS.SP_TQ a), w (AXIS.FF a), c.rf (AXIS.TQ_LIMIT a) 15 0, w (AXIS.COMM_OFS a),
   w (AXIS.COMM_GAIN a), w (AXIS.COMM_SH a), x.clrGen, w (AXIS.ADV_K a), w (AXIS.ADV_SH a)]
  ++ (List.range 4).flatMap (fun k => c.activeSet a k) ++ List.replicate 16 0 ++ c.cfgFeedback a ++ c.cfgMotion a

/-- The entries of the service tables that the configuration half of an axis names areas of (Table 9.7) are read. -/
def Chip.meetAreas (c : Chip) (tb : TimeBase) (a : Nat) : Chip :=
  let home := c.axHome a
  let c := match c.memberOf a with
    | some x => if x.role = 0 then c.smemMeet tb (x.g % c.nPots) (c.svcAddr (x.g % c.nPots) (16 + x.g)) 8 else c
    | none => c
  if c.axEn a && c.rb (AXIS.LMODE a) 12 then c.smemMeet tb home (c.svcAddr home home) 8 else c

/-- Write the configuration half now. -/
def Chip.writeCfg (c : Chip) (tb : TimeBase) (a : Nat) : Chip :=
  let c := c.meetAreas tb a
  ((c.smemWrite tb (c.axHome a) (c.axBlock a) 0x200).setBytes (c.axBlock a) ((c.cfgWords a).flatMap (leBytes 4))).modAx a (fun x => { x with cfgDue := false })

/-- Write the configuration half, or defer it until a running late cup completes (R153). -/
def Chip.dueCfg (c : Chip) (tb : TimeBase) (a : Nat) : Chip :=
  if c.axRunning a then c.modAx a (fun x => { x with cfgDue := true }) else c.writeCfg tb a

/-! ### Queues -/

/-- A Leaf is available (R158). -/
def Leaf.available (l : Leaf) : Bool := decide (l.state = 2) && l.cup.isNone && l.assigned.isNone

/-- A Leaf is idle: available and with no slow cup. -/
def Leaf.idle (l : Leaf) : Bool := l.available && l.slow.isNone

/-- A Pot has no Leaf in RUN (R162). -/
def Chip.runnerless (c : Chip) (p : Nat) : Bool := (List.range 8).all (fun i => decide ((c.leaf (8 * p + i)).state ≠ 2))

/-- Give a cup of Pot `p` to Leaf `n`. -/
def Chip.assign (c : Chip) (tb : TimeBase) (p n : Nat) (x : Cup) : Chip :=
  let c := c.modPot p (fun t => { t with queue := t.queue.filter (fun y => decide (y ≠ x)) })
  c.modLeaf n (fun l => { l with assigned := some ⟨x, p, false, tb.fast, false⟩ })

/-- The assignments of one cycle in Pot `p` (R158). -/
def Chip.assignPot (c : Chip) (tb : TimeBase) (p : Nat) : Chip :=
  let ns := (List.range 8).map (fun i => 8 * p + i)
  let free := ns.filter (fun n => (c.leaf n).idle) ++ ns.filter (fun n => (c.leaf n).available && !(c.leaf n).idle)
  (free.zip (c.takeable p)).foldl (fun c e => c.assign tb p e.1 e.2) c

/-- Takeable cups other than cross-steep cups. -/
def Chip.stealable (c : Chip) (p : Nat) : List Cup := (c.takeable p).filter (fun x => decide (x.kind ≠ .cross))

/-- The victim among the Pots that satisfy `ok`: the most cups, the lowest number on a tie (R162). -/
def Chip.victim (c : Chip) (ok : Nat → Bool) : Option Nat :=
  (below c.nPots ok).foldl (fun best p =>
    let n := (c.stealable p).length
    if n = 0 then best
    else match best with
      | some q => if (c.stealable q).length < n then some p else best
      | none => some p) none

/-- One steal, if any is granted (R162): the Leaf, the victim and the cup. -/
def Chip.steal (c : Chip) : Option (Nat × Nat × Cup) :=
  let orphanPots := (below c.nPots (fun p => c.runnerless p && !(c.stealable p).isEmpty))
  let open' := !orphanPots.isEmpty
  let v := if open' then c.victim (fun p => orphanPots.contains p) else c.victim (fun p => c.rb (POT.PCTRL p) 9)
  let ask := fun n => (c.leaf n).available && (c.takeable (n / 8)).isEmpty && (open' || c.rb (POT.PCTRL (n / 8)) 8)
  match v, firstBelow c.nLeaves ask with
  | some p, some n => (c.stealable p).getLast?.map (fun x => (n, p, x))
  | _, _ => none

/-! ### Entry -/

/-- The big-endian fields of a frame record as little-endian fields of their widths (R160). -/
def flipFields : List Nat → List Byte → List Byte
  | [], _ => []
  | w :: ws, l => (l.take w).reverse ++ flipFields ws (l.drop w)

/-- The record padded to a length. -/
def padTo (n : Nat) (l : List Byte) : List Byte := (l ++ List.replicate n 0#8).take n

/-- The contents of the cup port at entry (Table 6.4). -/
def Cup.portIn (x : Cup) (secOk : Bool) (stateAddr : Nat) : List Byte :=
  leBytes 4 (x.axis + 2 ^ 8 * x.mode + 2 ^ 10 * b2n x.copyB + 2 ^ 11 * b2n secOk) ++ leBytes 8 x.tick.toNat
    ++ leBytes 4 stateAddr ++ flipFields [2, 2, 1, 1, 2] (padTo 8 x.hdr) ++ flipFields [2, 2, 4, 4] (padTo 12 x.record)
    ++ leBytes 4 0 ++ padTo 12 x.sec

/-- The valid secondary sample of a cup is its own 12 bytes; a cup without one holds none. -/
def Cup.secOk (x : Cup) : Bool := !x.sec.isEmpty

/-- The entry address of an axis mode in a Pot (Table 6.3). -/
def Chip.entryOf (c : Chip) (p mode : Nat) : Nat :=
  c.rf (match mode with | 0 => POT.ENTRY_FULL p | 1 => POT.ENTRY_TORQUE p | _ => POT.ENTRY_AUX p) 14 0

/-- The chip with the published areas that were in force at the T0 of a tick (R173). -/
def Chip.areasAt (c : Chip) (tick : Nat) : Chip :=
  (c.pubLog.reverse.filter (fun e => decide (tick < e.tick.toNat))).foldl (fun c e => c.setBytes e.addr e.bytes) c

/-- The Pot whose shared data memory holds an address. -/
def potAt (k : Nat) : Nat := (k - 0x1400000) / 0x80000

/-- What the standard cup of a block reads of shared memory, by address and length: the block, the slice record with its table, and the
learned envelope (R242, R252). -/
def Chip.cupReads (c : Chip) (b home : Nat) : List (Nat × Nat) :=
  let sl := c.w32 (b + 0x1F4)
  let env := c.w32 (b + 0x1F0)
  [(b, 0x400)]
  ++ (if sl = 0 then [] else [(globalMem sl, 48), (c.ptAddr home (c.w32 (globalMem sl + 4) / 32 % 32), 128)])
  ++ (if env = 0 then [] else
    [(globalMem (env - env % 4), 256), (globalMem (env - env % 4) - 0x10 - 0x100 * (env % 4), 4)])

/-- The standard image's cup, with its stores to Pot memory in the cup write buffer (R124, R173).  A cup whose loads meet a double-bit error
that takes it from its Leaf goes no further (R178). -/
def Chip.stdCup (c : Chip) (tb : TimeBase) (n : Nat) (x : Cup) : Chip :=
  let b := blockOf x.slot x.axis
  let c := (c.cupReads b x.home).foldl (fun c e => c.smemMeet tb (potAt e.1) e.1 e.2) c
  if (c.leaf n).cup.isNone then c
  else
  let d := (c.areasAt x.tick.toNat).steepCup n x (c.cyc4 x.seg) x.secOk
  let new := (List.range 0x200).map (fun i => (b + 0x200 + i, d.byte (b + 0x200 + i)))
  let diff := new.filter (fun e => decide (e.2 ≠ c.byte e.1))
  c.setLeaf n { d.leaf n with wbuf := diff.foldl (fun t e => Tab.set (fun _ => none) t e.1 (some e.2)) [] }

/-- The head keeps a prior copy of every axis at cup entry (R354). -/
def Chip.priorCopy (c : Chip) (tb : TimeBase) (x : Cup) : Chip :=
  if c.isHead && decide (c.stby.peerSstate = 2) && c.rb STBY.CFG 5 && decide (x.kind ≠ .cross) then
    let p := (x.home + 1) % c.nPots
    let c := (c.smemMeet tb x.home (blockOf x.home x.axis) 0x400).smemWrite tb p (blockOf p x.axis) 0x400
    (c.setBytes (blockOf p x.axis) (c.bytes (blockOf x.home x.axis) 0x400)).modAx x.axis (fun y => { y with priorTq := y.prevTq })
  else c

/-- Cup entry on Leaf `n` (R117, R118, R159).  What a pre-empted slow cup has in flight has landed in its bank when it resumes
(R119).  Where the prior copy of a cross-steep meets an error that takes the cup from the Leaf, nothing enters (R178). -/
def Chip.cupEnter (c : Chip) (tb : TimeBase) (n : Nat) (std : Bool) : Chip :=
  let l := c.leaf n
  match l.assigned with
  | none => c
  | some r =>
    if l.state ≠ 2 ∨ l.cup.isSome ∨ (l.slow.isSome ∧ (l.delay ≠ 0 ∨ l.redir.isSome ∨ l.branch.isSome ∨ l.usedX ∨ l.usedY)) then c
    else
      let x := r.cup
      let c := c.priorCopy tb x
      if (c.leaf n).assigned.isNone then c
      else
      let c := c.when (!l.flight.isEmpty) (fun c => c.drain n)
      let l := c.leaf n
      let sAddr := leafAddr x.slot (x.axis * 0x400)
      let st := fun (t : Tab Word) (k v : Nat) => Tab.set (fun _ => 0#32) t k (BitVec.ofNat 32 v)
      let port := (x.portIn x.secOk sAddr).zipIdx.foldl (fun p e => Tab.set (fun _ => 0#8) p e.2 e.1) []
      let f := { Bank.zero with
        g := st (st [] 1 x.axis) 2 x.tick.toNat
        a := st (st [] 0 sAddr) 1 0x10000
        pc := c.entryOf (n / 8) x.mode }
      let c := if l.slow.isSome then (c.bump (LEAF.PREEMPT n)).perfLeaf n 0x10 1 else c
      let c := c.setLeaf n { l with
        f := f, bankB := false, assigned := none, port := port, wbuf := [], bx := l.bx + 8, cur := [], usedX := false, usedY := false,
        branch := none, endReq := false, delay := 0, redir := none, cup := some { r with std := std, entered := tb.fast, ended := false }
        stall := 7, rel := 0 }
      let c := c.modAx x.axis (fun y => { y with coefNew := List.replicate 4 true, clrNew := true })
      let c := (c.perfLeaf n 0x0C 1).when (decide (r.fromPot ≠ n / 8)) (fun c => c.perfLeaf n 0x0D 1)
      if std then c.stdCup tb n x else c

/-! ### Completion -/

/-- Start of the window of R32. -/
def CupRun.start (r : CupRun) : Word := if r.cup.kind = .plain then r.cup.start else r.entered

/-- The cup on Leaf `n` has reached start + PERIOD (R32). -/
def Chip.cupOverdue (c : Chip) (tb : TimeBase) (n : Nat) : Bool :=
  match (c.leaf n).cup with
  | some r => decide (c.period ≤ (tb.fast - r.start).toNat)
  | none => false

/-- The Pour record image of a cup in the frame's order: a FULL axis's completion field is the chip's (R36, R160). -/
def pourRecord (mode : Nat) (l : List Byte) (comp : Nat) : List Byte :=
  let l := padTo 8 l
  match mode with
  | 0 => flipFields [2, 2, 2] l ++ beBytes 2 comp
  | _ => flipFields [4, 2, 2] l

/-- Bytes of the cup port of a Leaf. -/
def Leaf.portBytes (l : Leaf) (o n : Nat) : List Byte := (List.range n).map (fun i => Tab.get (fun _ => 0#8) l.port (o + i))

/-- LATCH of a set of Tray outputs (Table 9.9). -/
def outsLatch (l : List Byte) : Bool := ((l.drop 0x3E).headD 0#8).toNat.testBit 2

/-- State digests are computed while the pair compares (R355). -/
def Chip.comparing (c : Chip) : Bool := c.stby.paired && c.rb STBY.CFG 5

/-- The outputs of an on-time cup are taken (R161). -/
def Chip.takeOutputs (c : Chip) (tb : TimeBase) (n : Nat) (x : Cup) (ofs : Nat) : Chip :=
  let l := c.leaf n
  let comp := min 0xFFFF (ofs / 8)
  let outs := l.portBytes 0x90 64
  let old := outsLatch (c.ax x.axis).outs
  let c := c.modAx x.axis (fun y => { y with
    img := some (pourRecord x.mode (l.portBytes 0x80 8) comp, ofLE (l.portBytes 0x88 4), comp)
    outs := outs, compOfs := 8 * comp })
  c.when (outsLatch outs && !old) (fun c => c.seqObstructed tb x.axis)

/-- What waits for the end of a cup of axis `a`: the configuration half (R153), signature copies (R254) and entries of
input frames (R236), which `entry` writes. -/
def Chip.afterCup (c : Chip) (tb : TimeBase) (a : Nat) : Chip :=
  let c := (if (c.ax a).cfgDue then c.writeCfg tb a else c).settleOwed tb
  match c.memTable.find? (fun x => decide (x.axis = a)) with
  | some x =>
    let mine := (c.grp x.g).sigOwed.filter (fun e => decide (e.1 = a))
    let c := if mine.isEmpty then c else c.watchAxes tb (fun c => mine.foldl (fun c e => c.sigCopy x.g e.1 e.2.1 e.2.2) c)
    c.modGrp x.g (fun t => { t with sigOwed := t.sigOwed.filter (fun e => decide (e.1 ≠ a)) })
  | none => c

/-- The Leaf after its cup: a suspended slow cup resumes (R120). -/
def Leaf.afterCup (l : Leaf) : Leaf :=
  { l with cup := none, wbuf := [], bankB := l.slow.isSome, delay := 0, redir := none, endReq := false, stall := 7, rel := 0 }

/-- A cross-steep cup completes: it counts as a completed cup, off its home Pot in STOLEN and STOLEN_OUT too, and its outputs and digest wait for
the verdict (R356, Tables 4.11 and 6.11).  What a cup that is sent nowhere does to the counts of lateness is not stated: it counts in no LATE
and no SLACK_MIN (DESIGN CHOICE, log 97). -/
def Chip.crossDone (c : Chip) (tb : TimeBase) (n : Nat) (x : Cup) : Chip :=
  let out := (c.leaf n).portBytes 0x80 12
  let dg := crc32 (c.bytes (blockOf x.slot x.axis + 0x200) 0x200)
  let c := (((c.bump (LEAF.CUPS n)).bump (POT.CUPS_HOME x.home)).perfLeaf n 0x0E 1).perf 0x85 1
  let c := c.when (decide (n / 8 ≠ x.home)) (fun c => (c.bump (LEAF.STOLEN n)).bump (POT.STOLEN_OUT x.home))
  c.modStby (fun t => { t with xs := t.xs.map (fun y =>
    if y.axis = x.axis then { y with result := some (pourRecord x.mode out 0 ++ (out.drop 8).take 1, dg) } else y) })

/-- The completion of a cup that is neither cross-steep nor overdue (R120, R161, R176). -/
def Chip.cupDone (c : Chip) (tb : TimeBase) (n : Nat) (r : CupRun) : Chip :=
  let l := c.leaf n
  let x := r.cup
  let ofs := (tb.fast - x.t0).toNat
  let ontime := decide (ofs < x.cut)
  let stolen := decide (r.fromPot ≠ n / 8)
  let c := c.when ontime (fun c => c.takeOutputs tb n x ofs)
  let c := c.modAx x.axis (fun y => { y with
    leaf := n, digest := if c.comparing then crc32 (c.bytes (blockOf x.slot x.axis + 0x200) 0x200) else y.digest
    digestAt := if c.comparing then x.tick.toNat + 1 else y.digestAt
    prevTq := if x.mode = 1 then signedN 32 (ofLE (l.portBytes 0x80 4)) else y.prevTq })
  let c := c.modSeg x.seg (fun s =>
    if s.tick = x.tick then { s with waiting := s.waiting.filter (fun a => decide (a ≠ x.axis)), late := s.late || !ontime } else s)
  let c := ((c.bump (LEAF.CUPS n)).bump (POT.CUPS_HOME x.home)).when stolen
    (fun c => (c.bump (LEAF.STOLEN n)).bump (POT.STOLEN_OUT x.home))
  let slack : Int := (x.cut : Int) - ofs
  let c := if slack < c.ri (POT.SLACK_MIN x.home) then c.setI (POT.SLACK_MIN x.home) slack else c
  let c := if ontime then c
    else (((c.trouble (LEAF.LATE n)).trouble (POT.LATE x.home)).evt (pgPot x.home) 2).perfLeaf n 0x0F 1 |>.perf 0x86 1
  (c.perfLeaf n 0x0E 1).perf 0x85 1

/-- Completion instant of the cup on Leaf `n` (R120): the buffer is released and the outputs are taken. -/
def Chip.cupComplete (c : Chip) (tb : TimeBase) (n : Nat) : Chip :=
  let l := c.leaf n
  match l.cup with
  | none => c
  | some r =>
    if (!r.std && !r.ended) || c.cupOverdue tb n then c
    else
      let c := c.raise (LEAF.FLAG_SUM n) l.f.flg
      let c := if r.std then c else c.perfLeaf n 0x19 (l.wbufDw.length - l.rel)
      let c := l.wbufDw.foldl (fun c d => c.smemMeet tb (potAt (8 * d)) (8 * d) 8) c
      let c := l.wbuf.foldl (fun c e => match e.2 with | some v => c.setByte e.1 v | none => c) c
      let c := if r.cup.kind = .cross then c.crossDone tb n r.cup else c.cupDone tb n r
      let c := (c.modLeaf n Leaf.afterCup).afterCup tb r.cup.axis
      -- the axis's next cup may be takeable from now on (R157)
      let c := each (below 8 (fun p => (c.pot p).queue.any (fun x => decide (x.axis = r.cup.axis)))) (fun p c => c.potPeak p) c
      c.settleLeaf n

/-! ### Commands -/

/-- A Pot assigns its takeable cups to its available Leaves (R158). -/
def execCupAssign (p : Nat) (s : State) : Res := .next (s.onChip (fun c => c.assignPot s.tb p))

/-- One steal is granted (R162). -/
def execStealGrant (s : State) : Res :=
  .next (s.onChip (fun c => match c.steal with
    | some (n, p, x) => ((c.assign s.tb p n x).perfLeaf n 0x24 1).perf 0x87 1
    | none => c))

/-- A Leaf enters the cup assigned to it (R117); `std` says that the code at its entry is the standard steep image. -/
def execCupEntry (n : Nat) (std : Bool) (s : State) : Res := .next (s.onChip (fun c => c.cupEnter s.tb n std))

/-- The release of a cup's write buffer ends (R120). -/
def execCupCompletion (n : Nat) (s : State) : Res := .next (s.onChip (fun c => c.cupComplete s.tb n))

/-- A cup has not completed before start + PERIOD (R32): its Leaf is quarantined with cause OVERRUN. -/
def execCupOverrun (n : Nat) (s : State) : Res :=
  .next (s.onChip (fun c =>
    if c.cupOverdue s.tb n then c.watchAxes s.tb (fun c => c.quarLeaf n 3 true none) else c))

end Sys2Proof.Machine
end

