-- ==== Sys2Proof/Machine/LeafMem.lean ====
section
/-!
DEFINITION. The slot X instructions that access memory (Table 5.5, R142), with the cup port (R160), the cup write
buffer (R124), access faults (R123) and the errors of the memories (R125, R178).
-/

namespace Sys2Proof.Machine

/-- The address of a cup-port offset that a cup may write (Table 6.4): the Pour record image, of which a FULL axis
keeps bytes 6 and 7 for the chip, the node-header contribution and the Tray outputs. -/
def portWritable (mode o : Nat) : Bool :=
  (decide (0x80 ≤ o ∧ o < 0x8C) && !(decide (mode = 0) && decide (o = 0x86 ∨ o = 0x87))) || decide (0x90 ≤ o ∧ o < 0xD0)

/-- A byte of Pot memory with the published areas that were in force at the T0 of a tick (R173). -/
def Chip.byteAt (c : Chip) (tick k : Nat) : Byte :=
  match c.pubLog.find? (fun e => decide (tick < e.tick.toNat ∧ e.addr ≤ k ∧ k < e.addr + e.bytes.length)) with
  | some e => (e.bytes[k - e.addr]?).getD 0#8
  | none => c.byte k

/-- A byte of Pot memory as Leaf `n` loads it: its cup write buffer answers first (R124), then for a cup the areas of its tick (R173). -/
def Chip.sharedByte (c : Chip) (n k : Nat) : Byte :=
  let l := c.leaf n
  match Tab.get (fun _ => none) l.wbuf k, l.cup with
  | some v, _ => v
  | none, some r => if l.bankB then c.byte k else c.byteAt r.cup.tick.toNat k
  | none, none => c.byte k

/-- The little-endian number of `w` bytes that a load reads; cup-port reads return 0 in a step (R134). -/
def Chip.loadVal (c : Chip) (n a w : Nat) (step : Bool) : Nat :=
  match placeOf n a with
  | .loc k => c.loadLE k w
  | .port o =>
    if step then 0 else ofLE ((List.range w).map (fun i => Tab.get (fun _ => 0#8) (c.leaf n).port (o + i)))
  | .shared _ k => ofLE ((List.range w).map (fun i => c.sharedByte n (k + i)))
  | .none => 0

/-- A double-bit error in a word that an access of `w` bytes reaches. -/
def Chip.loadErr (c : Chip) (n a w : Nat) : Bool :=
  match placeOf n a with
  | .loc k => c.meets k w 4 true
  | .shared _ k => c.meets k w 8 true
  | _ => false

/-- The corrections, or the quarantine, that follow an access of `w` bytes (R125, R178). -/
def Chip.loadErrEffect (c : Chip) (tb : TimeBase) (n a w : Nat) : Chip :=
  match placeOf n a with
  | .loc k =>
    if c.meets k w 4 true then c.quarLeaf n 4 true none else c.correct k w 4 (LEAF.ECC_CORR n)
  | .shared p k => c.smemMeet tb p k w
  | _ => c

/-- The performance event of a load (Table 17.5). -/
def loadEvent (n a : Nat) : Nat :=
  match placeOf n a with
  | .shared p _ => if p = n / 8 then 0x16 else 0x17
  | _ => 0x15

/-- A load: `w` bytes at the operand, given to `dest` as a number.  A fault gives 0 and sets MEM; a double-bit error of a
Pot memory gives 0 (R123, R142, R178). -/
def Chip.load (c : Chip) (tb : TimeBase) (n : Nat) (step : Bool) (a : Nat) (post : Bool) (k : Int) (w : Nat)
    (dest : Leaf → Nat → Leaf) : Chip :=
  let l := c.leaf n
  let addr := l.memAddr a post k
  if c.accessFault n addr w step then
    let c := c.modLeaf n (fun l => ((dest (l.memUpd a post k) 0).setFlags false flgMEM))
    (c.evt (lfPg n) 2).perfLeaf n 0x1F 1
  else
    let v := if c.loadErr n addr w then 0 else c.loadVal n addr w step
    let c := c.modLeaf n (fun l => dest (l.memUpd a post k) v)
    (c.perfLeaf n (loadEvent n addr) 1).loadErrEffect tb n addr w

/-- A store of bytes that the word at an address leaves partly as it was reads the word first, and meets its errors; a double-bit error is met
by any access (R125, Table 6.8). -/
def Chip.storeMeet (c : Chip) (tb : TimeBase) (n a w : Nat) : Chip :=
  match placeOf n a with
  | .loc _ => if c.loadErr n a w || decide (w % 4 ≠ 0) then c.loadErrEffect tb n a w else c
  | .shared _ _ => if c.loadErr n a w || decide (w % 8 ≠ 0) then c.loadErrEffect tb n a w else c
  | _ => c

/-- Store bytes where a Leaf address leads: local memory directly; the cup port where a cup may write it, and nothing there in a step, for
which the spec states only the reads (DESIGN CHOICE, log 73); Pot memory through the cup write buffer for a cup, directly for a slow cup or a
step (R124, R134, R160).  A slow cup's access to the region of the cup port, of which no rule speaks, meets the bytes of the Leaf's port as
they stand (DESIGN CHOICE, log 97). -/
def Chip.storeAt (c : Chip) (tb : TimeBase) (n a : Nat) (bs : List Byte) (step : Bool) : Chip :=
  match placeOf n a with
  | .loc k =>
    let d := c.storeMeet tb n a bs.length
    if (d.leaf n).state = 3 then d else (d.setBytes k bs).eccFree k bs.length 4
  | .port o =>
    if step then c
    else
      let mode := match (c.leaf n).cup with | some r => r.cup.mode | none => 0
      c.modLeaf n (fun l => { l with port := (bs.zipIdx).foldl (fun p b =>
        if portWritable mode (o + b.2) then Tab.set (fun _ => 0#8) p (o + b.2) b.1 else p) l.port })
  | .shared _ k =>
    let l := c.leaf n
    if step || l.bankB then ((c.storeMeet tb n a bs.length).setBytes k bs).eccFree k bs.length 8
    else if !(l.wbufDw.contains (k / 8)) && decide (256 ≤ l.wbufDw.length) then
      ((c.modLeaf n (fun l => l.setFlags false flgMEM)).evt (lfPg n) 2).perfLeaf n 0x1F 1
    else
      (c.modLeaf n (fun l => { l with wbuf := (bs.zipIdx).foldl (fun p b =>
        Tab.set (fun _ => none) p (k + b.2) (some b.1)) l.wbuf })).perfLeaf n 0x18 1
  | .none => c

/-- A store of `w` bytes: a fault discards it and sets MEM (R123). -/
def Chip.store (c : Chip) (tb : TimeBase) (n : Nat) (step : Bool) (a : Nat) (post : Bool) (k : Int) (w v : Nat) : Chip :=
  let addr := (c.leaf n).memAddr a post k
  let fault := c.accessFault n addr w step
  let c := c.modLeaf n (fun l => l.memUpd a post k)
  if fault then ((c.modLeaf n (fun l => l.setFlags false flgMEM)).evt (lfPg n) 2).perfLeaf n 0x1F 1
  else c.storeAt tb n addr (leBytes w v) step

/-- A load to one general register, sign- or zero-extended; visible at i + 2. -/
def toG (g : Nat) (ext : Nat → Word) (l : Leaf) (v : Nat) : Leaf := l.putG false 2 g (ext v)

/-- Sign extension of the low `n` bits. -/
def sextW (n v : Nat) : Word := wOf (signedN n v)

/-- `ldd`: the low word to the even register, the high word to the next. -/
def toPair (p : Nat) (l : Leaf) (v : Nat) : Leaf :=
  (l.putG false 2 p (BitVec.ofNat 32 v)).putG false 2 (p + 1) (BitVec.ofNat 32 (v / 2 ^ 32))

/-- `ldc`: the value to a general register and the shift to the tag of an accumulator (R107). -/
def toCoef (g acc : Nat) (l : Leaf) (v : Nat) : Leaf :=
  (l.putG false 2 g (BitVec.ofNat 32 v)).putTag false 2 acc (v / 2 ^ 32 % 32)

/-- A pair field is odd: the instruction is a no-operation that sets ILL (R137). -/
def oddPair (p : Nat) : Bool := decide (p % 2 = 1)

/-- After an access a Leaf still runs what it ran before: it has not gone into QUAR, and its cup and slow cup have not been dropped. -/
def Leaf.stays (l m : Leaf) : Bool :=
  decide (m.state = l.state ∧ m.cup.isSome = l.cup.isSome ∧ m.slow.isSome = l.slow.isSome)

/-- The instruction of an XM word, applied to Leaf `n`; `none` for an opcode not listed. -/
def Chip.opXM (c : Chip) (tb : TimeBase) (n : Nat) (step : Bool) (op g a : Nat) (post : Bool) (aux : Nat) (k : Int) :
    Option Chip :=
  let ill := c.modLeaf n (fun l => l.setFlags false flgILL)
  let x := (c.leaf n).rdG
  match op with
  | 0x10 => some (c.load tb n step a post k 1 (toG g (sextW 8)))
  | 0x11 => some (c.load tb n step a post k 1 (toG g (BitVec.ofNat 32)))
  | 0x12 => some (c.load tb n step a post k 2 (toG g (sextW 16)))
  | 0x13 => some (c.load tb n step a post k 2 (toG g (BitVec.ofNat 32)))
  | 0x14 => some (c.load tb n step a post k 4 (toG g (BitVec.ofNat 32)))
  | 0x15 => some (if oddPair g then ill else c.load tb n step a post k 8 (toPair g))
  | 0x16 => some (c.load tb n step a post k 8 (toCoef g (aux % 4)))
  | 0x18 => some (c.store tb n step a post k 1 (x g).toNat)
  | 0x19 => some (c.store tb n step a post k 2 (x g).toNat)
  | 0x1A => some (c.store tb n step a post k 4 (x g).toNat)
  | 0x1B => some (if oddPair g then ill else
      c.store tb n step a post k 8 ((x g).toNat + (x (g + 1)).toNat * 2 ^ 32))
  | 0x1C =>
    let r := sat16 (asr (x g).toInt aux)
    let d := c.store tb n step a post k 2 r.1.toNat
    some (d.when ((c.leaf n).stays (d.leaf n)) (fun d => d.modLeaf n (fun l => l.setFlags false r.2)))
  | _ => none

/-- Issue a memory instruction on Leaf `n`.  Where its access meets a double-bit error that quarantines the Leaf or drops what it runs, nothing of its
bundle is left to close (R131, R178). -/
def Chip.issueMem (c : Chip) (n : Nat) (last wasted : Bool) (f : Chip → Chip) : Chip :=
  if (c.leaf n).stays ((f c).leaf n) then c.issue n false last wasted f
  else if (c.leaf n).canIssue && !(c.leaf n).usedX then (f c).perfLeaf n 0x20 1
  else c

/-- A memory instruction of the bundle that Leaf `n` issues. -/
def State.mem (s : State) (n : Nat) (last : Bool) (op g a : Nat) (post : Bool) (aux k : Nat) : Res :=
  .next (s.onChip (fun c => c.issueMem n last ((decide (op = 0x15 ∨ op = 0x1B)) && oddPair g)
    (fun c => (c.opXM s.tb n false op g a post aux (signedN 12 k)).getD c)))

/-- `ldb` (R142). -/
def execLdb (n g a : Nat) (post : Bool) (k : Nat) (last : Bool) (s : State) : Res := s.mem n last 0x10 g a post 0 k
/-- `ldbu` (R142). -/
def execLdbu (n g a : Nat) (post : Bool) (k : Nat) (last : Bool) (s : State) : Res := s.mem n last 0x11 g a post 0 k
/-- `ldh` (R142). -/
def execLdh (n g a : Nat) (post : Bool) (k : Nat) (last : Bool) (s : State) : Res := s.mem n last 0x12 g a post 0 k
/-- `ldhu` (R142). -/
def execLdhu (n g a : Nat) (post : Bool) (k : Nat) (last : Bool) (s : State) : Res := s.mem n last 0x13 g a post 0 k
/-- `ldw` (R142). -/
def execLdw (n g a : Nat) (post : Bool) (k : Nat) (last : Bool) (s : State) : Res := s.mem n last 0x14 g a post 0 k
/-- `ldd` (R142, R137). -/
def execLdd (n g a : Nat) (post : Bool) (k : Nat) (last : Bool) (s : State) : Res := s.mem n last 0x15 g a post 0 k
/-- `ldc` (R107, R142). -/
def execLdc (n g acc a : Nat) (post : Bool) (k : Nat) (last : Bool) (s : State) : Res :=
  s.mem n last 0x16 g a post acc k
/-- `stb` (R142). -/
def execStb (n g a : Nat) (post : Bool) (k : Nat) (last : Bool) (s : State) : Res := s.mem n last 0x18 g a post 0 k
/-- `sth` (R142). -/
def execSth (n g a : Nat) (post : Bool) (k : Nat) (last : Bool) (s : State) : Res := s.mem n last 0x19 g a post 0 k
/-- `stw` (R142, R124). -/
def execStw (n g a : Nat) (post : Bool) (k : Nat) (last : Bool) (s : State) : Res := s.mem n last 0x1A g a post 0 k
/-- `std` (R142, R137). -/
def execStd (n g a : Nat) (post : Bool) (k : Nat) (last : Bool) (s : State) : Res := s.mem n last 0x1B g a post 0 k
/-- `stsh` (R142). -/
def execStsh (n g a : Nat) (post : Bool) (k sh : Nat) (last : Bool) (s : State) : Res :=
  s.mem n last 0x1C g a post sh k

end Sys2Proof.Machine
end

