-- ==== Sys2Proof/Machine/LeafY.lean ====
section
/-!
DEFINITION. The slot Y instructions (Table 5.7, R147, R148), and the decoding of a bundle's two slots (R135 to R139) that
a debug step uses (R134).
-/

namespace Sys2Proof.Machine

/-- The exact product of two registers as signed numbers. -/
def Leaf.prod (l : Leaf) (r q : Nat) : Int := (l.rdG r).toInt * (l.rdG q).toInt

/-- Write an accumulator with the flags of its saturation. -/
def Leaf.accResult (l : Leaf) (n : Nat) (r : Acc × Nat) : Leaf := (l.putAcc n r.1).setFlags true r.2

/-- A general-register result of slot Y, visible at i + 2. -/
def Leaf.yResult (l : Leaf) (gd : Nat) (r : Word × Nat) : Leaf := (l.putG true 2 gd r.1).setFlags true r.2

def opMul (acc gs gt : Nat) (l : Leaf) : Leaf := l.putAcc acc (BitVec.ofInt 72 (l.prod gs gt))
def opMac (acc gs gt : Nat) (l : Leaf) : Leaf :=
  l.accResult acc (sat72 ((l.rdAccAdd acc).toInt + l.prod gs gt))
def opMac2 (acc gp gq : Nat) (l : Leaf) : Leaf :=
  let b := Nat.xor acc 1
  (l.accResult acc (sat72 ((l.rdAccAdd acc).toInt + l.prod gp gq))).accResult b
    (sat72 ((l.rdAccAdd b).toInt + l.prod (gp + 1) (gq + 1)))
def opMac2s (acc gp gq : Nat) (l : Leaf) : Leaf :=
  l.accResult acc (sat72 ((l.rdAccAdd acc).toInt + (l.prod gp gq + l.prod (gp + 1) (gq + 1))))
def opClr (acc : Nat) (l : Leaf) : Leaf := l.putAcc acc 0#72
def opExt (gd acc : Nat) (l : Leaf) : Leaf := l.yResult gd (sat32 (asr (l.rdAcc acc).toInt (l.rdTag acc)))
def opExts (gd acc sh : Nat) (l : Leaf) : Leaf := l.yResult gd (sat32 (asr (l.rdAcc acc).toInt sh))
def opRdacc (gd acc part : Nat) (l : Leaf) : Leaf :=
  let v := l.rdAcc acc
  l.putG true 2 gd (match part % 4 with
    | 0 => BitVec.ofNat 32 v.toNat
    | 1 => BitVec.ofNat 32 (v.toNat / 2 ^ 32)
    | 2 => sextW 8 (v.toNat / 2 ^ 64)
    | _ => BitVec.ofNat 32 (l.rdTag acc))
def opWracc (acc gs t : Nat) (l : Leaf) : Leaf :=
  (l.putAcc acc (BitVec.ofInt 72 ((l.rdG gs).toInt * 2 ^ t))).putTag true 3 acc t
def opWraccp (acc gp t : Nat) (l : Leaf) : Leaf :=
  (l.putAcc acc (BitVec.ofInt 72 ((l.rdG (gp + 1)).toInt * 2 ^ 32 + (l.rdG gp).toNat))).putTag true 3 acc t
def opSearch (maxi : Bool) (acc gs : Nat) (l : Leaf) : Leaf :=
  let r := searchStep maxi (l.rdAccAdd acc) (l.rdG gs)
  if r.2 = 0 then l.putAcc acc r.1 else l.setFlags true r.2
def opMax (gd gs gt : Nat) (l : Leaf) : Leaf :=
  l.yResult gd (if (l.rdG gt).toInt ≤ (l.rdG gs).toInt then l.rdG gs else l.rdG gt, 0)
def opMin (gd gs gt : Nat) (l : Leaf) : Leaf :=
  l.yResult gd (if (l.rdG gs).toInt ≤ (l.rdG gt).toInt then l.rdG gs else l.rdG gt, 0)
def opClamp (gd gs gq : Nat) (l : Leaf) : Leaf :=
  l.yResult gd (wOf (min (max (l.rdG gs).toInt (l.rdG gq).toInt) (l.rdG (gq + 1)).toInt), 0)
def opSatn (gd gs w : Nat) (l : Leaf) : Leaf :=
  let x := (l.rdG gs).toInt
  let v := clampI (-(2 ^ w)) (2 ^ w - 1) x
  l.yResult gd (wOf v, if v = x then 0 else flgSAT)

/-- An operation with a pair operand that is odd is a no-operation that sets ILL (R137). -/
def orIll (bad : Bool) (f : Leaf → Leaf) (l : Leaf) : Leaf := if bad then l.setFlags true flgILL else f l

/-- The instruction of a slot Y word (Table 5.2, Table 5.7); `none` for an opcode not listed. -/
def opY (op gd gs gt imm acc : Nat) : Option (Leaf → Leaf) :=
  match op with
  | 0x00 => some (fun l => l)
  | 0x01 => some (opMul acc gs gt)
  | 0x02 => some (opMac acc gs gt)
  | 0x03 => some (orIll (oddPair gs || oddPair gt) (opMac2 acc gs gt))
  | 0x04 => some (orIll (oddPair gs || oddPair gt) (opMac2s acc gs gt))
  | 0x05 => some (opClr acc)
  | 0x06 => some (opExt gd acc)
  | 0x07 => some (opExts gd acc imm)
  | 0x08 => some (opRdacc gd acc imm)
  | 0x09 => some (opWracc acc gs imm)
  | 0x0A => some (orIll (oddPair gs) (opWraccp acc gs imm))
  | 0x0C => some (opSearch true acc gs)
  | 0x0D => some (opSearch false acc gs)
  | 0x10 => some (opMax gd gs gt)
  | 0x11 => some (opMin gd gs gt)
  | 0x12 => some (orIll (oddPair gt) (opClamp gd gs gt))
  | 0x13 => some (opSatn gd gs imm)
  | _ => none

/-- A slot Y instruction, with the products it performs (Table 17.5). -/
def State.slotY (s : State) (n : Nat) (last : Bool) (bad : Bool) (products : Nat) (f : Leaf → Leaf) : Res :=
  .next (s.onChip (fun c => c.issue n true last bad
    (fun c => (c.modLeaf n (orIll bad f)).perfLeaf n 0x1B (if bad then 0 else products))))

/-- `mul` (R147). -/
def execMul (n acc gs gt : Nat) (last : Bool) (s : State) : Res := s.slotY n last false 1 (opMul acc gs gt)
/-- `mac` (R147). -/
def execMac (n acc gs gt : Nat) (last : Bool) (s : State) : Res := s.slotY n last false 1 (opMac acc gs gt)
/-- `mac2`, split form (R147). -/
def execMac2 (n acc gp gq : Nat) (last : Bool) (s : State) : Res :=
  s.slotY n last (oddPair gp || oddPair gq) 2 (opMac2 acc gp gq)
/-- `mac2s`, sum form (R147). -/
def execMac2s (n acc gp gq : Nat) (last : Bool) (s : State) : Res :=
  s.slotY n last (oddPair gp || oddPair gq) 2 (opMac2s acc gp gq)
/-- `clr` (R147). -/
def execClr (n acc : Nat) (last : Bool) (s : State) : Res := s.slotY n last false 0 (opClr acc)
/-- `ext` (R147). -/
def execExt (n gd acc : Nat) (last : Bool) (s : State) : Res := s.slotY n last false 0 (opExt gd acc)
/-- `exts` (R147). -/
def execExts (n gd acc sh : Nat) (last : Bool) (s : State) : Res := s.slotY n last false 0 (opExts gd acc sh)
/-- `rdacc` (R147). -/
def execRdacc (n gd acc part : Nat) (last : Bool) (s : State) : Res := s.slotY n last false 0 (opRdacc gd acc part)
/-- `wracc` (R147). -/
def execWracc (n acc gs t : Nat) (last : Bool) (s : State) : Res := s.slotY n last false 0 (opWracc acc gs t)
/-- `wraccp` (R147). -/
def execWraccp (n acc gp t : Nat) (last : Bool) (s : State) : Res := s.slotY n last (oddPair gp) 0 (opWraccp acc gp t)
/-- `smax` (R148). -/
def execSmax (n acc gs : Nat) (last : Bool) (s : State) : Res := s.slotY n last false 0 (opSearch true acc gs)
/-- `smin` (R148). -/
def execSmin (n acc gs : Nat) (last : Bool) (s : State) : Res := s.slotY n last false 0 (opSearch false acc gs)
/-- `max` (R147). -/
def execMax (n gd gs gt : Nat) (last : Bool) (s : State) : Res := s.slotY n last false 0 (opMax gd gs gt)
/-- `min` (R147). -/
def execMin (n gd gs gt : Nat) (last : Bool) (s : State) : Res := s.slotY n last false 0 (opMin gd gs gt)
/-- `clamp` (R147). -/
def execClamp (n gd gs gq : Nat) (last : Bool) (s : State) : Res := s.slotY n last (oddPair gq) 0 (opClamp gd gs gq)
/-- `satn` (R147). -/
def execSatn (n gd gs w : Nat) (last : Bool) (s : State) : Res := s.slotY n last false 0 (opSatn gd gs w)

/-! ### A bundle from program memory (R134 to R139) -/

/-- Run the slot Y instruction of a word on Leaf `n`. -/
def Chip.runY (c : Chip) (n : Nat) (w : Word) : Chip :=
  match opY (fld w 31 26) (fld w 25 21) (fld w 20 16) (fld w 15 11) (fld w 10 6) (fld w 5 4) with
  | some f => c.modLeaf n f
  | none => c.modLeaf n (fun l => l.setFlags true flgILL)

/-- Run the slot X instruction of a word on Leaf `n`. -/
def Chip.runX (c : Chip) (tb : TimeBase) (n : Nat) (step : Bool) (w : Word) : Chip :=
  let op := fld w 31 26
  let d := fld w 25 21
  let x := fld w 20 16
  let y := fld w 15 11
  let k := fld w 15 0
  let ill := c.modLeaf n (fun l => l.setFlags false flgILL)
  let br := fun (f : Leaf → Leaf) => if (c.leaf n).inDelay then ill else c.modLeaf n f
  match op with
  | 0x00 =>
    if fld w 5 0 = 0x1C then br (opBranch (fun _ => true) (fun l => (l.rdG x).toNat % 2 ^ 15))
    else match opXR c tb n (fld w 5 0) d x y (fld w 10 6) with
      | some f => c.modLeaf n f
      | none => ill
  | 0x20 => br (opBranch (fun _ => true) (fun _ => fld w 14 0))
  | 0x21 => br (opJal d (fld w 14 0))
  | 0x22 => br (opXB (fun x y => decide (x = y)) d x k)
  | 0x23 => br (opXB (fun x y => !decide (x = y)) d x k)
  | 0x24 => br (opXB (fun x y => decide (x.toInt < y.toInt)) d x k)
  | 0x25 => br (opXB (fun x y => decide (y.toInt ≤ x.toInt)) d x k)
  | 0x26 => br (opXB (fun x y => decide (x.toNat < y.toNat)) d x k)
  | 0x27 => br (opXB (fun x y => decide (y.toNat ≤ x.toNat)) d x k)
  | 0x28 => br (opDbnz d k)
  | 0x3E => br opEnd
  | _ =>
    match opXI op d x k with
    | some f => c.modLeaf n f
    | none => (c.opXM tb n step op d (fld w 20 18) (bit w 17) (fld w 16 12) (signedN 12 (fld w 11 0))).getD ill

end Sys2Proof.Machine
end

