-- ==== Sys2Proof/Machine/Slow.lean ====
section
/-!
DEFINITION. Slow cups on Leaves: their start (R170) and `end` (R146, R170).
-/

namespace Sys2Proof.Machine

/-- A takeable cup that an idle Leaf would find under R158 or R162. -/
def Chip.cupFor (c : Chip) (n : Nat) : Bool :=
  let open' := (List.range c.nPots).any (fun p => c.runnerless p && !(c.stealable p).isEmpty)
  !(c.takeable (n / 8)).isEmpty || open' ||
  (c.rb (POT.PCTRL (n / 8)) 8 && (List.range c.nPots).any (fun p => c.rb (POT.PCTRL p) 9 && !(c.stealable p).isEmpty))

/-- The Pot whose slow queue an idle Leaf serves (R170): its own, or the lowest-numbered runnerless one with a slow cup. -/
def Chip.slowFrom (c : Chip) (n : Nat) : Option Nat :=
  if !(c.pot (n / 8)).slowQ.isEmpty then some (n / 8)
  else firstBelow c.nPots (fun p => c.runnerless p && !(c.pot p).slowQ.isEmpty)

/-- Start the slow cup at the head of the queue that Leaf `n` serves (R170). -/
def Chip.slowStart (c : Chip) (tb : TimeBase) (n : Nat) (std : Bool) : Chip :=
  let c := c.settleOwed tb
  let l := c.leaf n
  if !l.idle || c.cupFor n then c
  else match c.slowFrom n with
    | none => c
    | some p => match (c.pot p).slowQ with
      | w :: q =>
        if !w.owed.isEmpty then c
        else
          let c := c.modPot p (fun t => { t with slowQ := q })
          let st := fun (t : Tab Word) (k : Nat) (v : Word) => Tab.set (fun _ => 0#32) t k v
          let b := { Bank.zero with
            g := st (st [] 16 w.param) 17 (BitVec.ofNat 32 w.released.toNat)
            a := st [] 4 (BitVec.ofNat 32 w.staging)
            pc := c.rf (POT.SLOW_ENTRY (n / 8) w.kind) 14 0 }
          (c.setLeaf n { l with
            b := b, bankB := true, slow := some { w with std := std }, slowStd := std, bx := l.bx + 8, cur := [], delay := 0,
            redir := none, branch := none, endReq := false, usedX := false, usedY := false, stall := 7 }).perfLeaf n 0x11 1
      | [] => c

/-- `end` in a slow cup of the standard image: the service's results are in its staging area (R233). -/
def Chip.stdSlowEnd (c : Chip) (tb : TimeBase) (n : Nat) : Chip :=
  match (c.leaf n).slow with
  | some w =>
    let c := (c.smemMeet tb w.home (globalMem w.staging) w.len).smemMeet tb w.home (globalMem w.published) w.len
    let c := if w.kind = 0 then (c.profReads w).foldl (fun c t => c.smemMeet tb w.home t 128) c else c
    if (c.leaf n).slow.isSome then (c.service w).slowEnd n else c
  | none => c

/-- An idle Leaf starts a slow cup (R170); `std` says that the code at its entry is the standard image's. -/
def execSlowCupStart (n : Nat) (std : Bool) (s : State) : Res := .next (s.onChip (fun c => c.slowStart s.tb n std))

/-- `end` (R146): in bank F it ends the cup, in bank B the slow cup; in a delay bundle it is a no-operation that sets ILL (Table 5.8). -/
def execEnd (n : Nat) (last : Bool) (s : State) : Res :=
  .next (s.onChip (fun c =>
    let l := c.leaf n
    if l.state = 2 ∧ l.bankB ∧ l.slowStd ∧ l.slow.isSome then c.stdSlowEnd s.tb n
    else c.issue n false last (c.leaf n).inDelay
      (fun c => c.modLeaf n (fun l => if l.inDelay then l.setFlags false flgILL else opEnd l))))

end Sys2Proof.Machine
end

