-- ==== Sys2Proof/Machine/LeafCtl.lean ====
section
/-!
DEFINITION. Control of Leaves and Pots: quarantine and release (R130 to R132, R177 to R179), the debugger (R133, R134), the
debug window (R127, R128) and the instruction cache's misses (R126).
-/

namespace Sys2Proof.Machine

/-! ### Quarantine and release -/

/-- `LCTRL.QUAR` (Table 4.7): a halted Leaf at once, a running one at an instant after the next T0. -/
def Chip.leafQuar (c : Chip) (n : Nat) : Chip :=
  match (c.leaf n).state with
  | 1 => c.quarLeaf n 1 false none
  | 2 => c.modLeaf n (fun l => { l with quarReq := some (l.quarReq.getD 1) })
  | _ => c

/-- `LCTRL.RELEASE` (R132). -/
def Chip.leafRelease (c : Chip) (n : Nat) : Chip :=
  if (c.leaf n).state = 3 then c.modLeaf n (fun l => { l with filling := true }) else c

/-- The clear of a released Leaf ends (R132). -/
def Chip.leafCleared (c : Chip) (n : Nat) : Chip :=
  let l := c.leaf n
  if l.state = 3 ∧ l.filling then
    (c.fillZero (leafMem n 0) 0x8000).setLeaf n { Leaf.reset with state := 1, port := l.port, bx := l.bx }
  else c

/-- The fill after Pot power-up ends (R125). -/
def Chip.leafFilled (c : Chip) (n : Nat) : Chip :=
  if (c.leaf n).state = 0 ∧ (c.leaf n).filling then
    (c.fillZero (leafMem n 0) 0x8000).modLeaf n (fun l =>
      { Leaf.reset with state := 1, qcause := l.qcause, f := { Bank.zero with pc := l.f.pc } })
  else c

/-- The fill of a released Pot ends: it returns to ON and its Leaves with cause POT are released (R179).  Cups of orphaned axes that still wait
in its queue leave it (DESIGN CHOICE, log 97). -/
def Chip.potCleared (c : Chip) (p : Nat) : Chip :=
  if (c.pot p).state = 2 ∧ (c.pot p).filling then
    let c := (c.fillZero (potMem p 0) 0x80000).modPot p (fun t => { t with
      state := 1, qcause := 0, filling := false, queue := t.queue.filter (fun x => !c.axOrphan x.axis) })
    each (List.range 8) (fun i c => if (c.leaf (8 * p + i)).qcause = 5 then c.leafRelease (8 * p + i) else c) c
  else c

/-- The fill after power-up ends: the Pot enters ON (R177). -/
def Chip.potFilled (c : Chip) (p : Nat) : Chip :=
  if (c.pot p).state = 0 ∧ (c.pot p).filling then
    ((c.fillZero (potMem p 0) 0x80000).fillZero (progMem p 0) 0x40000).modPot p (fun t => { Pot.reset with state := 1, qcause := t.qcause })
  else c

/-- A hardware cause of Table 4.8, or a host quarantine whose instant has come (R130, R131). -/
def Chip.quarIn (c : Chip) (tb : TimeBase) (n cause : Nat) : Chip :=
  let l := c.leaf n
  if l.state = 2 ∧ cause = 4 then c.watchAxes tb (fun c => c.quarLeaf n 4 true none)
  else c.settleLeaf n

/-! ### The debugger -/

/-- DBG_REF of a Leaf. -/
def Chip.dbgRef (c : Chip) (n : Nat) : Chip := c.evt (lfPg n) 4

/-- Every Leaf of Pot `p` is in HALT or QUAR. -/
def Chip.potQuiet (c : Chip) (p : Nat) : Bool :=
  (List.range 8).all (fun i => decide ((c.leaf (8 * p + i)).state = 1 ∨ (c.leaf (8 * p + i)).state = 3))

/-- The results of a stepped bundle land, and the Leaf stands at the next one (R134). -/
def Chip.stepLand (c : Chip) (tb : TimeBase) (n : Nat) : Chip :=
  if (c.leaf n).state ≠ 1 then c
  else ((c.modLeaf n (fun l => { l.advance with cur := [], bx := l.bx + 8, endReq := false, usedX := false, usedY := false })).landList n
    (c.leaf n).bundleResults).evt (lfPg n) 5

/-- The bundle of the two words issues on a halted Leaf. -/
def Chip.stepBundle (c : Chip) (tb : TimeBase) (n : Nat) (x y : Word) : Chip :=
  ((c.runX tb n true x).runY n y).stepLand tb n

/-- The bundle at program address `a` is fetched and issues: a double-bit error quarantines the Pot, a single-bit one is
corrected (R126). -/
def Chip.stepFetch (c : Chip) (tb : TimeBase) (n a : Nat) : Chip :=
  if c.eccAt a 8 = some true then c.quarPot (n / 8) 2
  else (if c.eccAt a 8 = some false then (c.eccClear a 8).trouble (POT.PMEM_CE (n / 8)) else c).stepBundle tb n
    (BitVec.ofNat 32 (c.loadLE a 4)) (BitVec.ofNat 32 (c.loadLE (a + 4) 4))

/-- STEP (R134): the bundle at DBG_PC issues in bank F and all its results land; `end` only drains. -/
def Chip.leafStep (c : Chip) (tb : TimeBase) (n : Nat) : Chip :=
  if (c.leaf n).state ≠ 1 then c.dbgRef n
  else (c.modLeaf n (fun l => { l with
    bankB := false, cur := [], flight := [], branch := none, endReq := false, usedX := false, usedY := false })).stepFetch tb n
    (progMem (n / 8) (8 * (c.leaf n).f.pc))

/-- A write of DBG_PC (R134). -/
def Chip.writeDbgPc (c : Chip) (n : Nat) (v : Word) : Chip :=
  if (c.leaf n).state = 1 then
    c.modLeaf n (fun l => { l with f := { l.f with pc := fld v 14 0 }, delay := 0, redir := none, branch := none })
  else c.dbgRef n

/-- The selection of DBG_SEL exists (Table 4.11). -/
def dbgExists (cls idx : Nat) : Bool :=
  match cls with
  | 0 => true
  | 1 | 2 => decide (idx < 8)
  | 3 | 4 | 5 => decide (idx < 4)
  | 6 => decide (idx ≤ 11)
  | _ => false

/-- The item that DBG_SEL selects is banked (Table 4.2). -/
def dbgBanked (cls idx : Nat) : Bool :=
  match cls with
  | 0 => decide (16 ≤ idx)
  | 1 | 2 => decide (4 ≤ idx)
  | 3 | 4 | 5 => decide (2 ≤ idx)
  | _ => decide (idx = 0 ∨ 8 ≤ idx)

/-- Replace the selected item of a bank (Table 4.11). -/
def Bank.dbgPut (k : Bank) (cls idx : Nat) (v : Word) : Bank :=
  let w := fun (t : Tab Word) (i : Nat) => Tab.set (fun _ => 0#32) t i v
  let acc := Tab.get (fun _ => 0#72) k.accRead idx
  let putAcc := fun (x : Nat) => { k with
    accRead := Tab.set (fun _ => 0#72) k.accRead idx (BitVec.ofNat 72 x)
    accAdd := Tab.set (fun _ => 0#72) k.accAdd idx (BitVec.ofNat 72 x) }
  match cls with
  | 0 => if idx = 0 then k else { k with g := w k.g idx }
  | 1 => { k with a := w k.a idx }
  | 2 => { k with amod := w k.amod idx }
  | 3 => putAcc (acc.toNat / 2 ^ 32 * 2 ^ 32 + v.toNat)
  | 4 => putAcc (acc.toNat / 2 ^ 64 * 2 ^ 64 + v.toNat * 2 ^ 32 + acc.toNat % 2 ^ 32)
  | 5 => { putAcc (fld v 7 0 * 2 ^ 64 + acc.toNat % 2 ^ 64) with
            tag := Tab.set (fun _ => 0#32) k.tag idx (BitVec.ofNat 32 (fld v 12 8)) }
  | _ => if idx = 0 then { k with flg := BitVec.ofNat 32 (fld v 4 0) }
         else if 4 ≤ idx then { k with amod := w k.amod (idx - 4) } else k

/-- The selected item of a bank as DBG_DATA reads it; `ctl` gives c1 to c3. -/
def Bank.dbgGet (k : Bank) (cls idx : Nat) (ctl : Nat → Word) : Word :=
  let acc := (Tab.get (fun _ => 0#72) k.accRead idx).toNat
  match cls with
  | 0 => if idx = 0 then 0#32 else Tab.get (fun _ => 0#32) k.g idx
  | 1 => Tab.get (fun _ => 0#32) k.a idx
  | 2 => Tab.get (fun _ => 0#32) k.amod idx
  | 3 => BitVec.ofNat 32 acc
  | 4 => BitVec.ofNat 32 (acc / 2 ^ 32)
  | 5 => BitVec.ofNat 32 (acc / 2 ^ 64) ||| (Tab.get (fun _ => 0#32) k.tag idx <<< (8 : Nat))
  | _ => if idx = 0 then k.flg else if idx < 4 then ctl idx else Tab.get (fun _ => 0#32) k.amod (idx - 4)

/-- The bank that DBG_SEL's item stands in: unbanked items ignore BANK. -/
def Chip.dbgBankB (c : Chip) (n : Nat) : Bool :=
  let s := c.reg (LEAF.DBG_SEL n)
  bit s 8 && dbgBanked (fld s 7 5) (fld s 4 0)

/-- A write of DBG_DATA (R133). -/
def Chip.writeDbgData (c : Chip) (n : Nat) (v : Word) : Chip :=
  let s := c.reg (LEAF.DBG_SEL n)
  if (c.leaf n).state ≠ 1 ∨ !dbgExists (fld s 7 5) (fld s 4 0) then c.dbgRef n
  else if c.dbgBankB n then c.modLeaf n (fun l => { l with b := l.b.dbgPut (fld s 7 5) (fld s 4 0) v })
  else c.modLeaf n (fun l => { l with f := l.f.dbgPut (fld s 7 5) (fld s 4 0) v })

/-- A write of LCTRL: where it sets several of QUAR, RELEASE and STEP they act in this order (DESIGN CHOICE, log 91). -/
def Chip.writeLctrl (c : Chip) (tb : TimeBase) (n : Nat) (v : Word) : Chip :=
  let c := c.when (bit v 0) (fun c => c.leafQuar n)
  let c := c.when (bit v 1) (fun c => c.leafRelease n)
  c.when (bit v 3) (fun c => c.leafStep tb n)

/-! ### The debug window -/

/-- A 32-bit write into the debug window at a word address (R128).  A single-bit error that the read-modify-write of a word of Pot memory
corrects is not counted (DESIGN CHOICE, log 91). -/
def Chip.dbgWrite (c : Chip) (a : Nat) (v : Word) : Chip :=
  if 0x1000000 ≤ a ∧ a < 0x1200000 then
    let n := (a - 0x1000000) / 0x8000
    let s := (c.leaf n).state
    if c.nLeaves ≤ n then c
    else if s = 1 ∨ s = 3 then (c.storeLE a 4 v.toNat).eccClear a 4
    else c.dbgRef n
  else if 0x1200000 ≤ a ∧ a < 0x1800000 then
    let p := if a < 0x1400000 then (a - 0x1200000) / 0x40000 else (a - 0x1400000) / 0x80000
    if c.nPots ≤ p then c
    else if decide ((c.pot p).state ≠ 0) && c.potQuiet p then
      let c := if c.eccAt a 8 = some true then c.storeLE (a / 8 * 8) 8 0 else c
      (c.storeLE a 4 v.toNat).eccClear a 8
    else c.evt (pgPot p) 1
  else c

/-- A 32-bit read of the debug window (R128): what it returns, and the chip as the checks leave it. -/
def Chip.dbgRead (c : Chip) (tb : TimeBase) (a : Nat) : Chip × Word :=
  let v := BitVec.ofNat 32 (c.loadLE a 4)
  if 0x1000000 ≤ a ∧ a < 0x1200000 then
    let n := (a - 0x1000000) / 0x8000
    if (c.leaf n).state = 0 then (c, 0#32)
    else match c.eccAt a 4 with
      | some true => (if (c.leaf n).state = 3 then c else c.watchAxes tb (fun c => c.quarLeaf n 4 true none), 0#32)
      | some false => ((c.eccClear a 4).trouble (LEAF.ECC_CORR n), v)
      | none => (c, v)
  else if 0x1200000 ≤ a ∧ a < 0x1800000 then
    let prog := decide (a < 0x1400000)
    let p := if prog then (a - 0x1200000) / 0x40000 else (a - 0x1400000) / 0x80000
    if (c.pot p).state = 0 then (c, 0#32)
    else match c.eccAt a 8 with
      | some true => (c.watchAxes tb (fun c => c.quarPot p (if prog then 2 else 3)), 0#32)
      | some false => ((c.eccClear a 8).trouble (if prog then POT.PMEM_CE p else POT.SMEM_CE p), v)
      | none => (c, v)
  else (c, 0#32)

/-- What a port's last read returned. -/
def Chip.reply (c : Chip) (p : Port) (v : Word) : Chip := c.modPort p (fun t => { t with rdata := v })

/-- The eight words of a line are read from the program memory of Pot `p`; single-bit errors are corrected and counted. -/
def Chip.icRead (c : Chip) (p line : Nat) : Chip :=
  each (below 8 (fun i => decide (c.eccAt (progMem p (64 * line + 8 * i)) 8 = some false)))
    (fun i c => (c.eccClear (progMem p (64 * line + 8 * i)) 8).trouble (POT.PMEM_CE p)) c

/-- A line cannot be read: a double-bit error stands in it. -/
def Chip.icBad (c : Chip) (p line : Nat) : Bool :=
  (List.range 8).any (fun i => decide (c.eccAt (progMem p (64 * line + 8 * i)) 8 = some true))

/-- An instruction-cache miss completes (R126, R178): the line, which the cache does not hold, and the next one, if the cache does not hold
it either, have been read from program memory.  `perr` says that a bundle of a line that the cache holds has failed its parity: the line is
invalidated and fetched again. -/
def Chip.icMiss (c : Chip) (tb : TimeBase) (n bundle : Nat) (perr : Bool) : Chip :=
  let line := icLine bundle
  if decide ((c.leaf n).state ≠ 2) || (c.leaf n).icHolds line != perr then c
  else
    let p := n / 8
    let c := (c.perfLeaf n 0x13 1).modLeaf n (fun l => { l with stall := 6 })
    let c := c.when perr (fun c => ((c.trouble (LEAF.IC_PERR n)).perfLeaf n 0x14 1).modLeaf n (Leaf.icDrop line))
    let lines := line :: (if (c.leaf n).icHolds (icLine (bundle + 8)) then [] else [icLine (bundle + 8)])
    if lines.any (c.icBad p) then c.watchAxes tb (fun c => c.quarPot p 2)
    else (each lines (fun x c => c.icRead p x) c).modLeaf n (fun l => lines.foldr Leaf.icUse l)

/-- PCTRL.RELEASE of a Pot in QUAR (R179). -/
def Chip.potRelease (c : Chip) (n : Nat) : Chip :=
  if (c.pot n).state = 2 then c.modPot n (fun t => { t with filling := true }) else c

/-- A write of PCTRL: QUAR, RELEASE, and the steal permissions as staged (R63, R165, R178, R179). -/
def Chip.writePctrl (c : Chip) (tb : TimeBase) (n : Nat) (v : Word) : Chip :=
  let c := c.when (bit v 0) (fun c => c.quarPot n 1)
  (c.when (bit v 1) (fun c => c.potRelease n)).stage tb (POT.PCTRL n) v

/-! ### Commands -/

/-- Writing LCTRL.QUAR (R130). -/
def execLctrlQuar (p : Port) (n : Nat) (s : State) : Res :=
  .next (s.onChip (fun c => c.gated p (LEAF.LCTRL n) (fun c => c.leafQuar n)))

/-- A Leaf enters QUAR (R131): cause 4 is a double-bit error met at this instant; another is a request whose instant has
come. -/
def execQuarIn (n cause : Nat) (s : State) : Res := .next (s.onChip (fun c => c.quarIn s.tb n cause))

/-- Writing LCTRL.RELEASE (R132). -/
def execLctrlRelease (p : Port) (n : Nat) (s : State) : Res :=
  .next (s.onChip (fun c => c.gated p (LEAF.LCTRL n) (fun c => c.leafRelease n)))

/-- The clear of a released Leaf ends (R132). -/
def execLeafReleaseDone (n : Nat) (s : State) : Res := .next (s.onChip (fun c => c.leafCleared n))

/-- Writing LCTRL.STEP (R134). -/
def execStep (p : Port) (n : Nat) (s : State) : Res :=
  .next (s.onChip (fun c => c.gated p (LEAF.LCTRL n) (fun c => c.leafStep s.tb n)))

/-- A write of DBG_PC (R134). -/
def execDbgPcWrite (p : Port) (n : Nat) (v : Word) (s : State) : Res :=
  .next (s.onChip (fun c => c.gated p (LEAF.DBG_PC n) (fun c => c.writeDbgPc n v)))

/-- A write of DBG_DATA (R133). -/
def execDbgDataWrite (p : Port) (n : Nat) (v : Word) (s : State) : Res :=
  .next (s.onChip (fun c => c.gated p (LEAF.DBG_DATA n) (fun c => c.writeDbgData n v)))

/-- An instruction-cache line fetch completes (R126). -/
def execIcMiss (n bundle : Nat) (perr : Bool) (s : State) : Res := .next (s.onChip (fun c => c.icMiss s.tb n bundle perr))

/-- A write of PCTRL with QUAR = 1 (R178), which stages its STEAL_IN and STEAL_OUT (R63). -/
def execPctrlQuar (p : Port) (n : Nat) (v : Word) (s : State) : Res :=
  .next (s.onChip (fun c => c.gated p (POT.PCTRL n) (fun c => c.writePctrl s.tb n (v ||| 1#32))))

/-- A write of PCTRL with RELEASE = 1 (R179). -/
def execPctrlRelease (p : Port) (n : Nat) (v : Word) (s : State) : Res :=
  .next (s.onChip (fun c => c.gated p (POT.PCTRL n) (fun c => c.writePctrl s.tb n (v ||| 2#32))))

/-- The fill of a released Pot ends (R179). -/
def execPotReleaseDone (n : Nat) (s : State) : Res := .next (s.onChip (fun c => c.potCleared n))

end Sys2Proof.Machine
end

