-- ==== Sys2Proof/Machine/TimeBase.lean ====
section
/-!
DEFINITION. The time base (R74 to R80, R85): the advance of a clock period and the commands on the TIME page.
-/

namespace Sys2Proof.Machine

/-- Periods of the slewing rate (R75): at least 100 000 while the tick runs. -/
def Chip.slewS (c : Chip) : Nat :=
  let r := c.rf TIME.SLEW_RATE 19 0
  if c.tg.running then max r 100000 else r

/-- One period of the 1.0 GHz clock (R75), with `S` the slewing rate in force.  The rule leaves open where the periods of slew_due
begin: they are counted from reset, and a count that a new `S` has passed is due at once (DESIGN CHOICE, log 60). -/
def TimeBase.advance (t : TimeBase) (S : Nat) : TimeBase :=
  let sum : Int := t.frac.toNat + t.addendNow
  let carry := sum.fdiv (2 ^ 32)
  let frac := BitVec.ofInt 32 sum
  let due := decide (S ≤ t.slewPhase + 1)
  let slew : Int := if carry = 0 ∧ due ∧ t.slewLeft ≠ 0 then t.slewLeft.sign else 0
  let step := (1 + carry + slew).toNat
  let ns := t.ns + step
  let ovr := decide (1000000000 ≤ ns)
  { t with
    sec := if ovr then t.sec + 1#48 else t.sec
    ns := if ovr then ns - 1000000000 else ns
    fast := t.fast + BitVec.ofNat 32 step
    ext := t.ext + step
    frac := frac
    slewLeft := t.slewLeft - slew
    slewPhase := if due then 0 else t.slewPhase + 1
    wrapDue := t.wrapDue || decide (2 ^ 32 ≤ t.fast.toNat + step)
    slewDue := t.slewDue || (decide (slew ≠ 0) && decide (t.slewLeft - slew = 0))
    cycle := t.cycle + 1 }

/-- SRC in force: LINE on a chip in standby role (R79).  TIME_CTRL.SRC itself reads what was written there (DESIGN CHOICE, log 93: R79 does not
say what it reads on a standby). -/
def Chip.timeSrc (c : Chip) : Nat := if c.isStandby then 2 else c.rf TIME.TIME_CTRL 5 4

/-- The PTP servo runs: SRC is PTP and the PTP port is enabled (R98, R99). -/
def Chip.servoOn (c : Chip) : Bool := decide (c.timeSrc = 1) && c.rb PTP.PTP_CTRL 31

/-- The port is the owner of ADDEND, SLEW and SET (R79, R99).  A write by Kettle firmware while it is not the owner is discarded as a
host's is (DESIGN CHOICE, log 61). -/
def Chip.timeOwner (c : Chip) (p : Port) : Bool :=
  decide (c.timeSrc = 0 ∧ p.isHost = true) || (c.servoOn && decide (p = .kettle))

/-- ADDEND_NOW follows ADDEND (R76), whoever owns it: not with SRC = PTP while the PTP port is off (R99). -/
def Chip.followsAddend (c : Chip) : Bool := decide (c.timeSrc ≠ 1) || c.rb PTP.PTP_CTRL 31

/-- CTRL_REF of the TIME page. -/
def Chip.ctrlRef (c : Chip) : Chip := c.evt pgTime 1

/-- The owner gives ADDEND a value (R76): ADDEND_NOW takes it at once while the tick is stopped. -/
def State.giveAddend (s : State) (v : Word) : State :=
  { s with
    chip := s.chip.setReg TIME.ADDEND v
    tb := if s.chip.tg.running then { s.tb with keep := false } else { s.tb with addendNow := v.toInt, keep := false } }

/-- A write of `TIME.ADDEND` (R76, R79). -/
def State.writeAddend (s : State) (p : Port) (v : Word) : State :=
  let own := s.chip.timeOwner p
  let ok := decide (-4294967 ≤ v.toInt ∧ v.toInt ≤ 4294967)
  let c := s.chip.when (!own) Chip.ctrlRef
  let c := c.when (!ok) (fun c => c.evt pgTime 0)
  if own && ok then State.giveAddend { s with chip := c } v else { s with chip := c }

/-- SLEW_LEFT takes an addition (R77): its clamped sum, and SLEW_DONE where it falls to 0. -/
def State.slewBy (s : State) (v : Int) : State :=
  let n := clampI (-1000000000) 1000000000 (s.tb.slewLeft + v)
  { s with tb := { s.tb with slewLeft := n },
           chip := s.chip.when (decide (s.tb.slewLeft ≠ 0 ∧ n = 0)) (fun c => c.evt pgTime 2) }

/-- A write of `TIME.SLEW` (R77, R79). -/
def State.writeSlew (s : State) (p : Port) (v : Word) : State :=
  if s.chip.timeOwner p then s.slewBy v.toInt else s.onChip Chip.ctrlRef

/-- A snapshot (R80). -/
def Chip.snapshot (c : Chip) (tb : TimeBase) : Chip :=
  let run := c.tg.running
  let t := if run then c.tg.tickNo.toNat else 0
  let c := c.setN TIME.SNAP_NS tb.ns
  let c := c.setPair TIME.SNAP_SEC_LO TIME.SNAP_SEC_HI tb.sec.toNat
  let c := c.setReg TIME.SNAP_FAST tb.fast
  let c := c.setPair TIME.SNAP_TICK_LO TIME.SNAP_TICK_HI t
  c.setN TIME.SNAP_OFS (if run then c.ofs tb % 2 ^ 18 else 0)

/-- A set of the time (R78): refused while the tick runs, by a port that is not the owner, or with SET_NS above
999 999 999.  Beside a snapshot it takes effect in the following clock period (R80). -/
def State.timeSet (s : State) (p : Port) (later : Bool) : State :=
  let ns := s.chip.rf TIME.SET_NS 29 0
  let sec := BitVec.ofNat 48 (s.chip.rn TIME.SET_SEC_LO + s.chip.rf TIME.SET_SEC_HI 15 0 * 2 ^ 32)
  if s.chip.tg.running || decide (999999999 < ns) || !s.chip.timeOwner p then s.onChip Chip.ctrlRef
  else if later then { s with tb := { s.tb with setDue := some (sec, ns) } }
  else { s with tb := { s.tb with ns := ns, sec := sec } }

/-- A write of `TIME.TIME_CTRL` (R78 to R80): the snapshot first, then SRC, then the set under the new SRC. -/
def State.writeTimeCtrl (s : State) (p : Port) (v : Word) : State :=
  let s := if bit v 0 then s.onChip (fun c => c.snapshot s.tb) else s
  let s := s.onChip (fun c => c.setF TIME.TIME_CTRL 5 4 (fld v 5 4))
  if bit v 1 then s.timeSet p (bit v 0) else s

/-- A write of `TIME.SLEW_RATE`: a value outside its range is discarded with ADD_RANGE (Table 3.1). -/
def Chip.writeSlewRate (c : Chip) (v : Word) : Chip :=
  let r := fld v 19 0
  if 1000 ≤ r ∧ r ≤ 1000000 then c.setN TIME.SLEW_RATE r else c.evt pgTime 0

/-- A write of `TIME.MARK` (R85). -/
def Chip.writeMark (c : Chip) (tb : TimeBase) : Chip := c.setReg TIME.MARK_FAST tb.fast

/-! ### Commands -/

/-- A write of `TIME.ADDEND` (R76). -/
def execAddendWrite (p : Port) (v : Word) (s : State) : Res :=
  .next (s.gated p TIME.ADDEND (fun s => s.writeAddend p v))

/-- A write of `TIME.SLEW` (R77). -/
def execSlewWrite (p : Port) (v : Word) (s : State) : Res := .next (s.gated p TIME.SLEW (fun s => s.writeSlew p v))

/-- SLEW_LEFT has been worked off (R77). -/
def execSlewDone (s : State) : Res :=
  .next (if s.tb.slewDue then
    { s with tb := { s.tb with slewDue := false }, chip := s.chip.evt pgTime 2 } else s)

/-- A write of TIME_CTRL with SET = 1 (R78). -/
def execTimeSet (p : Port) (v : Word) (s : State) : Res :=
  .next (s.gated p TIME.TIME_CTRL (fun s => s.writeTimeCtrl p (v ||| 2#32)))

/-- A write of TIME_CTRL with SNAP = 1 (R80). -/
def execSnap (p : Port) (v : Word) (s : State) : Res :=
  .next (s.gated p TIME.TIME_CTRL (fun s => s.writeTimeCtrl p (v ||| 1#32)))

/-- A write of TIME_CTRL that gives SRC (R79). -/
def execSrcWrite (p : Port) (v : Word) (s : State) : Res :=
  .next (s.gated p TIME.TIME_CTRL (fun s => s.writeTimeCtrl p v))

/-- A write of `TIME.MARK` (R85). -/
def execMark (p : Port) (s : State) : Res :=
  .next (s.onChip (fun c => c.gated p TIME.MARK (fun c => c.writeMark s.tb)))

/-- FAST_NS has wrapped (R74, Table 3.1). -/
def execWrap (s : State) : Res :=
  .next (if s.tb.wrapDue then
    { s with tb := { s.tb with wrapDue := false }, chip := s.chip.evt pgTime 3 } else s)

end Sys2Proof.Machine
end

