-- ==== Sys2Proof/Machine/Tick.lean ====
section
/-!
DEFINITION. The tick generator's commands (R89, R90), the checks on schedule modes (R19, R89, R296) and the requests for a
change of mode (R306, R310).
-/

namespace Sys2Proof.Machine

/-! ### Schedule modes -/

/-- FAIL of a mode set whose seven values are given (Table 3.4). -/
def modeFail (period gOfs gLate pClose sOpen sCount sSlot : Nat) : Nat :=
  let range := !(decide (20834 ≤ period ∧ period ≤ 250000) && decide (200 ≤ gOfs ∧ gOfs + 1000 ≤ period)
    && decide (600 ≤ sSlot ∧ sSlot ≤ 4000) && decide (1 ≤ sCount ∧ sCount ≤ 4))
  let step := decide (gOfs % 8 ≠ 0 ∨ gLate % 8 ≠ 0 ∨ pClose % 8 ≠ 0 ∨ sOpen % 8 ≠ 0 ∨ sSlot % 8 ≠ 0)
  let c1 := decide (gOfs < gLate ∧ gLate + 64 ≤ pClose)
  let c2 := decide (pClose + 500 ≤ sOpen)
  let c3 := decide (sOpen + sCount * sSlot + 500 ≤ period)
  b2n range + 2 * b2n step + 4 * b2n (!c1) + 8 * b2n (!c2) + 16 * b2n (!c3)

/-- Recompute OK and FAIL of set `m` (R89). -/
def Chip.modeRecheck (c : Chip) (m : Nat) : Chip :=
  let f := modeFail (c.rf (TICK.MODE_PERIOD m) 17 0) (c.rf (TICK.MODE_GATHER_OFS m) 17 0)
    (c.rf (TICK.MODE_GATHER_LATE m) 17 0) (c.rf (TICK.MODE_POUR_CLOSE m) 17 0) (c.rf (TICK.MODE_SVC_OPEN m) 17 0)
    (c.rf (TICK.MODE_SVC m) 18 16) (c.rf (TICK.MODE_SVC m) 11 0)
  c.setN (TICK.MODE_STAT m) (f + 2 ^ 31 * b2n (decide (f = 0)))

/-- OK of set `m`. -/
def Chip.modeOk (c : Chip) (m : Nat) : Bool := c.rb (TICK.MODE_STAT m) 31

/-- Line speed of a segment: 100BASE-T1 (R330). -/
def Chip.slowSeg (c : Chip) (g : Nat) : Bool := c.rb (LP.LP_CFG (2 * g)) 8

/-- Entry `e` of the owner table of mode `m` (R297). -/
def Chip.ownEntry (c : Chip) (g m e : Nat) : Nat := c.rf (SEG.OWN g (8 * m + e / 4)) (8 * (e % 4) + 7) (8 * (e % 4))

/-- Mode `m` is valid for segment `g` (R296). -/
def Chip.modeValid (c : Chip) (m g : Nat) : Bool :=
  let w := c.reg (SEG.APPLY_M g m)
  let at' := fld w 17 0
  let period := c.rf (TICK.MODE_PERIOD m) 17 0
  (List.range 32).all (fun e => decide (c.ownEntry g m e ≤ 16)) &&
  decide (at' % 8 = 0) &&
  (!bit w 31 || decide (c.rf (TICK.MODE_POUR_CLOSE m) 17 0 ≤ at' ∧ at' < period)) &&
  decide (bit w 30 = c.slowSeg g) &&
  (!bit w 30 || decide (c.rf (TICK.MODE_SVC_OPEN m) 17 0 + 8 * c.rf (TICK.MODE_SVC m) 18 16 * c.rf (TICK.MODE_SVC m) 11 0
    + 500 ≤ 2 * period))

/-- The segments enabled in force. -/
def Chip.enSegs (c : Chip) : List Nat := below c.nSegs (fun g => c.en (pgSeg g))

/-- The running segments. -/
def Chip.runSegs (c : Chip) : List Nat := if c.tg.running then c.enSegs else []

/-- Segment `g` is running. -/
def Chip.segRun (c : Chip) (g : Nat) : Bool := c.tg.running && decide (g < c.nSegs) && c.en (pgSeg g)

/-- Mode `m` is in force or named in a pending change (R89, R295). -/
def Chip.modeBusy (c : Chip) (m : Nat) : Bool :=
  decide (c.modeInForce = some m) || (match c.tg.change with | some x => decide (x.target = m) | none => false)

/-- A write to word `i` of mode set `m` (R89); the reserved word +0x1C ignores it (R50). -/
def Chip.writeMode (c : Chip) (m i : Nat) (v : Word) : Chip :=
  if 6 < i then c
  else if c.modeBusy m then c.evt pgTick 9
  else if 5 < i then c
  else
    let a := 0x1100 + 0x20 * m + 4 * i
    let rw := maskOf (fldsOf a) (fun k => decide (k = .rw))
    (c.setReg a ((c.reg a &&& ~~~rw) ||| (v &&& rw))).modeRecheck m

/-- A write to the owner table or the apply word of mode `m` on SEG page `g`, at address `a` (R295). -/
def Chip.writeSched (c : Chip) (g m a : Nat) (v : Word) : Chip :=
  if c.modeBusy m then c.evt (pgSeg g) 9
  else
    let rw := maskOf (fldsOf a) (fun k => decide (k = .rw))
    c.setReg a ((c.reg a &&& ~~~rw) ||| (v &&& rw))

/-! ### Starting and stopping -/

/-- The sample interval of the first T0 of a start begins at its acceptance (R215). -/
def Chip.lfStart (c : Chip) : Chip :=
  each (List.range 16) (fun n c => c.modLf n (fun l => { l with
    valid := false, idx := false, err := false, enAll := c.en (pgLf n), owed := none })) c

/-- A write of RUN = 1 (R90).  START_MODE of the write is stored where the write starts the tick, is refused or cancels a stop; any other
write changes nothing. -/
def Chip.runStart (c : Chip) (tb : TimeBase) (mode : Nat) : Chip :=
  let acts := if c.tg.running then c.tg.stopReq else c.tg.start.isNone
  let c := c.when acts (fun c => c.setF TICK.TICK_CTRL 2 0 mode)
  if c.tg.running then
    if c.tg.stopReq then (c.modTg (fun t => { t with stopReq := false })).setF TICK.TICK_CTRL 31 31 1 else c
  else if c.tg.start.isSome then c
  else if c.modeOk mode && c.enSegs.all (fun g => c.modeValid mode g) then
    let d := c.rn TICK.START_AT + 2 ^ 32 - tb.fast.toNat
    let d := d % 2 ^ 32
    let at' := if 1000 ≤ d ∧ d < 2 ^ 31 then c.reg TICK.START_AT else tb.fast + 1000#32
    (c.lfStart.modTg (fun t => { t with start := some at', startMode := mode })).setF TICK.TICK_CTRL 31 31 1
  else c.evt pgTick 8

/-- A write of RUN = 0 (R90): START_MODE is stored where the write stops the tick or cancels a start. -/
def Chip.runStop (c : Chip) (mode : Nat) : Chip :=
  let c := c.when (c.tg.running || c.tg.start.isSome) (fun c => c.setF TICK.TICK_CTRL 2 0 mode)
  if c.tg.running then (c.modTg (fun t => { t with stopReq := true })).setF TICK.TICK_CTRL 31 31 0
  else if c.tg.start.isSome then
    -- units that waited for the first T0 of the start apply as while no tick runs (R72)
    ((c.modTg (fun t => { t with start := none })).modCm
      (fun m => { m with units := m.units.map (fun u => { u with due := 0 }) })).setF TICK.TICK_CTRL 31 31 0
  else c

/-- A write of `TICK.TICK_CTRL` (R90). -/
def Chip.writeTickCtrl (c : Chip) (tb : TimeBase) (v : Word) : Chip :=
  if bit v 31 then c.runStart tb (fld v 2 0) else c.runStop (fld v 2 0)

/-- A stored write of the TICK_NO pair (R90). -/
def Chip.writeTickNo (c : Chip) (v : Nat) : Chip :=
  if c.noTick then { c with tg := { c.tg with tickNo := BitVec.ofNat 64 v } } else c.evt pgTick 10

/-! ### Changes of mode -/

/-- The end of a change, or a refused request, with its reason (R310). -/
def Chip.mcAbandon (c : Chip) (reason node seg : Nat) : Chip :=
  let c := { c with tg := { c.tg with change := none } }
  let c := (((c.setF TICK.MC_STAT 31 28 4).setF TICK.MC_STAT 27 24 reason).setF TICK.MC_STAT 20 16 node).setF
    TICK.MC_STAT 11 8 seg
  (c.evt pgTick 12).trouble TICK.MC_ABANDON

/-- Some running segment has CYCLE4 in the mode in force or in mode `m`. -/
def Chip.anyCycle4 (c : Chip) (m : Nat) : Bool :=
  c.runSegs.any (fun g => c.rb (SEG.APPLY g) 30 || c.rb (SEG.APPLY_M g m) 30)

/-- Mode `m` is valid for every running segment (R296). -/
def Chip.targetValid (c : Chip) (m : Nat) : Bool := c.runSegs.all (fun g => c.modeValid m g)

/-- A pending change whose target is not valid for a segment that has begun to run is abandoned with reason SET (R296). -/
def Chip.changeCheck (c : Chip) : Chip :=
  match c.tg.change with
  | some x => if c.targetValid x.target then c else c.mcAbandon 1 0 0
  | none => c

/-- A request for a change of mode (R306). -/
def Chip.mcGo (c : Chip) : Chip :=
  let target := c.rf TICK.MC_CTRL 2 0
  let ann := c.rf TICK.MC_CTRL 20 16
  let n := c.pair TICK.MC_TICK_LO TICK.MC_TICK_HI
  let now := c.tickNo
  let four := c.anyCycle4 target
  let c := c.setF TICK.MC_STAT 2 0 target
  if c.tg.change.isSome then
    -- the pending change keeps its state; the refusal shows in REASON and in the counter
    ((c.setF TICK.MC_STAT 27 24 3).evt pgTick 12).trouble TICK.MC_ABANDON
  else if !c.tg.running then c.mcAbandon 9 0 0
  else if target = c.tg.mode then c.mcAbandon 4 0 0
  else if !(c.modeOk target && c.targetValid target) then c.mcAbandon 1 0 0
  else if !(decide (3 ≤ ann ∧ ann ≤ 16) && decide (now + ann < n) && decide (n < now + 2 ^ 20) &&
      (!four || decide (n % 4 = 0 ∧ 12 ≤ ann))) then c.mcAbandon 2 0 0
  else if c.isStandby then c.mcAbandon 5 0 0
  else
    let c := c.modTg (fun t => { t with change := some ⟨target, BitVec.ofNat 64 n, ann, four, false⟩ })
    (c.setF TICK.MC_STAT 31 28 1).setF TICK.MC_STAT 27 24 0

/-- An abandonment requested by the host, accepted before the decision (R310). -/
def Chip.mcAbort (c : Chip) : Chip :=
  match c.tg.change with
  | some x => if x.confirmed then c else c.mcAbandon 7 0 0
  | none => c

/-- A change of mode that is accepted, confirmed or ended enters the journal (R306, R307). -/
def Chip.mcJournal (old c : Chip) (tb : TimeBase) : Chip :=
  let w := c.reg TICK.MC_STAT
  let tell := fun (st : Nat) (x : ModeChange) =>
    c.journal (.mode st x.target x.tick.toNat x.ann x.four (fld w 27 24) (fld w 20 16) (fld w 11 8))
  match old.tg.change, c.tg.change with
  | none, some x => tell 0 x
  | some x, none => tell 2 x
  | some y, some x => if x.confirmed && !y.confirmed then tell 1 x else c
  | none, none => c

/-- A write of `TICK.MC_CTRL`. -/
def Chip.writeMcCtrl (c : Chip) (tb : TimeBase) (v : Word) : Chip :=
  let c := (c.setF TICK.MC_CTRL 20 16 (fld v 20 16)).setF TICK.MC_CTRL 2 0 (fld v 2 0)
  let d := if bit v 30 then c.mcAbort else c
  let d := if bit v 30 then Chip.mcJournal c d tb else d
  let e := if bit v 31 then d.mcGo else d
  if bit v 31 && d.tg.change.isNone then Chip.mcJournal d e tb else e

/-! ### Commands -/

/-- A write of RUN = 1 with START_MODE (R90). -/
def execRunStart (p : Port) (mode : Nat) (s : State) : Res :=
  .next (s.onChip (fun c => c.gated p TICK.TICK_CTRL (fun c => c.runStart s.tb mode)))

/-- A write of RUN = 0 with START_MODE (R90). -/
def execRunStop (p : Port) (mode : Nat) (s : State) : Res :=
  .next (s.onChip (fun c => c.gated p TICK.TICK_CTRL (fun c => c.runStop mode)))

/-- A write of the TICK_NO pair, low word first: it ends the low word that the port held (R51, R90). -/
def execTickNoWrite (p : Port) (v : DWord) (s : State) : Res :=
  .next (s.onChip (fun c => c.gated p TICK.TICK_NO_HI (fun c =>
    (c.modPort p (fun t => { t with held := none })).writeTickNo v.toNat)))

/-- A write to word `i` of mode set `m` (R89). -/
def execModeSetWrite (p : Port) (m j : Nat) (v : Word) (s : State) : Res :=
  .next (s.onChip (fun c => c.gated p (0x1100 + 0x20 * m + 4 * j) (fun c => c.writeMode m j v)))

/-- A write of `MC_CTRL` with GO = 1, of the given TARGET and ANN (R306). -/
def execMcGo (p : Port) (target ann : Nat) (s : State) : Res :=
  .next (s.onChip (fun c => c.gated p TICK.MC_CTRL (fun c =>
    c.writeMcCtrl s.tb (BitVec.ofNat 32 (2 ^ 31 + ann * 2 ^ 16 + target)))))

/-- A write of `MC_CTRL` with ABORT = 1 (R310). -/
def execMcAbort (p : Port) (target ann : Nat) (s : State) : Res :=
  .next (s.onChip (fun c => c.gated p TICK.MC_CTRL (fun c =>
    c.writeMcCtrl s.tb (BitVec.ofNat 32 (2 ^ 30 + ann * 2 ^ 16 + target)))))

end Sys2Proof.Machine
end

