-- ==== Sys2Proof/Machine/Frames.lean ====
section
/-!
DEFINITION. Belsy frames: the envelope (R261, R262), the header and its checks (R264 to R267), the records of a Gather
(R268), and what the ports do with a frame they send or receive (R82, R341).
-/

namespace Sys2Proof.Machine

/-- `n` bytes at offset `o`. -/
def sl (l : List Byte) (o n : Nat) : List Byte := (l.drop o).take n

/-- Bits `hi` to `lo` of a number. -/
def nf (v hi lo : Nat) : Nat := v / 2 ^ lo % 2 ^ (hi + 1 - lo)

/-- The 40-bit unit ID (R449). -/
def Chip.unitId (c : Chip) : Nat := c.pair KTL.UNIT_ID_LO KTL.UNIT_ID_HI

/-- EtherType in force (R261). -/
def Chip.etype (c : Chip) : Nat := c.rf (SEG.BELSY_CFG 0) 15 0

/-- A FAST_NS stamp of the recent past in line nanoseconds: both come from one clock (R301). -/
def TimeBase.lnsOf (tb : TimeBase) (stamp : Word) : Nat := (tb.lns + 2 ^ 32 - (tb.fast - stamp).toNat) % 2 ^ 32

/-- Line nanoseconds of the recent past converted to FAST_NS (R301). -/
def TimeBase.fastOf (tb : TimeBase) (l : Nat) : Word := tb.fast - BitVec.ofNat 32 (tb.lns + 2 ^ 32 - l % 2 ^ 32)

/-! ### Reading a frame -/

def fDst (l : List Byte) : List Byte := l.take 6
def fSrc (l : List Byte) : List Byte := sl l 6 6
def fEtype (l : List Byte) : Nat := be l 12 2
def fVer (l : List Byte) : Nat := nf (be l 14 1) 7 4
def fType (l : List Byte) : Nat := nf (be l 14 1) 3 0
def fSeg (l : List Byte) : Nat := nf (be l 15 1) 7 4
def fMca (l : List Byte) : Bool := decide (nf (be l 15 1) 3 3 = 1)
def fMode (l : List Byte) : Nat := nf (be l 15 1) 2 0
def fTenure (l : List Byte) : Nat := be l 16 2
def fTick (l : List Byte) : Nat := be l 18 4
def fTxt (l : List Byte) : Nat := be l 22 4
def fPlen (l : List Byte) : Nat := be l 26 2
/-- HCHK is correct (R266). -/
def fHchk (l : List Byte) : Bool := decide (be l 28 2 = crc16 (sl l 14 14) ∧ 30 ≤ l.length)
def fPay (l : List Byte) : List Byte := sl l 30 (fPlen l)

/-- The unit ID in the source address of a frame that a chip originates. -/
def fUnit (l : List Byte) : Nat := ofBE ((fSrc l).drop 1)

/-- The destination address of a segment (R261). -/
def segDst (g : Nat) : List Byte := [0x03#8, 0x4C#8, 0x59#8, 0x00#8, 0x00#8, BitVec.ofNat 8 g]

/-- The header of a frame is valid at a receiver on segment `g` (R267), with the lengths of Table 12.1. -/
def Chip.hdrOk (c : Chip) (g : Nat) (l : List Byte) : Bool :=
  decide (fDst l = segDst g ∧ fEtype l = c.etype ∧ fVer l = 1 ∧ 1 ≤ fType l ∧ fType l ≤ 7 ∧ fSeg l = g) && fHchk l
    && decide ((30 ≤ fPlen l ∧ fPlen l + 30 = l.length ∧ l.length ≤ 1518) ∨ (fPlen l < 30 ∧ l.length = 60))

/-- A frame is valid (R267). -/
def Chip.frameOk (c : Chip) (g : Nat) (f : RxFrame) : Bool := c.hdrOk g f.bytes && f.fcsOk

/-- A cut frame: HCHK is correct and the frame is shorter than its PLEN requires (R303). -/
def fCut (l : List Byte) : Bool := fHchk l && decide (l.length < fPlen l + 30)

/-- The types of frame that a head originates and whose tenure counts (R283, R363). -/
def headType (t : Nat) : Bool := decide (t = 1 ∨ t = 2 ∨ t = 3 ∨ t = 6 ∨ t = 7)

/-- A frame of the five types that a head originated: SERVICE and CONFIG frames with UP = 1 come from nodes (R284). -/
def fromHead (l : List Byte) : Bool :=
  headType (fType l) && !(decide (fType l = 3 ∨ fType l = 6) && decide (nf (be l 31 1) 0 0 = 1))

/-! ### Building a frame -/

/-- A frame of type `type` on segment `g`, padded, without its FCS (R261 to R266).  Nothing of it is cut. -/
def Chip.frame (c : Chip) (tb : TimeBase) (g type tenure mode : Nat) (mca : Bool) (tick : Nat) (pay : List Byte) : List Byte :=
  let h := [BitVec.ofNat 8 (16 + type), BitVec.ofNat 8 (16 * g + 8 * b2n mca + mode)] ++ beBytes 2 tenure ++ beBytes 4 tick
    ++ beBytes 4 tb.lns ++ beBytes 2 pay.length
  segDst g ++ [0x02#8] ++ beBytes 5 c.unitId ++ beBytes 2 c.etype ++ h ++ beBytes 2 (crc16 h) ++ pay
    ++ List.replicate (30 - pay.length) 0#8

/-- A frame that the head originates on segment `g`. -/
def Chip.headFrame (c : Chip) (tb : TimeBase) (g type : Nat) (pay : List Byte) : List Byte :=
  c.frame tb g type c.tenure c.tg.mode (decide (type = 1) && (c.seg g).mca) (c.tickNo % 2 ^ 32) pay

/-- Nanoseconds that a frame holds its port from its start of frame on: the bytes after the delimiter with the FCS, the next preamble
and the gap of 12 bytes. -/
def Chip.wireNs (c : Chip) (port : Nat) (l : List Byte) : Nat := (if c.slowSeg (port / 2) then 80 else 8) * (l.length + 24)

/-- Nanoseconds until a port that another frame holds is free. -/
def Chip.txWait (c : Chip) (tb : TimeBase) (port : Nat) : Nat := (c.lp port).txEnd - tb.ext

/-- FAST_NS at which a frame that is sent now on a port starts. -/
def Chip.txStart (c : Chip) (tb : TimeBase) (port : Nat) : Word := tb.fast + BitVec.ofNat 32 (c.txWait tb port)

/-- A frame that starts `d` nanoseconds later than it was built for: TXT, and HCHK with it (R265, R266). -/
def retime (d : Nat) (l : List Byte) : List Byte :=
  if d = 0 then l
  else
    let h := sl l 14 8 ++ beBytes 4 ((be l 22 4 + d) % 2 ^ 32) ++ sl l 26 2
    l.take 14 ++ h ++ beBytes 2 (crc16 h) ++ l.drop 30

/-- A port sends a frame: it needs link (R333), and starts once the frame before it has left; its start is stamped (R82, R83). -/
def Chip.sendFrame (c : Chip) (tb : TimeBase) (port : Nat) (l : List Byte) : Chip :=
  if c.hasLink port then
    let d := c.txWait tb port
    ((((c.emit (.frame port true (retime d l))).setReg (LP.TX_SOF port) (c.txStart tb port)).bump (LP.TX_FRAMES port)).perf 0x91 1).modLp port
      (fun t => { t with txEnd := tb.ext + d + c.wireNs port l })
  else c

/-- A timed frame that is to start within the next `w` nanoseconds (R94): a port that another frame holds until then drops it, which
counts in LAUNCH_LATE (R95). -/
def Chip.sendTimed (c : Chip) (tb : TimeBase) (w port : Nat) (l : List Byte) : Chip :=
  if c.hasLink port && decide (tb.ext + w ≤ (c.lp port).txEnd) then c.trouble (SEG.LAUNCH_LATE (port / 2)) else c.sendFrame tb port l

/-- A frame sent on both ports of a segment. -/
def Chip.sendBoth (c : Chip) (tb : TimeBase) (g : Nat) (l : List Byte) : Chip :=
  (c.sendFrame tb (2 * g) l).sendFrame tb (2 * g + 1) l

/-- The stamps of a received frame: this instant is the end of its FCS (R82). -/
def Chip.rxStamp (c : Chip) (tb : TimeBase) (port : Nat) (sof : Word) : Chip :=
  (c.setReg (LP.RX_SOF port) sof).setReg (LP.RX_EOF port) tb.fast

/-- What a port records of every Belsy frame that it receives (R82, R341). -/
def Chip.rxCount (c : Chip) (tb : TimeBase) (port : Nat) (f : RxFrame) : Chip :=
  let c := c.rxStamp tb port f.sof
  if c.frameOk (port / 2) f then (c.bump (LP.RX_FRAMES port)).perf 0x92 1
  else c.when (!f.fcsOk) (fun c => c.trouble (LP.RX_FCS port))

/-- The tenure of the head that a chip which is not head has latched (R362). -/
def Chip.tenureRet (c : Chip) : Nat := c.rf STBY.TEN 31 16

/-- Hold a tenure. -/
def Chip.holdTenure (c : Chip) (t : Nat) : Chip :=
  (c.setF STBY.TEN 15 0 t).setF STBY.TEN 31 16 (max t c.tenureRet)

/-- Latch a tenure seen from a head, if it is higher (R362). -/
def Chip.latchTenure (c : Chip) (t : Nat) : Chip := if c.tenure < t then c.holdTenure t else c

/-- The tenure of a valid frame of the five types: the highest since reset is kept (R322), and a chip that is not head latches that of
another chip's frame (R362). -/
def Chip.rxTenure (c : Chip) (l : List Byte) : Chip :=
  if headType (fType l) then
    let c := c.modStby (fun t => { t with seen := max t.seen (fTenure l) })
    if fromHead l && decide (fUnit l ≠ c.unitId) && !c.isHead then c.latchTenure (fTenure l) else c
  else c

/-- The frame is discarded by the port for its EtherType or its length (R330). -/
def Chip.rxAlien (c : Chip) (f : RxFrame) : Bool := decide (fEtype f.bytes ≠ c.etype ∨ 1518 < f.bytes.length)

/-- A port receives a frame; a port without link receives nothing (R333).  What it discards under R330 counts there. -/
def Chip.rxFrame (c : Chip) (tb : TimeBase) (port : Nat) (f : RxFrame) : Chip :=
  if !c.hasLink port then c
  else if c.rxAlien f then
    let d := c.rxStamp tb port f.sof
    let d := d.when (decide (fEtype f.bytes ≠ c.etype)) (fun c => c.trouble (LP.RX_OTHER port))
    d.when (decide (1518 < f.bytes.length)) (fun c => c.trouble (LP.RX_ABORT port))
  else
    let d := c.rxCount tb port f
    if c.frameOk (port / 2) f then d.rxTenure f.bytes else d

/-- The port goes on with a received frame: it has link and has not discarded it. -/
def Chip.rxTaken (c : Chip) (port : Nat) (f : RxFrame) : Bool := c.hasLink port && !c.rxAlien f

/-- A head counts a frame that it discards for its header or its FCS (R267). -/
def Chip.badFrame (c : Chip) (g : Nat) (f : RxFrame) : Chip :=
  if !c.hdrOk g f.bytes then c.trouble (SEG.HDR_ERR g)
  else if !f.fcsOk then c.trouble (SEG.FCS_ERR g)
  else c

/-- A frame reaches a port: the port's counts and stamps, and on a head the counts of R267. -/
def Chip.rxHead (c : Chip) (tb : TimeBase) (port : Nat) (f : RxFrame) : Chip :=
  (c.rxFrame tb port f).when (c.rxTaken port f && c.isHead) (fun c => c.badFrame (port / 2) f)

/-! ### Nodes and axes of a segment -/

/-- The enabled axes of node `k` of segment `g`, in ascending IDX (R268). -/
def Chip.nodeAxes (c : Chip) (g k : Nat) : List Nat :=
  let mine := c.enAxes.filter (fun a => decide (c.axSeg a = g ∧ c.axNode a = k))
  (List.range 4).flatMap (fun i => mine.filter (fun a => decide (c.axIdx a = i)))

/-- The enabled axes of a segment, ascending. -/
def Chip.segAxes (c : Chip) (g : Nat) : List Nat := c.enAxes.filter (fun a => decide (c.axSeg a = g))

/-- The record nodes of segment `g`, ascending. -/
def Chip.recNodes (c : Chip) (g : Nat) : List Nat := (List.range 17).filter (fun k => !(c.nodeAxes g k).isEmpty)

/-- Offset of node `k` in a payload whose node records have `h` header bytes and `r` bytes for each axis (R268, R277). -/
def Chip.recOfs (c : Chip) (g h r k : Nat) : Nat :=
  (((c.recNodes g).filter (fun j => decide (j < k))).map (fun j => h + r * (c.nodeAxes g j).length)).foldl (· + ·) 0

/-- The record of node `k` in a Gather payload (R268). -/
def Chip.nodeRec (c : Chip) (g : Nat) (pay : List Byte) (k : Nat) : NodeRec :=
  let o := c.recOfs g 8 12 k
  ⟨k, padTo 8 (sl pay o 8), (List.range (c.nodeAxes g k).length).map (fun i => padTo 12 (sl pay (o + 8 + 12 * i) 12))⟩

/-- STATUS of a node header (Table 10.4). -/
def hStatus (h : List Byte) : Nat := be h 0 2
/-- A record is written (R274). -/
def NodeRec.written (r : NodeRec) : Bool := decide (nf (hStatus r.hdr) 15 15 = 1)

/-- Node `k` of segment `g` is ADMITTED, REFUSED or DRIFT (R324, R304). -/
def Chip.admitted (c : Chip) (g k : Nat) : Bool := c.rb (SEG.NODE_ADMIT g) k
def Chip.nodeRefused (c : Chip) (g k : Nat) : Bool := c.rb (SEG.NODE_REFUSED g) k
def Chip.drifting (c : Chip) (g k : Nat) : Bool := c.rb (SEG.NODE_DRIFT g) k

/-- Refusal reason of a node (Table 11.7). -/
def Chip.setRefuse (c : Chip) (g k v : Nat) : Chip :=
  c.setF (SEG.REFUSE g ((k - 1) / 8)) (4 * ((k - 1) % 8) + 3) (4 * ((k - 1) % 8)) v

/-! ### Instants of a segment (Tables 1.3 and 11.4) -/

/-- FAST_NS less the T0 of the segment's tick or segment cycle. -/
def Chip.segOfs (c : Chip) (tb : TimeBase) (g : Nat) : Nat := (tb.fast - (c.seg g).t0).toNat

/-- GATHER_LATE, POUR_CLOSE and the first slot of the segment, from its T0. -/
def Chip.segLate (c : Chip) (g : Nat) : Nat := c.gatherLate + (if c.cyc4 g then c.period else 0)
def Chip.segClose (c : Chip) (g : Nat) : Nat := c.pourClose + (if c.cyc4 g then c.period else 0)
def Chip.segSvc (c : Chip) (g : Nat) : Nat := c.svcOpen + (if c.cyc4 g then 2 * c.period else 0)
/-- Length of a Service slot of the segment. -/
def Chip.segSlot (c : Chip) (g : Nat) : Nat := if c.cyc4 g then 8 * c.svcSlot else c.svcSlot

/-- The segment is still in tick `k` of its segment cycle, or in its tick (R311): what belongs to a tick of the cycle that a new head did
not begin is left out. -/
def Chip.inTick (c : Chip) (tb : TimeBase) (g k : Nat) : Bool :=
  decide (c.segOfs tb g < (if c.cyc4 g then k + 1 else 1) * c.period)

/-- The on-time cut (R26). -/
def Chip.segCut (c : Chip) (g : Nat) : Nat := c.segClose g - 64

/-- The longest Service payload (R38, R263, R312); 0 where no frame fits a slot. -/
def Chip.pMax (c : Chip) (g : Nat) : Nat :=
  if c.cyc4 g then (if c.svcSlot < 760 then 0 else min 128 ((8 * c.svcSlot - 296) / 80 - 42))
  else if c.svcSlot < 872 then 0 else min 128 ((c.svcSlot - 296) / 8 - 42)

/-! ### Announcements of a mode change -/

/-- The decision tick of a change (R307). -/
def ModeChange.decision (x : ModeChange) : Nat := x.tick.toNat - (if x.four then 4 else 1)

/-- The Gather of tick `t` carries MCA = 1 (R307). -/
def Chip.mcaAt (c : Chip) (t : Nat) : Bool :=
  match c.tg.change with
  | some x => decide (x.tick.toNat ≤ t + x.ann ∧ t < x.tick.toNat) && (decide (t < x.decision) || x.confirmed)
  | none => false

/-- Number of a segment's tick, or of its segment cycle (R297, R311). -/
def Chip.segNo (c : Chip) (g : Nat) : Nat :=
  let t := (c.seg g).tick.toNat
  if c.cyc4 g then t / 4 % 2 ^ 32 else t

/-- The tick or segment cycle is a beacon, and the first or second of a delay round (R298). -/
def Chip.isBeacon (c : Chip) (g : Nat) : Bool :=
  if c.cyc4 g then decide (c.segNo g % 256 = 253) else decide (c.segNo g % 1024 = 1020)
def Chip.isDelay1 (c : Chip) (g : Nat) : Bool :=
  if c.cyc4 g then decide (c.segNo g % 256 = 254) else decide (c.segNo g % 1024 = 1022)
def Chip.isDelay2 (c : Chip) (g : Nat) : Bool :=
  if c.cyc4 g then decide (c.segNo g % 256 = 255) else decide (c.segNo g % 1024 = 1023)

/-- A quiet tick or segment cycle (R298). -/
def Chip.isQuiet (c : Chip) (g : Nat) : Bool := c.isBeacon g || c.isDelay1 g || c.isDelay2 g || (c.seg g).mca

/-- Owner of Service slot `j` of the segment's tick, 0 for none (R297, R298). -/
def Chip.slotOwner (c : Chip) (g j : Nat) : Nat :=
  if c.isQuiet g then 0 else c.ownEntry g c.tg.mode ((c.svcCount * c.segNo g + j) % 32) % 32

/-- The head acts on segment `g`: it is HEAD, not deposed, and the segment's tick or cycle has begun. -/
def Chip.headOn (c : Chip) (g : Nat) : Bool := c.isHead && !c.stby.deposed && c.segRun g && (c.seg g).active

end Sys2Proof.Machine
end

