-- ==== Sys2Proof/Machine/Line.lean ====
section
/-!
DEFINITION. The Gather (R20 to R25, R274 to R276), the cups it makes ready (R156), the Pour (R27 to R31, R277, R278) and
the clear of FS (R278).
-/

namespace Sys2Proof.Machine

/-! ### FS and the head's faults -/

/-- AXIS.STAT.FS is set (R30, R276) at an instant, without wraps, or on a standby by the RELAY of a number (R278). -/
def Chip.setFs (c : Chip) (t : Nat) (msg : Option Nat) (a : Nat) : Chip :=
  (c.setF (AXIS.STAT a) 31 31 1).modAx a (fun x => { x with fsAt := t, fsMsg := msg })

/-- The instant of a FAST_NS stamp that is near, without wraps. -/
def TimeBase.extOf (tb : TimeBase) (f : Word) : Nat := ((tb.ext : Int) + diff32 f tb.fast).toNat

/-! ### Launch of the Gather -/

/-- Length of the Gather payload of a segment (Table 10.2). -/
def Chip.gatherLen (c : Chip) (g : Nat) : Nat := c.recOfs g 8 12 17

/-- The head launches the Gather of segment `g` on both ports (R20). -/
def Chip.gatherLaunch (c : Chip) (tb : TimeBase) (g : Nat) : Chip :=
  if c.headOn g && !(c.seg g).launched && decide (c.gatherOfs ≤ c.segOfs tb g) && c.inTick tb g 0 then
    let c := c.modSeg g (fun s => { s with launched := true, mca := c.mcaAt s.tick.toNat })
    let l := c.headFrame tb g 1 (List.replicate (c.gatherLen g) 0#8)
    let c := c.when (c.hasLink (2 * g)) (fun c => c.setReg (SEG.GA_TX g) (c.txStart tb (2 * g)))
    let c := c.when (c.hasLink (2 * g + 1)) (fun c => c.setReg (SEG.GB_TX g) (c.txStart tb (2 * g + 1)))
    c.sendBoth tb g l
  else c

/-! ### The returning copies -/

/-- The written records of a Gather payload. -/
def Chip.writtenRecs (c : Chip) (g : Nat) (pay : List Byte) : List NodeRec :=
  ((c.recNodes g).map (c.nodeRec g pay)).filter NodeRec.written

/-- Written records of one node differ between the two payloads (R274). -/
def Chip.gatherDiffers (c : Chip) (g : Nat) (p q : List Byte) : Bool :=
  (c.writtenRecs g p).any (fun x => (c.writtenRecs g q).any (fun y => decide (x.node = y.node) && !decide (x = y)))

/-- A returning copy satisfies R21. -/
def Chip.copyOk (c : Chip) (tb : TimeBase) (g : Nat) (f : RxFrame) : Bool :=
  (c.seg g).launched && c.frameOk g f && decide (fType f.bytes = 1 ∧ fTenure f.bytes = c.tenure ∧ fTick f.bytes = (c.seg g).tick.toNat % 2 ^ 32) &&
  decide (c.gatherOfs ≤ c.segOfs tb g ∧ c.segOfs tb g < c.segLate g)

/-- The A copy becomes known unusable (R22). -/
def Chip.aUnusable (c : Chip) (tb : TimeBase) (g : Nat) : Chip :=
  c.modSeg g (fun s => if s.aBad.isSome then s else { s with aBad := some tb.fast })

/-- The copy of a name that has been received. -/
def Seg.copyOf (s : Seg) (copyB : Bool) : Option GCopy := if copyB then s.copyB else s.copyA

/-- A valid copy of a name has been received. -/
def Seg.hasCopy (s : Seg) (copyB : Bool) : Bool := match s.copyOf copyB with | some x => x.ok | none => false

/-- A copy of the Gather returns on a port of its segment (R21, R22): this instant is the end of its FCS, or, for a copy whose header
check fails, that earlier instant.  A copy of another tick, or a second one of its name, is discarded and tells nothing of the
copy that is awaited; one with a wrong header or FCS is the copy of its name, found invalid (DEDUCED, log 63), and so is one of this tick
that ends at GATHER_LATE or later. -/
def Chip.copyReceive (c : Chip) (tb : TimeBase) (port : Nat) (copyB : Bool) (f : RxFrame) : Chip :=
  let g := port / 2
  let c := c.rxHead tb port f
  if !c.rxTaken port f || !c.headOn g then c
  else
    let c := c.setReg (if copyB then SEG.GB_END g else SEG.GA_END g) tb.fast
    let ok := c.copyOk tb g f && !(c.seg g).hasCopy copyB
    let mine := decide (fType f.bytes = 1 ∧ fTenure f.bytes = c.tenure ∧ fTick f.bytes = (c.seg g).tick.toNat % 2 ^ 32)
    let bad := (!c.frameOk g f || (mine && decide (c.segLate g ≤ c.segOfs tb g))) && (c.seg g).launched && ((c.seg g).copyOf copyB).isNone
    let copy : GCopy := ⟨ok, fPay f.bytes, tb.fast⟩
    let c := if ok then c else c.trouble (SEG.GATHER_DROP g)
    let c := if ok || bad then
        c.modSeg g (fun s => if copyB then { s with copyB := some copy } else { s with copyA := some copy })
      else c
    let c := if !copyB && bad then c.aUnusable tb g else c
    -- the port on which the A copy would return has no link already at the B copy's completion
    let c := if copyB && ok && !c.hasLink (2 * g + 1) && (c.seg g).copyA.isNone then c.aUnusable tb g else c
    match (c.seg g).copyA, (c.seg g).copyB with
    | some a, some b =>
      if ok && a.ok && b.ok && c.gatherDiffers g a.payload b.payload then c.trouble (SEG.GATHER_DIFF g) else c
    | _, _ => c

/-- 512 ns have passed since a valid B copy completed and the A copy has not (R22).  The A copy is then given up for every node, those
whose records the B copy lacks among them (DESIGN CHOICE, log 21: R22 and R274 leave it open). -/
def Chip.copyTimeout (c : Chip) (tb : TimeBase) (g : Nat) : Chip :=
  match (c.seg g).copyA, (c.seg g).copyB with
  | none, some b => if c.headOn g && b.ok && decide (512 ≤ (tb.fast - b.fin).toNat) then c.aUnusable tb g else c
  | _, _ => c

/-! ### The Gather return -/

/-- The B copy may serve as inputs: it is valid. -/
def Seg.useB (s : Seg) : Option (List Byte) :=
  match s.copyB with | some x => if x.ok then some x.payload else none | none => none

/-- The A copy may serve as inputs: it is valid, and not known unusable beside a valid B copy (R22). -/
def Seg.useA (s : Seg) : Option (List Byte) :=
  match s.copyA with | some x => if x.ok && (s.aBad.isNone || s.useB.isNone) then some x.payload else none | none => none

/-- The record taken from node `k`, with whether it came from the B copy (R274): only ADMITTED nodes count (R325). -/
def Chip.takenRec (c : Chip) (g k : Nat) : Option (NodeRec × Bool) :=
  if !c.admitted g k then none
  else
    let at' := fun p : Option (List Byte) => match p with
      | some l => let r := c.nodeRec g l k; if r.written then some r else none
      | none => none
    match at' (c.seg g).useA with
    | some r => some (r, false)
    | none => match at' (c.seg g).useB with
      | some r => some (r, true)
      | none => none

/-- Every admitted record node has its record in the A copy. -/
def Chip.aComplete (c : Chip) (g : Nat) : Bool :=
  match (c.seg g).useA with
  | some l => (c.recNodes g).all (fun k => !c.admitted g k || (c.nodeRec g l k).written)
  | none => false

/-- The head may accept the inputs of segment `g` now (R22, R23): it has a usable A copy that is whole, or the other copy is
known, cannot come or GATHER_LATE has come; or a valid B copy with the A copy known unusable. -/
def Chip.returnReady (c : Chip) (tb : TimeBase) (g : Nat) : Bool :=
  let s := c.seg g
  if s.useA.isSome then
    c.aComplete g || s.copyB.isSome || !c.hasLink (2 * g) || decide (c.segLate g ≤ c.segOfs tb g)
  else s.useB.isSome && s.aBad.isSome

/-- A field of the node header feeds a register with one bit for each node. -/
def Chip.nodeBit (c : Chip) (a k : Nat) (v : Bool) : Chip := c.setF a k k (b2n v)

/-- ARM_WIN of a takeover holds (R358). -/
def Chip.arming (c : Chip) : Bool := decide (c.tickNo < c.stby.armUntil.toNat)

/-- AFS bits newly reported set FS (R276). -/
def Chip.afsReport (c : Chip) (tb : TimeBase) (g k : Nat) (old : List Byte) (oldMiss : Bool) (hdr : List Byte) : Chip :=
  if c.arming then c
  else
    let was := if oldMiss then 0 else nf (hStatus old) 3 0
    (c.nodeAxes g k).foldl (fun (c : Chip) (a : Nat) =>
      if (nf (hStatus hdr) 3 0).testBit (c.axIdx a) && !was.testBit (c.axIdx a) then (c.setFs tb.ext (if c.isStandby then c.stby.rxSeqs.head? else none) a).evt (pgSeg g) 2
      else c) c

/-- A record is taken (R276): what the head does with its node header and axis records. -/
def Chip.takeRec (c : Chip) (tb : TimeBase) (g : Nat) (r : NodeRec) (fromB : Bool) : Chip :=
  let k := r.node
  let n := c.node g k
  let st := hStatus r.hdr
  let alarm := be r.hdr 6 2
  let oldAlarm := be n.hdr 6 2
  let c := c.afsReport tb g k n.hdr (n.missPrev || n.hdr.isEmpty) r.hdr
  let c := c.nodeBit (SEG.NODE_AFS g) k (decide (nf st 3 0 ≠ 0))
  let c := c.when (decide (nf st 10 10 = 1)) (fun c => c.trouble (SEG.LATE_APPLY g))
  let c := c.nodeBit (SEG.NODE_ALARM g) k (decide (alarm ≠ 0))
  let c := c.when (decide (alarm ≠ 0 ∧ oldAlarm = 0)) (fun c => c.evt (pgSeg g) 3)
  let c := c.nodeBit (SEG.NODE_SYNC g) k (decide (nf st 14 14 = 1))
  let c := c.nodeBit (SEG.NODE_PRESENT g) k true
  let c := c.modNode g k (fun n => { n with hdr := r.hdr, missRun := 0, missPrev := false })
  ((c.nodeAxes g k).zip r.recs).foldl (fun (c : Chip) (e : Nat × List Byte) =>
    c.modAx e.1 (fun x => { x with record := e.2, stale := false, fromB := fromB })) c

/-- A record node is missing for the tick (R275). -/
def Chip.missNode (c : Chip) (g k : Nat) : Chip :=
  let c := ((c.trouble (SEG.NODE_MISS g (k - 1))).evt (pgSeg g) 1).nodeBit (SEG.NODE_PRESENT g) k false
  let c := c.modNode g k (fun n => { n with missPrev := true, missRun := if c.admitted g k then n.missRun + 1 else 0 })
  (c.nodeAxes g k).foldl (fun (c : Chip) (a : Nat) => c.modAx a (fun x => { x with stale := true })) c

/-- The home Pot of an axis is OFF, or in QUAR with cause SMEM_UE: the axis is orphaned (R156). -/
def Chip.homeLost (c : Chip) (a : Nat) : Bool :=
  let t := c.pot (c.axHome a)
  decide (t.state = 0 ∨ (t.state = 2 ∧ t.qcause = 3))

/-- The status bit ORPHAN as a Gather return finds it: an axis that lost its state stays orphaned (R179), and one whose
Pot was OFF is orphaned only while it is. -/
def Chip.orphanNow (c : Chip) (a : Nat) : Chip :=
  let o := (c.ax a).lost || c.homeLost a
  let c := c.when (o && !c.axOrphan a) (fun c => c.evt (pgPot (c.axHome a)) 3)
  c.setF (AXIS.STAT a) 29 29 (b2n o)

/-- The chip runs cups of the axis: a standby runs those of axes whose blocks it has (R352, R353). -/
def Chip.runsCups (c : Chip) (a : Nat) : Bool :=
  !c.isStandby || decide (c.stby.sstate = 2) ||
  (decide (c.stby.sstate = 1 ∧ 2 ≤ c.rf STBY.CATCH 31 28 ∧ c.rf STBY.CATCH 31 28 ≤ 3) && c.stby.caught.contains a)

/-- One axis's cup at a Gather return (R156). -/
def Chip.appendCup (c : Chip) (tb : TimeBase) (g a : Nat) (hdr : List Byte) : Chip :=
  let c := c.orphanNow a
  if c.axStalled a || c.axOrphan a || !c.runsCups a then c
  else
    let x := c.ax a
    let s := c.seg g
    let (c, q) := c.nextCupSeq
    let cup : Cup := ⟨a, g, c.axHome a, c.axHome a, c.rf (AXIS.LMODE a) 1 0, s.tick, .plain, tb.fast, s.t0, c.segCut g, x.fromB, hdr,
      x.record, x.sec, q⟩
    (c.enqueue (c.axHome a) cup).modSeg g (fun s => { s with waiting := s.waiting ++ [a] })

/-- The cups of a segment become ready (R156), in ascending axis number, for the axes of the nodes in `recs`. -/
def Chip.readyCups (c : Chip) (tb : TimeBase) (g : Nat) (recs : List NodeRec) : Chip :=
  let c := (c.segAxes g).foldl (fun (c : Chip) (a : Nat) =>
    match recs.find? (fun r => decide (r.node = c.axNode a)) with
    | some r => c.appendCup tb g a r.hdr
    | none => c) c
  (c.perf 0x84 (c.seg g).waiting.length).noLeaf

/-- The inputs of a segment are taken: `recs` with the mask of nodes whose records came from the B copy, every other record
node missing (R274, R275). -/
def Chip.takeInputs (c : Chip) (tb : TimeBase) (g : Nat) (recs : List NodeRec) (srcB : Nat) : Chip :=
  let c := (c.recNodes g).foldl (fun (c : Chip) (k : Nat) =>
    match recs.find? (fun r => decide (r.node = k)) with
    | some r => c.takeRec tb g r (srcB.testBit k)
    | none => c.missNode g k) c
  let anyB := recs.any (fun r => srcB.testBit r.node)
  let split := anyB && recs.any (fun r => !srcB.testBit r.node)
  let c := c.when anyB (fun c => c.bump (SEG.B_TICKS g))
  let c := c.modSeg g (fun s => { s with returned := true, retOfs := c.segOfs tb g, fromB := anyB, split := split, splitLast := split })
  (c.perf 0x82 1).readyCups tb g recs

/-- The mask of the record nodes of which no record was taken. -/
def Chip.missingMask (c : Chip) (g : Nat) (recs : List NodeRec) : Nat :=
  ((c.recNodes g).filter (fun k => !recs.any (fun r => decide (r.node = k)))).foldl (fun m k => m + 2 ^ k) 0

/-- CRC-32 of the inputs that a RELAY carries (Table 13.1), over segment, MISS, the two masks and the records in ascending node number; the order
of these bytes is not stated (DESIGN CHOICE, log 95). -/
def inputsCrc (g : Nat) (miss : Bool) (srcB missing : Nat) (recs : List NodeRec) : Word :=
  BitVec.ofNat 32 (crc32 (leBytes 1 (g + 128 * b2n miss) ++ leBytes 4 srcB ++ leBytes 4 missing ++
    recs.flatMap (fun r => leBytes 1 r.node ++ r.hdr ++ r.recs.flatten)))

/-- The head tells a paired standby what it took (R349). -/
def Chip.relaySend (c : Chip) (g : Nat) (miss : Bool) (recs : List NodeRec) (srcB : Nat) : Chip :=
  if c.isHead && c.stby.paired then
    c.linkSend (.relay g miss srcB (c.missingMask g recs) recs (inputsCrc g miss srcB (c.missingMask g recs) recs))
  else c

/-- A taken record acknowledges the downlink chunk whose SEQ its MBX_ACK shows (R285): the message goes on with the other
SEQ, or is done. -/
def Chip.mbxAck (c : Chip) (g : Nat) (r : NodeRec) : Chip :=
  let m := (c.seg g).mbx
  let seq := (c.node g r.node).dnSeq
  if c.rb (SEG.MBX_TX_STAT g) 31 && decide (c.rf (SEG.MBX_TX g) 20 16 = r.node ∧ m.chunk ≠ 0 ∧ nf (be r.hdr 5 1) 0 0 = seq) then
    let acked := c.rf (SEG.MBX_TX_STAT g) 10 0 + m.chunk
    let c := c.setF (SEG.MBX_TX_STAT g) 10 0 acked
    let c := c.modNode g r.node (fun n => { n with dnSeq := 1 - seq })
    let c := c.modSeg g (fun s => { s with mbx := { s.mbx with chunk := 0 } })
    if c.rf (SEG.MBX_TX g) 10 0 ≤ acked then
      (((c.setF (SEG.MBX_TX_STAT g) 31 31 0).raise (SEG.MBX_TX_STAT g) (oneBit 30)).setF (SEG.MBX_TX g) 31 31 0).evt (pgSeg g) 5
    else c
  else c

/-- The Gather return of segment `g` on the head (R23). -/
def Chip.gatherReturn (c : Chip) (tb : TimeBase) (g : Nat) : Chip :=
  if c.headOn g && !(c.seg g).returned && !(c.seg g).missed && c.returnReady tb g && c.inTick tb g 1 then
    let taken := (c.recNodes g).filterMap (c.takenRec g)
    let recs := taken.map (fun e => e.1)
    let srcB := taken.foldl (fun m e => if e.2 then m + 2 ^ e.1.node else m) 0
    let c := c.watchAxes tb (fun c => c.takeInputs tb g recs srcB)
    let c := recs.foldl (fun (c : Chip) (r : NodeRec) => c.mbxAck g r) c
    c.relaySend g false recs srcB
  else c

/-- A segment misses its Gather (R24). -/
def Chip.missInputs (c : Chip) (tb : TimeBase) (g : Nat) : Chip :=
  let c := (c.recNodes g).foldl (fun (c : Chip) (k : Nat) => c.missNode g k) c
  let c := ((c.trouble (SEG.GATHER_MISS g)).evt (pgSeg g) 0).modSeg g (fun s => { s with missed := true, splitLast := false })
  c.perf 0x83 1

/-- GATHER_LATE has come to a segment without a valid copy (R24). -/
def Chip.gatherMiss (c : Chip) (tb : TimeBase) (g : Nat) : Chip :=
  let s := c.seg g
  if c.headOn g && !s.returned && !s.missed && s.useA.isNone && s.useB.isNone && decide (c.segLate g ≤ c.segOfs tb g) &&
      c.inTick tb g 1 then
    (c.missInputs tb g).relaySend g true [] 0
  else c

/-! ### The Pour -/

/-- FLAGS of a Pour axis record (R278). -/
def Chip.pourFlags (c : Chip) (a : Nat) (hold : Bool) : List Byte :=
  beBytes 2 (b2n hold + 2 * b2n (!c.rb (AXIS.STAT a) 31))

/-- A record with FLAGS in its place (Table 10.7). -/
def withFlags (l fl : List Byte) : List Byte := (padTo 8 l).take 4 ++ fl ++ ((padTo 8 l).drop 6)

/-- The record of an axis with an on-time command (R161): it is sent and remembered. -/
def Chip.pourSend (c : Chip) (a : Nat) (l : List Byte) (comp : Nat) : Chip :=
  let l := withFlags l (c.pourFlags a false)
  (c.setF (AXIS.STAT a) 28 28 0).modAx a (fun x => { x with sent := l, lastCmd := l, lastComp := comp, hold := false, holdRun := 0 })

/-- The record of an axis that carries HOLD (R28, R30, R31). -/
def Chip.pourHold (c : Chip) (tb : TimeBase) (g a : Nat) : Chip :=
  let l := withFlags (c.ax a).lastCmd (c.pourFlags a true)
  let second := decide (1 ≤ (c.ax a).holdRun)
  let c := c.modAx a (fun x => { x with sent := l, hold := true, holdRun := x.holdRun + 1 })
  let c := ((c.satUp (AXIS.HOLD_CNT a)).setF (AXIS.STAT a) 28 28 1).perf 0x8A 1
  let c := c.modSeg g (fun s => { s with held := true })
  c.when second (fun c => ((c.setFs tb.ext none a).evt (axPg a) 0).evt (pgSeg g) 2)

/-- The records of the axes of a segment as they leave. -/
def Chip.pourAxes (c : Chip) (tb : TimeBase) (g : Nat) : Chip :=
  (c.segAxes g).foldl (fun (c : Chip) (a : Nat) =>
    match (c.ax a).img with
    | some (l, _, comp) => c.pourSend a l comp
    | none => c.pourHold tb g a) c

/-- NOUT of the on-time cups of some axes (Table 10.6). -/
def Chip.noutOf (c : Chip) (axes : List Nat) : Nat :=
  axes.foldl (fun m a => match (c.ax a).img with | some (_, n, _) => Nat.lor m (n % 256) | none => m) 0

/-- The node record of node `k` in the Pour payload, once the axis records stand (R277, Table 10.6). -/
def Chip.pourNode (c : Chip) (g k : Nat) : List Byte :=
  let axes := c.nodeAxes g k
  let nout := c.noutOf axes
  let comp := axes.foldl (fun m a => max m ((c.ax a).lastComp)) 0
  beBytes 2 (2 ^ 15 * (c.node g k).upAck + nout) ++ beBytes 2 comp ++ axes.flatMap (fun a => padTo 8 (c.ax a).sent)

/-- The payload of the segment's Pour. -/
def Chip.pourPay (c : Chip) (g : Nat) : List Byte := (c.recNodes g).flatMap (c.pourNode g)

/-- The head launches the Pour of segment `g` (R27, R277). -/
def Chip.pourOut (c : Chip) (tb : TimeBase) (g : Nat) (atClose : Bool) : Chip :=
  let c := c.watchAxes tb (fun c => c.pourAxes tb g)
  let c := c.modSeg g (fun s => { s with poured := true, pourOfs := c.segOfs tb g })
  let c := c.when (c.seg g).held (fun c => (c.trouble (SEG.HOLD_TICKS g)).evt (pgSeg g) 4)
  let c := c.when (c.hasLink (2 * g)) (fun c => c.setReg (SEG.POUR_TX g) (c.txStart tb (2 * g)))
  let c := c.perf (if atClose then 0x89 else 0x88) 1
  c.sendBoth tb g (c.headFrame tb g 2 (c.pourPay g))

/-- Every cup of the segment has completed on time: its Pour leaves (R27). -/
def Chip.pourReady (c : Chip) (tb : TimeBase) (g : Nat) : Bool :=
  let s := c.seg g
  c.headOn g && s.returned && !s.poured && s.waiting.isEmpty && !s.late && decide (c.segOfs tb g < c.segClose g)

/-- POUR_CLOSE of a segment has come and its Pour has not left (R27). -/
def Chip.pourDue (c : Chip) (tb : TimeBase) (g : Nat) : Bool :=
  c.headOn g && !(c.seg g).poured && decide (c.segClose g ≤ c.segOfs tb g) && c.inTick tb g 1

/-! ### Commands -/

/-- At GATHER_OFS the head launches a segment's Gather (R20). -/
def execGatherLaunch (g : Nat) (s : State) : Res := .next (s.onChip (fun c => c.gatherLaunch s.tb g))

/-- A copy returns on a port, with the end of its FCS at this instant (R21). -/
def execGatherCopyReceive (port : Nat) (copyB : Bool) (f : RxFrame) (s : State) : Res :=
  .next (s.onChip (fun c => c.copyReceive s.tb port copyB f))

/-- 512 ns after a valid B copy (R22). -/
def execACopyTimeout (g : Nat) (s : State) : Res := .next (s.onChip (fun c => c.copyTimeout s.tb g))

/-- The Gather return of a segment (R23). -/
def execGatherReturn (g : Nat) (s : State) : Res := .next (s.onChip (fun c => c.gatherReturn s.tb g))

/-- GATHER_LATE of a segment (R24). -/
def execGatherMiss (g : Nat) (s : State) : Res := .next (s.onChip (fun c => c.gatherMiss s.tb g))

/-- The Pour of a segment whose last cup has completed on time (R27). -/
def execPourLaunch (g : Nat) (s : State) : Res :=
  .next (s.onChip (fun c => if c.pourReady s.tb g then c.pourOut s.tb g false else c))

/-- POUR_CLOSE: every Pour that has not left leaves (R27). -/
def execPourClose (s : State) : Res :=
  .next (s.onChip (fun c =>
    if c.tg.running && !c.tg.poured && decide (c.pourClose ≤ c.ofs s.tb) then
      (each (List.range 16) (fun g c => if c.pourDue s.tb g then c.pourOut s.tb g true else c) c).modTg
        (fun t => { t with poured := true })
    else c))

/-- A host write of 1 to AXIS.STAT.FS (R278): the clear is captured. -/
def execFsClear (p : Port) (a : Nat) (s : State) : Res :=
  .next (s.onChip (fun c => c.gated p (AXIS.STAT a) (fun c => c.addUnit s.tb (.fsClear a) (c.dueNow s.tb) [])))

end Sys2Proof.Machine
end

