-- ==== Sys2Proof/Machine/Ports.lean ====
section
/-!
DEFINITION. Line ports (R329 to R339): link states, link quality, the cable test and the frames a port discards.
-/

namespace Sys2Proof.Machine

/-- Base address of LP page `n`. -/
def lpPg (n : Nat) : Nat := pgLp n

/-- The port group domain of a port is on: PD12 for LP0 to LP7, and so on. -/
def Chip.lpPower (c : Chip) (n : Nat) : Bool := c.domOn (12 + n / 8)

/-- A port leaves UP or IN_SERVICE (R333, R334): the A copy that would return on it is known unusable (R22). -/
def Chip.linkLost (c : Chip) (tb : TimeBase) (n to' : Nat) : Chip :=
  let old := (c.lp n).state
  let c := c.modLp n (fun l => { l with state := to', lq := 0 })
  if old = 4 ∨ old = 3 then
    let c := (c.evt (lpPg n) 1).logAdd tb 1 5 1 n
    let c := c.when (decide (old = 4) && c.segRun (n / 2)) (fun c => c.trouble (LP.LINK_DOWNS n))
    let s := c.seg (n / 2)
    c.when (decide (old = 4 ∧ n % 2 = 1) && s.launched && !s.returned && s.copyA.isNone) (fun c => c.aUnusable tb (n / 2))
  else c

/-- A port leaves its link for a cause other than a detected loss.  Whether it was receiving a frame is an input: a free value says it, and
the frame counts in RX_ABORT (R333, DESIGN CHOICE, log 65). -/
def Chip.linkDrop (c : Chip) (tb : TimeBase) (n to' : Nat) : Chip :=
  let d := if c.hasLink n then
      Chip.when { c with free := c.free + 1 } (Config.freeBit c.free) (fun c => c.trouble (LP.RX_ABORT n))
    else c
  d.linkLost tb n to'

/-- What a port that is powered and not in a cable test does with EN, SPEED, ROLE and TEST in force (Table 12.3, R335);
`again` says that SPEED or ROLE has changed. -/
def Chip.portSet (c : Chip) (tb : TimeBase) (n : Nat) (again : Bool) : Chip :=
  let st := (c.lp n).state
  let test := c.rf (LP.LP_CFG n) 2 0
  if st = 0 ∨ st = 6 then c
  else if !c.en (lpPg n) then (if st = 1 then c else c.linkDrop tb n 1)
  else if test ≠ 0 then (if st = 5 then c else c.linkDrop tb n 5)
  else if st = 1 ∨ st = 5 ∨ again then c.linkDrop tb n 2
  else c

/-- The line PHYs have their supplies and PLL3 its lock (R474, R479). -/
def Chip.phyOk (c : Chip) : Bool := !(c.rst.lost.contains 1 || c.rst.lost.contains 2 || c.rst.unlocked.contains 3)

/-- LQ of a port in link takes a value (R336): below LQ_MIN where it was not, it sets LQ_LOW; in service it enters LQ_LOWEST. -/
def Chip.setLq (c : Chip) (tb : TimeBase) (n lq : Nat) : Chip :=
  let min' := c.rf (LP.LQ_CFG n) 2 0
  let was := (c.lp n).lq
  let c := c.when (decide (lq < min' ∧ ¬ (1 ≤ was ∧ was < min'))) (fun c => (c.evt (lpPg n) 3).logAdd tb 1 5 2 (256 * n + lq))
  let c := c.modLp n (fun l => { l with lq := lq })
  c.when (c.hasLink n && decide (lq < c.rf (LP.LQ_LOWEST n) 2 0)) (fun c => c.setF (LP.LQ_LOWEST n) 2 0 lq)

/-- The link of a training port comes up (R333).  Its margin before the first update is an input: LQ begins at a free value of its range
(R336, DESIGN CHOICE, log 65). -/
def Chip.linkUp (c : Chip) (tb : TimeBase) (n : Nat) : Chip :=
  if (c.lp n).state = 2 ∧ c.phyOk then
    let d := ((c.modLp n (fun l => { l with state := 3, upAt := tb.cycle, lq := 0 })).setReg (LP.LINK_AT n) tb.fast).evt (lpPg n) 0
    Chip.setLq { d with free := c.free + 1 } tb n ((Config.freeWord c.free).toNat % 7 + 1)
  else c

/-- The link has been up for 1 ms at the latest T0, or now while no tick runs (R333). -/
def Chip.serviceDue (c : Chip) (tb : TimeBase) (n : Nat) : Bool :=
  decide ((c.lp n).state = 3 ∧ (c.lp n).upAt + 1000000 ≤ (if c.tg.running then c.tg.t0Cycle else tb.cycle))

/-- LQ from the margin, given as floor(M / 2 dB) (R336). -/
def lqOf (m : Int) : Nat := (clampI 1 7 (m + 4)).toNat

/-- The 1 ms update of LQ and of the counts of the receiver (R336). -/
def Chip.lqUpdate (c : Chip) (tb : TimeBase) (n : Nat) (m : Int) (corr unc sym : Nat) : Chip :=
  let st := (c.lp n).state
  if st = 3 ∨ st = 4 then
    let c := c.setLq tb n (lqOf m)
    if c.rb (LP.LP_CFG n) 8 then c.troubleBy (LP.SYM_ERR n) sym
    else ((c.bumpBy (LP.FEC_CORR n) corr).troubleBy (LP.FEC_UNC n) unc).when (decide (0 < unc)) (fun c => c.evt (lpPg n) 4)
  else c

/-- A write of 1 to CABLE_CTRL.GO (R337). -/
def Chip.cableGo (c : Chip) (n : Nat) : Chip :=
  if (c.lp n).state = 1 then (c.modLp n (fun l => { l with state := 6 })).setF (LP.CABLE_CTRL n) 0 0 1
  else c.errCount (lpPg n)

/-- The cable test ends (R337): the port returns to IDLE, or trains where EN has come into force. -/
def Chip.cableDone (c : Chip) (tb : TimeBase) (n result dist : Nat) : Chip :=
  if (c.lp n).state = 6 then
    let c := ((c.setF (LP.CABLE_CTRL n) 0 0 0).setF (LP.CABLE_STAT n) 31 30 result).setF (LP.CABLE_STAT n) 15 0
      (if result = 0 then 0 else dist)
    ((c.modLp n (fun l => { l with state := 1 })).evt (lpPg n) 5).portSet tb n false
  else c

/-! ### Commands -/

/-- The link of a training port comes up (R333). -/
def execUp (n : Nat) (s : State) : Res := .next (s.onChip (fun c => c.linkUp s.tb n))

/-- A port enters IN_SERVICE (R333). -/
def execInserv (n : Nat) (s : State) : Res :=
  .next (s.onChip (fun c =>
    if c.serviceDue s.tb n then
      let c := (c.modLp n (fun l => { l with state := 4 })).evt (lpPg n) 2
      -- LQ_LOWEST counts from the entry on (R336)
      c.when (decide ((c.lp n).lq < c.rf (LP.LQ_LOWEST n) 2 0)) (fun c => c.setF (LP.LQ_LOWEST n) 2 0 (c.lp n).lq)
    else c))

/-- Link loss is detected (R334); `cut` says that a frame was being received (R333). -/
def execDown (n : Nat) (cut : Bool) (s : State) : Res :=
  .next (s.onChip (fun c =>
    if (c.lp n).state = 3 ∨ (c.lp n).state = 4 then
      (c.when (cut && c.hasLink n) (fun c => c.trouble (LP.RX_ABORT n))).linkLost s.tb n 2
    else c))

/-- The 1 ms update of LQ (R336). -/
def execLqUpdate (n : Nat) (m : Int) (corr unc sym : Nat) (s : State) : Res :=
  .next (s.onChip (fun c => c.lqUpdate s.tb n m corr unc sym))

/-- A write of 1 to CABLE_CTRL.GO (R337). -/
def execCableGo (p : Port) (n : Nat) (s : State) : Res :=
  .next (s.onChip (fun c => c.gated p (LP.CABLE_CTRL n) (fun c => c.cableGo n)))

/-- The cable test ends (R337). -/
def execCableDone (n result dist : Nat) (s : State) : Res := .next (s.onChip (fun c => c.cableDone s.tb n result dist))

/-- A frame of another EtherType, or one that is too long, is discarded (R330); its stamps are those of R82. -/
def execRxOther (n : Nat) (long : Bool) (s : State) (sof : Word := 0#32) : Res :=
  .next (s.onChip (fun c =>
    if c.hasLink n then (c.rxStamp s.tb n sof).trouble (if long then LP.RX_ABORT n else LP.RX_OTHER n) else c))

end Sys2Proof.Machine
end

