-- ==== Sys2Proof/Machine/Service.lean ====
section
/-!
DEFINITION. The Service phase: slots and what the head sends in them (R284 to R287, R297 to R299, R307), the judgement of
node frames (R301 to R305), mailboxes (R285, R286) and the admission and loss of nodes (R324 to R326).
-/

namespace Sys2Proof.Machine

/-! ### States of a node -/

/-- The head changes a node's state: the change enters the journal (R350). -/
def Chip.admitJournal (c : Chip) (tb : TimeBase) (g k st reason : Nat) : Chip := c.journal (.admission g k st reason)

/-- A node is refused with a reason (R324, R325). -/
def Chip.refuseNode (c : Chip) (tb : TimeBase) (g k reason : Nat) : Chip :=
  let c := (c.nodeBit (SEG.NODE_REFUSED g) k true).setRefuse g k reason
  let c := c.modNode g k (fun n => { n with descOk := false, admitNext := false, ask := false, asked := false, descA := none, descB := none })
  (c.evt (pgSeg g) 14).admitJournal tb g k 2 reason

/-- Both paths of a node are unknown (R301). -/
def Chip.forgetPaths (c : Chip) (g k : Nat) : Chip := c.setReg (SEG.PATH g (k - 1)) 0xFFFFFFFF#32

/-- PATH_k,p; 0xFFFF is unknown. -/
def Chip.path (c : Chip) (g k : Nat) (portB : Bool) : Nat :=
  if portB then c.rf (SEG.PATH g (k - 1)) 31 16 else c.rf (SEG.PATH g (k - 1)) 15 0
def Chip.setPath (c : Chip) (g k : Nat) (portB : Bool) (v : Nat) : Chip :=
  if 65535 ≤ v then c
  else if portB then c.setF (SEG.PATH g (k - 1)) 31 16 v else c.setF (SEG.PATH g (k - 1)) 15 0 v

/-- The downlink message of a segment ends in error (R286). -/
def Chip.mbxFail (c : Chip) (g code : Nat) : Chip :=
  let c := ((c.setF (SEG.MBX_TX_STAT g) 31 31 0).raise (SEG.MBX_TX_STAT g) (oneBit 29)).setF (SEG.MBX_TX_STAT g) 23 20 code
  ((c.setF (SEG.MBX_TX g) 31 31 0).modSeg g (fun s => { s with mbx := { s.mbx with chunk := 0 } })).evt (pgSeg g) 6

/-- BUSY of a segment's mailbox. -/
def Chip.mbxBusy (c : Chip) (g : Nat) : Bool := c.rb (SEG.MBX_TX_STAT g) 31
/-- Target node of its message. -/
def Chip.mbxNode (c : Chip) (g : Nat) : Nat := c.rf (SEG.MBX_TX g) 20 16

/-- An admitted node has been missing for LOSS ticks: it becomes ABSENT (R326). -/
def Chip.nodeLost (c : Chip) (tb : TimeBase) (g k : Nat) : Chip :=
  if c.headOn g && c.admitted g k && decide (c.rf (SEG.ADMIT_CFG g) 7 0 ≤ (c.node g k).missRun) then
    let c := (c.nodeBit (SEG.NODE_ADMIT g) k false).nodeBit (SEG.NODE_DRIFT g) k false
    let c := (c.forgetPaths g k).modNode g k (fun n => { NodeSt.reset with hdr := n.hdr, missPrev := true })
    let c := c.when (c.mbxBusy g && decide (c.mbxNode g = k)) (fun c => c.mbxFail g 2)
    (c.evt (pgSeg g) 13).admitJournal tb g k 0 0
  else c

/-- A segment stops: every node becomes ABSENT and its messages end (R286, R326). -/
def Chip.segStop (c : Chip) (g : Nat) : Chip :=
  let c := c.when (c.mbxBusy g) (fun c => c.mbxFail g 4)
  let c := ((c.setReg (SEG.NODE_ADMIT g) 0#32).setReg (SEG.NODE_DRIFT g) 0#32).setReg (SEG.NODE_REFUSED g) 0#32
  let c := each (List.range 16) (fun i c => c.forgetPaths g (i + 1)) c
  let c := each (List.range 2) (fun i c => c.setReg (SEG.REFUSE g i) 0#32) c
  c.modSeg g (fun s => { Seg.reset with tick := s.tick, t0 := s.t0, splitLast := s.splitLast })

/-! ### CONFIG frames -/

/-- Fail-safe code of IDX `i` of node `k` (Table 10.18). -/
def Chip.fsAct (c : Chip) (g k : Nat) : Nat := c.rf (SEG.NPARAM g (k - 1)) 15 0

/-- Mode of an axis. -/
def Chip.axMode (c : Chip) (a : Nat) : Nat := c.rf (AXIS.LMODE a) 1 0

/-- The parameter block of a node (Table 10.13). -/
def Chip.npb (c : Chip) (g k : Nat) : List Byte :=
  let axes := c.nodeAxes g k
  let modes := axes.foldl (fun m a => m + c.axMode a * 4 ^ c.axIdx a) 0
  beBytes 1 axes.length ++ beBytes 1 (c.rf (SEG.NPARAM g (k - 1)) 31 24) ++ beBytes 2 (c.fsAct g k)
    ++ beBytes 2 (c.recOfs g 8 12 k) ++ beBytes 2 (c.recOfs g 4 8 k) ++ beBytes 1 modes ++ beBytes 1 k ++ List.replicate 22 0#8

/-- A CONFIG payload: slot header and block (R284, R287). -/
def configPay (k op : Nat) (block : List Byte) : List Byte :=
  [BitVec.ofNat 8 k, BitVec.ofNat 8 (16 * op)] ++ beBytes 2 32 ++ padTo 32 block

/-- The reason for which a descriptor is refused (Table 11.7), 0 for none. -/
def Chip.descCheck (c : Chip) (g k : Nat) (d : List Byte) : Nat :=
  let axes := c.nodeAxes g k
  let modes := be d 9 1
  let caps := be d 10 2
  let slow := c.slowSeg g
  if be d 6 1 ≠ 1 then 1
  else if be d 7 1 < axes.length then 2
  else if axes.any (fun a => !modes.testBit (c.axMode a)) then 3
  else if !modes.testBit (if slow then 5 else 4) then 4
  else if !caps.testBit 0 || (List.range 4).any (fun i => !caps.testBit (c.fsAct g k / 16 ^ i % 16)) then 5
  else if be d 8 1 < 32 ∨ 124 < be d 8 1 ∨ be d 8 1 % 4 ≠ 0 then 6
  else if (if slow then 2400 else 320) < be d 20 2 then 7
  else 0

/-- Store bytes in a buffer of registers, byte i of the buffer in byte i mod 4 of word i div 4 (R47, R286). -/
def Chip.putBuf (c : Chip) (at' : Nat → Nat) (o : Nat) : List Byte → Chip
  | [] => c
  | b :: l => (c.setF (at' (o / 4)) (8 * (o % 4) + 7) (8 * (o % 4)) b.toNat).putBuf at' (o + 1) l

/-- Bytes of a buffer of registers. -/
def Chip.getBuf (c : Chip) (at' : Nat → Nat) (o n : Nat) : List Byte :=
  (List.range n).map (fun i => BitVec.ofNat 8 (c.rf (at' ((o + i) / 4)) (8 * ((o + i) % 4) + 7) (8 * ((o + i) % 4))))

/-- The stored descriptor of a node. -/
def Chip.desc (c : Chip) (g k : Nat) : List Byte := c.getBuf (SEG.DESC g) (32 * (k - 1)) 32

/-! ### Service slots -/

/-- Width of a launch window (Table 3.5). -/
def Chip.launchW (c : Chip) (g : Nat) : Nat := if c.slowSeg g then 40 else 8

/-- One more violation, or the end of the run, of node `k`; the eighth in a row marks DRIFT (R304). -/
def Chip.violation (c : Chip) (g k : Nat) (bad : Bool) : Chip :=
  let n := if bad then (c.node g k).viol + 1 else 0
  let c := c.modNode g k (fun t => { t with viol := n })
  if bad && decide (8 ≤ n) && !c.drifting g k then
    ((c.nodeBit (SEG.NODE_DRIFT g) k true).modNode g k (fun t => { t with ask := false, asked := false })).evt (pgSeg g) 11
  else c

/-- The violations of node `k` in the Service phase begun last, in the order of its frames (R304): one for a frame outside
its slots, one for a slot in which no frame of it was accepted. -/
def Chip.phaseOf (c : Chip) (g k : Nat) : List Judged → List (Option Nat) → Chip
  | [], _ => c
  | x :: l, seen =>
    if x.node ≠ k ∨ x.sample.isSome then c.phaseOf g k l seen
    else match x.slot with
      | none => (c.violation g k true).phaseOf g k l seen
      | some j =>
        if seen.contains (some j) then c.phaseOf g k l seen
        else (c.violation g k (!x.ok && !l.any (fun y => decide (y.node = k ∧ y.slot = some j) && y.ok))).phaseOf g k l (some j :: seen)

/-- A DESC_REQ has had its answer on the ports of the phase (R305, R358). -/
def Chip.askEnd (c : Chip) (g : Nat) (js : List Judged) : Chip :=
  each (below 17 (fun k => (c.node g k).asked && js.any (fun x => decide (x.node = k)))) (fun k c =>
    c.modNode g k (fun t => { t with asked := false, relearn := false })) c

/-- The end of the Service phase begun last: violations are counted (R304). -/
def Chip.phaseEnd (c : Chip) (g : Nat) : Chip :=
  let js := (c.seg g).judged
  let c := each (List.range 17) (fun k c => if c.admitted g k then c.phaseOf g k js [] else c) c
  let c := c.askEnd g js
  c.modSeg g (fun s => { s with judged := [], cfgSeen := [] })

/-- The Service phase of a segment's tick or cycle begins (R297, R298, R300). -/
def Chip.phaseBegin (c : Chip) (g : Nat) : Chip :=
  let c := c.phaseEnd g
  c.modSeg g (fun s => { s with
    svcAt := s.t0 + BitVec.ofNat 32 (c.segSvc g)
    svcLen := c.segSlot g
    svcOwners := (List.range c.svcCount).map (c.slotOwner g) })

/-- Chunk size toward node `k` (R285). -/
def Chip.chunkSize (c : Chip) (g k : Nat) : Nat := min (be (c.desc g k) 8 1) (c.pMax g - 4)

/-- The payload of the oldest chunk not yet acknowledged, `n` bytes long (R284, R285). -/
def Chip.chunkPay (c : Chip) (g k n : Nat) : List Byte :=
  let acked := c.rf (SEG.MBX_TX_STAT g) 10 0
  let len := c.rf (SEG.MBX_TX g) 10 0
  let first := decide (acked = 0)
  let b1 := 16 + 8 * b2n first + 4 * b2n (decide (len ≤ acked + n)) + 2 * (c.node g k).dnSeq
  [BitVec.ofNat 8 k, BitVec.ofNat 8 b1] ++ beBytes 2 (if first then len else 0) ++ c.getBuf (SEG.TX_BUF g) acked n

/-- What the head sends to the owner `k` of a slot, with the state it leaves (R284, R287, R305, R324, R325, R358): CONFIG
before a mailbox chunk. -/
def Chip.slotFrame (c : Chip) (g k : Nat) : Option (Nat × List Byte × Chip) :=
  let n := c.node g k
  let cfg := decide (36 ≤ c.pMax g)
  let fresh := !c.admitted g k && !c.nodeRefused g k
  if cfg && ((fresh && !n.descOk && !n.admitNext) || (!fresh && n.ask)) then
    some (6, configPay k 1 [], c.modNode g k (fun t => { t with ask := false, asked := true }))
  else if cfg && fresh && n.descOk && !n.admitNext then
    some (6, configPay k 3 (c.npb g k), c.modNode g k (fun t => { t with npb := c.npb g k }))
  else if c.admitted g k && !c.drifting g k && c.mbxBusy g && decide (c.mbxNode g = k) then
    let m := (c.seg g).mbx
    let size := c.chunkSize g k
    if m.chunk ≠ 0 then (if m.chunk + 4 ≤ c.pMax g then some (3, c.chunkPay g k m.chunk, c) else none)
    else if 4 ≤ size then
      let len := min size (c.rf (SEG.MBX_TX g) 10 0 - c.rf (SEG.MBX_TX_STAT g) 10 0)
      some (3, c.chunkPay g k len, c.modSeg g (fun s => { s with mbx := { s.mbx with chunk := len, firstTx := c.tg.tickNo } }))
    else none
  else none

/-- A timed frame of a segment leaves on both ports, before the offset `by'` at which its window ends (R94): where it cannot start within
it, it is dropped (R95). -/
def Chip.timedBoth (c : Chip) (tb : TimeBase) (g by' : Nat) (l : List Byte) : Chip :=
  let o := c.segOfs tb g
  if o < by' then (c.sendTimed tb (by' - o) (2 * g) l).sendTimed tb (by' - o) (2 * g + 1) l
  else c.trouble (SEG.LAUNCH_LATE g)

/-- A timed frame of a segment can start on one of its ports before the offset `by'`. -/
def Chip.canStart (c : Chip) (tb : TimeBase) (g by' : Nat) : Bool :=
  let o := c.segOfs tb g
  decide (o < by') && [2 * g, 2 * g + 1].any (fun p => c.hasLink p && decide (c.txWait tb p < by' - o))

/-- The next Service slot of segment `g` opens (R284).  A slot that ended before the chip became head passes (R311).  A frame that starts on no
port has not been transmitted: nothing of what it would have done to the exchange has come about (R286). -/
def Chip.slotOpen (c : Chip) (tb : TimeBase) (g : Nat) : Chip :=
  let j := (c.seg g).slots
  let at' := c.segSvc g + j * c.segSlot g
  if c.headOn g && decide (j < c.svcCount ∧ at' ≤ c.segOfs tb g) then
    let c := if j = 0 then c.phaseBegin g else c
    let c := c.modSeg g (fun s => { s with slots := j + 1 })
    let k := c.slotOwner g j
    if k = 0 ∨ ¬ (c.recNodes g).contains k ∨ at' + c.segSlot g ≤ c.segOfs tb g then c
    else match c.slotFrame g k with
      | none => c
      | some (ty, pay, d) =>
        (if c.canStart tb g (at' + c.launchW g) then d else c).timedBoth tb g (at' + c.launchW g) (c.headFrame tb g ty pay)
  else c

/-! ### MODE frames -/

/-- The payload of a MODE frame for mode `m` with the given switch tick (Table 10.16). -/
def Chip.modePay (c : Chip) (g m tick : Nat) : List Byte :=
  let ap := c.reg (SEG.APPLY_M g m)
  [BitVec.ofNat 8 m, 0#8, 0#8, 0#8] ++ beBytes 4 tick ++ beBytes 4 (c.rf (TICK.MODE_PERIOD m) 17 0)
    ++ beBytes 4 (c.rf (TICK.MODE_GATHER_OFS m) 17 0) ++ beBytes 4 (c.rf (TICK.MODE_GATHER_LATE m) 17 0)
    ++ beBytes 4 (c.rf (TICK.MODE_POUR_CLOSE m) 17 0) ++ beBytes 4 (c.rf (TICK.MODE_SVC_OPEN m) 17 0)
    ++ beBytes 2 (c.rf (TICK.MODE_SVC m) 11 0) ++ beBytes 1 (c.rf (TICK.MODE_SVC m) 18 16)
    ++ beBytes 1 (fld ap 31 31 + 2 * fld ap 30 30) ++ beBytes 4 (fld ap 17 0)
    ++ (List.range 32).map (fun e => BitVec.ofNat 8 (c.ownEntry g m e)) ++ List.replicate 32 0#8

/-- The MODE frame of this tick or cycle leaves, a timed frame at SVC_OPEN (R94, R299, R307). -/
def Chip.modeOut (c : Chip) (tb : TimeBase) (g m tick : Nat) : Chip :=
  if c.headOn g && !(c.seg g).modeSent && decide (c.segSvc g ≤ c.segOfs tb g) then
    let c := c.modSeg g (fun s => { s with modeSent := true })
    if c.segSvc g + c.segSlot g ≤ c.segOfs tb g then c
    else c.timedBoth tb g (c.segSvc g + c.launchW g) (c.headFrame tb g 7 (c.modePay g m (tick % 2 ^ 32)))
  else c

/-- The beacon of segment `g` (R299). -/
def Chip.beacon (c : Chip) (tb : TimeBase) (g : Nat) : Chip :=
  if c.isBeacon g && !(c.seg g).mca then c.modeOut tb g c.tg.mode c.tg.modeSince.toNat else c

/-- The announcement of a pending change on segment `g` (R307). -/
def Chip.announce (c : Chip) (tb : TimeBase) (g : Nat) : Chip :=
  match c.tg.change with
  | some x => if (c.seg g).mca then c.modeOut tb g x.target x.tick.toNat else c
  | none => c

/-- The first segment and node, ascending, that has not acknowledged the change (R307). -/
def Chip.notAcked (c : Chip) : Option (Nat × Nat) :=
  (c.runSegs.flatMap (fun g => (c.recNodes g).map (fun k => (g, k)))).find? (fun e =>
    c.admitted e.1 e.2 && ((c.node e.1 e.2).missPrev || decide (nf (hStatus (c.node e.1 e.2).hdr) 12 12 = 0)))

/-- The decision of a change (R307), before GATHER_OFS of the decision tick. -/
def Chip.mcDecide (c : Chip) (tb : TimeBase) : Chip :=
  match c.tg.change with
  | some x =>
    if c.isHead && c.tg.running && !x.confirmed && decide (c.tickNo = x.decision ∧ c.ofs tb < c.gatherOfs) then
      let d := match c.notAcked with
        | some (g, k) => c.mcAbandon 6 k g
        | none => (c.modTg (fun t => { t with change := some { x with confirmed := true } })).setF TICK.MC_STAT 31 28 2
      Chip.mcJournal c d tb
    else c
  | none => c

/-! ### Frames from nodes -/

/-- A path sample of a node frame (R301). -/
def pathSample (tb : TimeBase) (f : RxFrame) : Nat := (f.sof - tb.fastOf (fTxt f.bytes)).toNat

/-- Slot of the Service phase begun last that holds a stamp. -/
def Seg.slotOf (s : Seg) (stamp : Word) : Option Nat :=
  if s.svcLen = 0 then none
  else
    let j := (stamp - s.svcAt).toNat / s.svcLen
    if j < s.svcOwners.length then some j else none

/-- Offset of a stamp in its slot. -/
def Seg.slotAt (s : Seg) (stamp : Word) : Nat := (stamp - s.svcAt).toNat % s.svcLen

/-- A frame of node `k` with the referred stamp `st` is in the acceptance window of a slot of its own (R302), with the slot
of its own that the stamp falls in. -/
def Seg.accepts (s : Seg) (k : Nat) (st : Word) : Bool × Option Nat :=
  match s.slotOf st with
  | some j => if s.svcOwners.getD j 0 = k then (decide (s.slotAt st < 200), some j) else (false, none)
  | none => (false, none)

/-- The other port of the node in this phase: an unjudged frame in the same slot teaches its path (R301). -/
def Chip.teachPath (c : Chip) (g k j : Nat) (portB : Bool) : Chip :=
  match (c.seg g).judged.find? (fun x => decide (x.node = k ∧ x.portB = !portB) && x.sample.isSome) with
  | some x => match x.sample with
    | some (v, sof) =>
      if c.path g k (!portB) = 65535 ∧ (c.seg g).slotOf (sof - BitVec.ofNat 32 v) = some j then c.setPath g k (!portB) v else c
    | none => c
  | none => c

/-- The judgement of a frame of admitted node `k` on a port whose path is known (R302): whether it is accepted. -/
def Chip.judge (c : Chip) (g k : Nat) (portB : Bool) (f : RxFrame) : Chip × Bool :=
  let st := f.sof - BitVec.ofNat 32 (c.path g k portB)
  let r := (c.seg g).accepts k st
  let c := c.setReg (SEG.SVC_REF g) st
  let c := c.modSeg g (fun s => { s with judged := s.judged ++ [⟨k, portB, r.2, r.1, none⟩] })
  let c := if r.1 then c
    else ((c.trouble16 (SEG.SLOT_EDGE g ((k - 1) / 2)) (16 * ((k - 1) % 2))).evt (pgSeg g) 10)
  (match r.2 with | some j => if r.1 then c.teachPath g k j portB else c | none => c, r.1)

/-- A frame of node `k` has come on this port in this Service phase. -/
def Chip.cameBefore (c : Chip) (g k : Nat) (portB : Bool) : Bool :=
  (c.seg g).judged.any (fun x => decide (x.node = k ∧ x.portB = portB))

/-- The path of a port that is not known is learnt from an accepted frame on the other port in the same slot (R301). -/
def Chip.learnPath (c : Chip) (g k : Nat) (portB : Bool) (v : Nat) (sof : Word) : Chip :=
  let s := c.seg g
  if s.judged.any (fun x => decide (x.node = k ∧ x.portB = !portB ∧ x.slot = s.slotOf (sof - BitVec.ofNat 32 v)) && x.ok) then
    c.setPath g k portB v
  else c

/-- A valid frame of admitted node `k` in the Service phase: whether it is accepted (R301, R302).  A descriptor that answers
the question of a new head gives its path on the port, as at admission (R358). -/
def Chip.nodeFrame (c : Chip) (tb : TimeBase) (g k : Nat) (portB : Bool) (f : RxFrame) : Chip × Bool :=
  let v := pathSample tb f
  if c.path g k portB ≠ 65535 then c.judge g k portB f
  else if c.path g k (!portB) = 65535 ∨ ¬ (c.learnPath g k portB v f.sof).path g k portB ≠ 65535 then
    let isDesc := decide (fType f.bytes = 6 ∧ nf (be f.bytes 31 1) 7 4 = 2) && (c.node g k).asked && (c.node g k).relearn && !c.drifting g k
    let c := c.modSeg g (fun s => { s with judged := s.judged ++ [⟨k, portB, none, false, some (v, f.sof)⟩] })
    (c.when isDesc (fun c => c.setPath g k portB v), isDesc)
  else (c.learnPath g k portB v f.sof).judge g k portB f

/-! ### Uplink chunks -/

/-- The uplink message in progress is discarded (R286). -/
def Chip.rxBad (c : Chip) (g : Nat) : Chip :=
  ((c.raise (SEG.MBX_RX_STAT g) (oneBit 30)).evt (pgSeg g) 8).modSeg g (fun s => { s with mbx := { s.mbx with rxNode := 0 } })

/-- The bytes of an accepted chunk enter the RX buffer; the last one completes the message (R286). -/
def Chip.rxStore (c : Chip) (g k total : Nat) (got : Nat) (last : Bool) (d : List Byte) : Chip :=
  let n := got + d.length
  let c := c.modSeg g (fun s => { s with mbx := { s.mbx with rxNode := k, rxTotal := total, rxGot := n, rxTick := c.tg.tickNo } })
  if 1024 < total ∨ 1024 < n then c.rxBad g
  else
    let c := c.putBuf (SEG.RX_BUF g) got d
    if !last then c
    else if n ≠ total then c.rxBad g
    else
      let c := ((c.raise (SEG.MBX_RX_STAT g) (oneBit 31)).setF (SEG.MBX_RX_STAT g) 20 16 k).setF (SEG.MBX_RX_STAT g) 10 0 n
      (c.evt (pgSeg g) 7).modSeg g (fun s => { s with mbx := { s.mbx with rxNode := 0 } })

/-- An uplink chunk in an accepted frame (R285). -/
def Chip.uplink (c : Chip) (g k : Nat) (pay : List Byte) : Chip :=
  let b1 := be pay 1 1
  let seq := nf b1 1 1
  let first := decide (nf b1 3 3 = 1)
  let m := (c.seg g).mbx
  let mine := decide (m.rxNode = k)
  let may := if first then mine || (decide (m.rxNode = 0) && !c.rb (SEG.MBX_RX_STAT g) 31) else mine
  if seq = (c.node g k).upAck ∨ ¬ may then c
  else
    let c := c.modNode g k (fun n => { n with upAck := seq })
    if first then c.rxStore g k (be pay 2 2) 0 (decide (nf b1 2 2 = 1)) (pay.drop 4)
    else c.rxStore g k m.rxTotal m.rxGot (decide (nf b1 2 2 = 1)) (pay.drop 4)

/-! ### CONFIG answers -/

/-- A descriptor from a node that is being admitted, asked again or DRIFT (R305, R324, R325, R358). -/
def Chip.takeDesc (c : Chip) (tb : TimeBase) (g k : Nat) (portB : Bool) (v : Nat) (d : List Byte) : Chip :=
  let c := c.putBuf (SEG.DESC g) (32 * (k - 1)) (padTo 32 d)
  if c.admitted g k then c
  else
    let c := c.modNode g k (fun n => if portB then { n with descB := some v } else { n with descA := some v })
    let r := c.descCheck g k d
    if r ≠ 0 then c.refuseNode tb g k r
    else ((c.nodeBit (SEG.NODE_REFUSED g) k false).setRefuse g k 0).modNode g k (fun n => { n with descOk := true })

/-- An NPB_ACK from a node that was sent a parameter block (R324). -/
def Chip.takeAck (c : Chip) (tb : TimeBase) (g k : Nat) (portB : Bool) (v : Nat) (d : List Byte) : Chip :=
  let n := c.node g k
  if (!n.admitNext && !n.descOk) || n.npb.isEmpty then c
  else if d.take 31 = n.npb.take 31 ∧ be d 31 1 = 0 then
    if n.admitNext then c.setPath g k portB v
    else
    let other := if portB then n.descA else n.descB
    let c := (c.forgetPaths g k).setPath g k portB v
    let c := match other with | some w => c.setPath g k (!portB) w | none => c
    c.modNode g k (fun n => { n with admitNext := true, dnSeq := 0, upAck := 1 })
  else c.refuseNode tb g k 8

/-- A stamp lies in the Service phase of the segment's tick or cycle. -/
def Chip.inService (c : Chip) (g : Nat) (stamp : Word) : Bool :=
  let o := (stamp - (c.seg g).t0).toNat
  decide (c.segSvc g ≤ o ∧ o < c.segSvc g + c.svcCount * c.segSlot g)

/-- A CONFIG answer of a node that is not ADMITTED (R324): it counts in a Service phase in which the node owns a slot. -/
def Chip.configFrame (c : Chip) (tb : TimeBase) (g k : Nat) (portB : Bool) (f : RxFrame) : Chip :=
  let pay := fPay f.bytes
  let op := nf (be pay 1 1) 7 4
  if !((c.seg g).svcOwners.contains k && c.inService g f.sof) then c
  else if (c.seg g).cfgSeen.contains (k, portB) then c.refuseNode tb g k 9
  else
    let c := c.modSeg g (fun s => { s with cfgSeen := s.cfgSeen ++ [(k, portB)] })
    if op = 2 then c.takeDesc tb g k portB (pathSample tb f) (pay.drop 4)
    else c.takeAck tb g k portB (pathSample tb f) (pay.drop 4)

/-- A DRIFT node answers the check of R305: what no DESC_REQ has asked for is discarded. -/
def Chip.driftCheck (c : Chip) (tb : TimeBase) (g k : Nat) (portB : Bool) (f : RxFrame) : Chip :=
  if !(c.node g k).asked || c.cameBefore g k portB then c
  else
    let (c, ok) := c.nodeFrame tb g k portB f
    if ok then
      let c := c.putBuf (SEG.DESC g) (32 * (k - 1)) (padTo 32 ((fPay f.bytes).drop 4))
      (c.nodeBit (SEG.NODE_DRIFT g) k false).modNode g k (fun n => { n with viol := 0 })
    else c

/-- The head receives a frame of a node (R302 to R305, R324): what is not an uplink SERVICE or CONFIG frame of a record node
changes nothing more. -/
def Chip.recvNode (c : Chip) (tb : TimeBase) (port : Nat) (f : RxFrame) : Chip :=
  let g := port / 2
  let portB := decide (port % 2 = 1)
  let c := c.rxHead tb port f
  if !c.rxTaken port f || !c.headOn g then c
  else
    if !c.frameOk g f then c.when (fCut f.bytes && c.inService g f.sof) (fun c => c.trouble (SEG.SVC_CUT g))
    else
      let pay := fPay f.bytes
      let k := be pay 0 1
      let b1 := be pay 1 1
      let ty := fType f.bytes
      if ¬ (ty = 3 ∨ ty = 6) ∨ nf b1 0 0 = 0 ∨ k = 0 ∨ 16 < k then c
      else
        let c := ((c.setReg (SEG.SVC_SOF g) f.sof).setF (SEG.SVC_INFO g) 8 8 (b2n portB)).setF (SEG.SVC_INFO g) 4 0 k
        if ¬ (c.recNodes g).contains k then c
        else if c.drifting g k then (if ty = 6 ∧ nf b1 7 4 = 2 then c.driftCheck tb g k portB f else c)
        else if c.admitted g k then
          if c.cameBefore g k portB then c
          else
            let (c, ok) := c.nodeFrame tb g k portB f
            if ok && decide (ty = 3 ∧ nf b1 7 4 = 1) then c.uplink g k pay
            else if ok && decide (ty = 6 ∧ nf b1 7 4 = 2) then c.takeDesc tb g k portB (pathSample tb f) (pay.drop 4)
            else c
        else if ty = 6 ∧ (nf b1 7 4 = 2 ∨ nf b1 7 4 = 4) then c.configFrame tb g k portB f
        else c

/-! ### The host mailbox -/

/-- A downlink message starts, or fails at once (R286). -/
def Chip.mbxStart (c : Chip) (g : Nat) : Chip :=
  let len := c.rf (SEG.MBX_TX g) 10 0
  let k := c.mbxNode g
  if len = 0 ∨ 1024 < len then c.mbxFail g 5
  else if k = 0 ∨ 16 < k ∨ ¬ (c.admitted g k ∨ (c.node g k).admitNext) then c.mbxFail g 2
  else if c.chunkSize g k < 4 then c.mbxFail g 3
  else
    let c := ((c.setF (SEG.MBX_TX_STAT g) 31 31 1).setF (SEG.MBX_TX_STAT g) 23 20 0).setF (SEG.MBX_TX_STAT g) 10 0 0
    (c.setF (SEG.MBX_TX g) 31 31 1).modSeg g (fun s => { s with mbx := { s.mbx with chunk := 0 } })

/-- A write of `SEG.MBX_TX` (R286). -/
def Chip.writeMbxTx (c : Chip) (g : Nat) (v : Word) : Chip :=
  if c.mbxBusy g then (if bit v 30 then c.mbxFail g 4 else c)
  else
    let c := (c.setF (SEG.MBX_TX g) 20 16 (fld v 20 16)).setF (SEG.MBX_TX g) 10 0 (fld v 10 0)
    if bit v 31 then c.mbxStart g else c

/-- A chunk has stayed unacknowledged for MBX_TO ticks (R286). -/
def Chip.mbxTimeout (c : Chip) (g : Nat) : Chip :=
  let lim := c.rf (SEG.MBX_TO g) 15 0
  let m := (c.seg g).mbx
  if c.mbxBusy g && decide (m.chunk ≠ 0 ∧ lim ≠ 0 ∧ lim ≤ c.tickNo - m.firstTx.toNat) then c.mbxFail g 1 else c

/-- MBX_TO ticks without a chunk of the uplink message in progress (R286). -/
def Chip.rxTimeout (c : Chip) (g : Nat) : Chip :=
  let lim := c.rf (SEG.MBX_TO g) 15 0
  let m := (c.seg g).mbx
  if decide (m.rxNode ≠ 0 ∧ lim ≠ 0 ∧ lim ≤ c.tickNo - m.rxTick.toNat) then c.rxBad g else c

/-! ### Commands -/

/-- A Service slot of a segment opens (R284). -/
def execServiceSlotOpen (g : Nat) (s : State) : Res := .next (s.onChip (fun c => c.slotOpen s.tb g))

/-- SVC_OPEN of a beacon tick (R299). -/
def execModeBeacon (g : Nat) (s : State) : Res := .next (s.onChip (fun c => c.beacon s.tb g))

/-- SVC_OPEN of a mode tick (R307). -/
def execModeAnnounce (g : Nat) (s : State) : Res := .next (s.onChip (fun c => c.announce s.tb g))

/-- The decision of a mode change (R307). -/
def execMcDecision (s : State) : Res := .next (s.onChip (fun c => c.mcDecide s.tb))

/-- A node frame reaches the head (R302). -/
def execServiceFrameReceive (port : Nat) (f : RxFrame) (s : State) : Res :=
  .next (s.onChip (fun c => c.recvNode s.tb port f))

/-- A frame of the given type and OP. -/
def fIs (f : RxFrame) (ty op : Nat) : Bool := decide (fType f.bytes = ty ∧ nf (be f.bytes 31 1) 7 4 = op)

/-- A node frame with an uplink mailbox chunk reaches the head (R285). -/
def execUplinkChunk (port : Nat) (f : RxFrame) (s : State) : Res :=
  .next (s.onChip (fun c => if fIs f 3 1 then c.recvNode s.tb port f else c))

/-- A node frame with a descriptor reaches the head (R324). -/
def execDesc (port : Nat) (f : RxFrame) (s : State) : Res :=
  .next (s.onChip (fun c => if fIs f 6 2 then c.recvNode s.tb port f else c))

/-- A node frame with an NPB_ACK reaches the head (R324). -/
def execNpbAck (port : Nat) (f : RxFrame) (s : State) : Res :=
  .next (s.onChip (fun c => if fIs f 6 4 then c.recvNode s.tb port f else c))

/-- An admitted node has been missing for LOSS ticks (R326). -/
def execNodeLost (g k : Nat) (s : State) : Res := .next (s.onChip (fun c => c.nodeLost s.tb g k))

/-- A write of 1 to `SEG.MBX_TX.GO` with the NODE and LEN of the same write (R286). -/
def execMbxTxGo (p : Port) (g : Nat) (v : Word) (s : State) : Res :=
  .next (s.onChip (fun c => c.gated p (SEG.MBX_TX g) (fun c => c.writeMbxTx g (v ||| oneBit 31))))

/-- A write of 1 to `SEG.MBX_TX.ABORT` (R286). -/
def execMbxTxAbort (p : Port) (g : Nat) (v : Word) (s : State) : Res :=
  .next (s.onChip (fun c => c.gated p (SEG.MBX_TX g) (fun c => c.writeMbxTx g (v ||| oneBit 30))))

/-- A write of 1 to `SEG.MBX_RX_STAT.FULL` (R286). -/
def execMbxRxFree (p : Port) (g : Nat) (s : State) : Res :=
  .next (s.onChip (fun c => c.gated p (SEG.MBX_RX_STAT g) (fun c => c.w1c (SEG.MBX_RX_STAT g) (oneBit 31))))

/-- The timeout of a downlink chunk (R286). -/
def execMbxTimeout (g : Nat) (s : State) : Res := .next (s.onChip (fun c => c.mbxTimeout g))

/-- The timeout of an uplink message (R286). -/
def execMbxRxTimeout (g : Nat) (s : State) : Res := .next (s.onChip (fun c => c.rxTimeout g))

end Sys2Proof.Machine
end

