-- ==== Sys2Proof/Machine/Strainer.lean ====
section
/-!
DEFINITION. Event pins (R395 to R402, R408): the pulse filter, chatter, stuck detection, what an output pin drives, and their commands.  Pin `n`
stands on bank `n / 8` as pin `n % 8`.
-/

namespace Sys2Proof.Machine

def epCfg (n : Nat) : Nat := EP.EP_CFG (n / 8) (n % 8)
def epStat (n : Nat) : Nat := EP.EP_STAT (n / 8)

/-- FILT, CHAT and STUCK of a pin. -/
def Chip.filt (c : Chip) (n : Nat) : Bool := c.rb (epStat n) (8 + n % 8)
def Chip.chat (c : Chip) (n : Nat) : Bool := c.rb (epStat n) (16 + n % 8)
def Chip.stuck (c : Chip) (n : Nat) : Bool := c.rb (epStat n) (24 + n % 8)

/-- The pin is in service: PD2 on and its bank supplied (R397). -/
def Chip.pinLive (c : Chip) (n : Nat) : Bool :=
  decide (n < 48) && c.domOn 2 && c.pinSupply n

/-- What event pin `n` drives (R396, R397): high-impedance with no pull in reset, without PD2, in Decaf and without its bank supply; an
output drives the level of its line, exclusive-ORed with OINV, or with OD = 1 only the low level. -/
def Chip.pinDrive (c : Chip) (n : Nat) : PinDrive :=
  let w := c.reg (epCfg n)
  let v := xor (c.line (fld w 21 16)) (bit w 26)
  if !c.pinLive n || c.held || c.inDecaf then .off 0
  else if !bit w 31 then .off (fld w 29 28)
  else if !v then .low
  else if bit w 30 then .off (fld w 29 28)
  else .high

/-- STUCK_T of a pin in ns. -/
def Chip.stuckNs (c : Chip) (n : Nat) : Nat := c.rf (EP.STR1 (n / 8) (n % 8)) 15 0 * 1000000

/-- STUCK is reported for the activation in force (R400). -/
def Chip.tellStuck (c : Chip) (n : Nat) : Chip :=
  ((c.setF (epStat n) (24 + n % 8) (24 + n % 8) 1).evt (pgEp (n / 8)) (3 * (n % 8) + 2)).modPin n
    (fun p => { p with told := true })

/-- The stuck time of the activation in force has passed at an instant, given in the time base without its wraps.  It runs from the stamp of
the activation to the instant at which the output is released, MINPW after the stamp of the release (DESIGN CHOICE, log 94: R400 speaks
of the output and of stamps). -/
def Chip.stuckBy (c : Chip) (n at' : Nat) : Bool :=
  c.filt n && !(c.pin n).told && decide (0 < c.stuckNs n ∧ (c.pin n).actAt + c.stuckNs n ≤ at')

/-- The Strainer output of a pin changes to `v` with the edge of its transition, judged under the EP_CFG given: activation or release, pin
event, stuck timer, latch of a T0 in this nanosecond, source of the matrix (R398 to R402). -/
def Chip.strOut (c : Chip) (tb : TimeBase) (n : Nat) (v : Bool) (e : Edge) (cfg : Word) : Chip :=
  if v = c.filt n then c
  else
    -- the output has been active up to now (R400)
    let c := c.when (!v && c.stuckBy n tb.ext) (fun c => c.tellStuck n)
    let c := c.setF (epStat n) (8 + n % 8) (8 + n % 8) (b2n v)
    let c := if v then c.modPin n (fun p => { p with actAt := e.ext, told := false })
      else c.setF (epStat n) (24 + n % 8) (24 + n % 8) 0
    let sel := fld cfg 25 24
    let c := c.when ((v && decide (sel = 1 ∨ sel = 3)) || (!v && decide (sel = 2 ∨ sel = 3)))
      (fun c => c.evt (pgEp (n / 8)) (3 * (n % 8)))
    let c := c.when (c.tg.running && decide (tb.fast = c.tg.t0Fast)) (fun c =>
      c.setF (EP.EP_LATCH (n / 8)) (n % 8) (n % 8) (b2n v))
    c.setSrcAt tb e n v

/-- CHATTER of a pin ends under AUTO: one window has passed since the stamp of the last accepted transition (R399). -/
def Chip.chatterOver (c : Chip) (tb : TimeBase) (n : Nat) : Bool :=
  c.chat n && c.rb (EP.STR0 (n / 8) (n % 8)) 7 &&
  decide (c.rf (EP.STR0 (n / 8) (n % 8)) 31 16 * 1000 + (c.pin n).recent.headD 0 ≤ tb.ext)

/-- A pin leaves CHATTER (R399): its output takes the present accepted level. -/
def Chip.leaveChatter (c : Chip) (tb : TimeBase) (n : Nat) : Chip :=
  let c := c.setF (epStat n) (16 + n % 8) (16 + n % 8) 0
  c.strOut tb n (c.pin n).acc (c.edgeNow tb) (c.reg (epCfg n))

/-- A transition of a pin is accepted, judged under the EP_CFG and the STR0 in force at its edge (R398, R399, R402). -/
def Chip.pinAccept (c : Chip) (tb : TimeBase) (n : Nat) (e : Edge) : Chip :=
  let p := c.pin n
  let win := max 1 (fld p.str 31 16 * 1000)
  let max' := fld p.str 15 8
  let v := !p.acc
  let recent := (e.ext :: p.recent).filter (fun t => decide (e.ext < t + 65536000))
  let c := (c.modPin n (fun p => { p with acc := v, begun := none, recent := recent })).setReg
    (EP.STAMP (n / 8) (n % 8)) e.stamp
  if c.chat n then c
  else if 0 < max' ∧ max' < (recent.filter (fun t => decide (e.ext < t + win))).length then
    ((c.setF (epStat n) (16 + n % 8) (16 + n % 8) 1).evt (pgEp (n / 8)) (3 * (n % 8) + 1)).trouble16
      (EP.CNT (n / 8) (n % 8)) 16
  else c.strOut tb n v e p.cfg

/-- The level that has begun on a pin has been held for MINPW (R398). -/
def Chip.pinDue (c : Chip) (tb : TimeBase) (n : Nat) : Bool :=
  match (c.pin n).begun with
  | some e => decide (e.ext + c.rf (epCfg n) 15 0 * 8 ≤ tb.ext)
  | none => false

/-- CHATTER ends where its window has closed (R399), and then what has been held long enough is accepted. -/
def Chip.pinSettle (c : Chip) (tb : TimeBase) (n : Nat) : Chip :=
  match (c.pin n).begun with
  | some e =>
    if c.pinDue tb n then (c.when (c.chatterOver tb n) (fun c => c.leaveChatter tb n)).pinAccept tb n e else c
  | none => c

/-- The pad of a pin takes a level (R398): what has been held is accepted first; a level that changes back earlier is
rejected. -/
def Chip.padMove (c : Chip) (tb : TimeBase) (n : Nat) (pad : Bool) : Chip :=
  let c := c.setF (epStat n) (n % 8) (n % 8) (b2n pad)
  let x := xor pad (c.rb (epCfg n) 27)
  let c := c.pinSettle tb n
  if x = (c.pin n).acc then
    if (c.pin n).begun.isSome then
      (c.modPin n (fun p => { p with begun := none })).trouble16 (EP.CNT (n / 8) (n % 8)) 0
    else c
  else if (c.pin n).begun.isSome then c
  else (c.modPin n (fun p => { p with
    begun := some (c.edgeNow tb), cfg := c.reg (epCfg n), str := c.reg (EP.STR0 (n / 8) (n % 8)) })).pinSettle tb n

/-- A write of CH_RELEASE on bank `b` (R399). -/
def Chip.chRelease (c : Chip) (tb : TimeBase) (b : Nat) (m : Nat) : Chip :=
  each (below 8 (fun p => m.testBit p && c.chat (8 * b + p) && !c.rb (EP.STR0 b p) 7)) (fun p c => c.leaveChatter tb (8 * b + p)) c

/-- A commit has changed ACT of a pin: the level it judges is inverted (R402). -/
def Chip.actFlip (c : Chip) (tb : TimeBase) (n : Nat) : Chip :=
  let c := c.modPin n (fun p => { p with acc := !p.acc })
  c.strOut tb n (!c.filt n) (c.edgeNow tb) (c.reg (epCfg n))

/-- Bring the pins of bank `b` to their state in reset (R395, R397). -/
def Chip.bankReset (c : Chip) (tb : TimeBase) (b : Nat) : Chip :=
  let c := c.setN (EP.EP_STAT b) 0
  each (List.range 8) (fun p c => (c.modPin (8 * b + p) (fun _ => Pin.reset)).setSrc tb (8 * b + p) false) c

/-! ### Commands -/

/-- A pad level begins on a pin (R398). -/
def execPadTransition (n : Nat) (pad : Bool) (s : State) : Res :=
  .next (s.onChip (fun c => c.when (c.pinLive n) (fun c => c.padMove s.tb n pad)))

/-- A level held for MINPW is accepted (R398). -/
def execPulseAccept (n : Nat) (s : State) : Res :=
  .next (s.onChip (fun c => c.when (c.pinLive n) (fun c => c.pinSettle s.tb n)))

/-- CHATTER ends under AUTO (R399). -/
def execChatterAutoRelease (n : Nat) (s : State) : Res :=
  .next (s.onChip (fun c => c.when (c.pinLive n && c.chatterOver s.tb n) (fun c => c.leaveChatter s.tb n)))

/-- Writing CH_RELEASE (R399). -/
def execChRelease (p : Port) (b : Nat) (v : Word) (s : State) : Res :=
  .next (s.onChip (fun c => c.gated p (EP.EP_CTRL b) (fun c => c.chRelease s.tb b (fld v 7 0))))

/-- An output has been active for STUCK_T without a break (R400). -/
def execStuck (n : Nat) (s : State) : Res :=
  .next (s.onChip (fun c => c.when (c.pinLive n && c.stuckBy n s.tb.ext) (fun c => c.tellStuck n)))

end Sys2Proof.Machine
end

