-- ==== Sys2Proof/Machine/Streams.lean ====
section
/-!
DEFINITION. Stream FIFOs (R385 to R391, R393): words in and out, the FLOW level, the held words of the ports, and the
drain of capture records into SF2 (R383).  The COMMIT sink's register writes stand with the register accesses.
-/

namespace Sys2Proof.Machine

/-- The FIFO runs toward the chip: SF0 and SF1 (Table 14.6). -/
def sfInbound (n : Nat) : Bool := decide (n < 2)

/-- Usable depth (R386). -/
def Chip.sfDepth (c : Chip) (n : Nat) : Nat := 64 * (c.rf (SF.SF_CFG n) 12 8 + 1)

/-- Words held. -/
def Chip.sfFill (c : Chip) (n : Nat) : Nat := (c.sf n).fifo.length

/-- The logical FLOW level that EN, the fill level and the level so far give (R388). -/
def Chip.sfLevel (c : Chip) (n : Nat) : Bool :=
  if !c.en (pgSf n) then sfInbound n
  else if c.rf (SF.WM n) 27 16 ≤ c.sfFill n then true
  else if c.sfFill n < c.rf (SF.WM n) 11 0 then false
  else c.rb (SF.SF_STAT n) 0

/-- F follows the fill level, with HI and LO (R388). -/
def Chip.sfFlow (c : Chip) (n : Nat) : Chip :=
  let f := c.sfLevel n
  if f = c.rb (SF.SF_STAT n) 0 then c
  else (c.setF (SF.SF_STAT n) 0 0 (b2n f)).evt (pgSf n) (if f then 0 else 1)

/-- What the FLOW pin drives (R388): nothing while nRESET is asserted, while PD1 is off, and in a power-on reset. -/
def Chip.flowPin (c : Chip) (n : Nat) : PinDrive :=
  if c.domOn 1 && !c.rst.held.contains 5 && !c.rst.held.contains 0 then c.driveH (xor (c.rb (SF.SF_STAT n) 0) (c.rb (SF.SF_CFG n) 4))
  else .off 0

/-- F of a FIFO that is not enabled, as a reset leaves it (R388). -/
def Chip.sfIdle (c : Chip) (n : Nat) : Chip := c.setF (SF.SF_STAT n) 0 0 (b2n (sfInbound n))

/-- Change the words held; the level follows. -/
def Chip.sfPut (c : Chip) (n : Nat) (l : List (DWord × Nat)) : Chip :=
  (c.modSf n (fun s => { s with fifo := l })).sfFlow n

/-- EN in force has gone to 0: the contents are lost (R385); it has gone to 1: the level follows the fill. -/
def Chip.sfEnable (c : Chip) (n : Nat) : Chip :=
  if c.en (pgSf n) then c.sfFlow n else (c.modSf n (fun s => { s with wait := none })).sfPut n []

/-- A push by a producer into an inbound FIFO (R389). -/
def Chip.sfPush (c : Chip) (n : Nat) (w : DWord) : Chip :=
  if c.en (pgSf n) && decide (c.sfFill n < c.sfDepth n) then c.sfPut n ((c.sf n).fifo ++ [(w, 0)])
  else (c.trouble (SF.OVERRUN n)).evt (pgSf n) 2

/-- An outbound producer can push `k` words (R383, R390). -/
def Chip.sfRoom (c : Chip) (n k : Nat) : Bool := c.domOn 1 && c.en (pgSf n) && decide (c.sfFill n + k ≤ c.sfDepth n)

/-- The consumer reads the next word (R390): the checked word, whether it could not be corrected, and the chip after it;
none where the FIFO is empty. -/
def Chip.sfPop (c : Chip) (tb : TimeBase) (n : Nat) : Option (DWord × Bool × Chip) :=
  match (c.sf n).fifo with
  | [] => none
  | (w, e) :: l =>
    let v := if e = 2 then 0#64 else w
    let c := (c.modSf n (fun s => { s with last := v })).sfPut n l
    let c := (c.bump (SF.WORDS n)).perf 0x94 1
    let c := if e = 1 then c.satUp (SF.CORR n) else if e = 2 then (c.trouble (SF.UE n)).evt (pgSf n) 5 else c
    some (v, decide (e = 2), c)

/-- High word that a port has latched for its next read of the other half. -/
def Chip.latchHigh (c : Chip) (p : Port) (a : Nat) (v : Word) : Chip :=
  c.modPort p (fun t => { t with shadow := Tab.set (fun _ => none) t.shadow a (some v) })

/-- A read of DATA_LO (R387, R390). -/
def Chip.dataLoRead (c : Chip) (tb : TimeBase) (p : Port) (n : Nat) : Chip × Word :=
  if sfInbound n then (c, 0#32)
  else
    let r := match c.sfPop tb n with
      | some (w, _, d) => (d, w)
      | none => ((c.trouble (SF.UNDERRUN n)).evt (pgSf n) 3, (c.sf n).last)
    (r.1.latchHigh p (SF.DATA_HI n) (BitVec.ofNat 32 (r.2.toNat / 2 ^ 32)), BitVec.ofNat 32 r.2.toNat)

/-- A read of DATA_HI: the latched word (R387). -/
def Chip.dataHiRead (c : Chip) (p : Port) (n : Nat) : Word :=
  if sfInbound n then 0#32 else (Tab.get (fun _ => none) (c.port p).shadow (SF.DATA_HI n)).getD 0#32

/-- A write of DATA_LO (R387). -/
def Chip.dataLoWrite (c : Chip) (p : Port) (n : Nat) (v : Word) : Chip :=
  if sfInbound n then c.modPort p (fun t => { t with data := Tab.set (fun _ => none) t.data n (some v) }) else c

/-- A write of DATA_HI (R387). -/
def Chip.dataHiWrite (c : Chip) (p : Port) (n : Nat) (v : Word) : Chip :=
  if !sfInbound n then c
  else match Tab.get (fun _ => none) (c.port p).data n with
    | some lo =>
      (c.modPort p (fun t => { t with data := Tab.set (fun _ => none) t.data n none })).sfPush n
        (BitVec.ofNat 64 (lo.toNat + 2 ^ 32 * v.toNat))
    | none => c.trouble (SF.PAIR_ERR n)

/-- A write of SF_CFG or WM: accepted only while EN in force is 0 (R386); SINK reads 0 on an outbound FIFO. -/
def Chip.writeSfCfg (c : Chip) (n a : Nat) (v : Word) : Chip :=
  if c.en (pgSf n) then c.trouble (SF.PAIR_ERR n)
  else
    let rw := maskOf (fldsOf a) (fun k => decide (k = .rw))
    let v := if a = SF.SF_CFG n && !sfInbound n then putFld v 0 0 0 else v
    c.setReg a ((c.reg a &&& ~~~rw) ||| (v &&& rw))

/-- FLUSH (R390). -/
def Chip.sfFlush (c : Chip) (n : Nat) : Chip := c.sfPut n []

/-- RESUME (R393). -/
def Chip.sfResume (c : Chip) (n : Nat) : Chip := c.setF (SF.SF_STAT n) 1 1 0

/-- A write of SF_CTRL. -/
def Chip.writeSfCtrl (c : Chip) (n : Nat) (v : Word) : Chip :=
  let c := c.when (bit v 0) (fun c => c.sfFlush n)
  c.when (bit v 1) (fun c => c.sfResume n)

/-! ### The COMMIT sink -/

/-- The COMMIT sink of FIFO `n` takes words now: its FIFO is enabled and inbound with SINK = COMMIT, and the sink neither
halts nor waits (R391 to R393). -/
def Chip.sinkReady (c : Chip) (n : Nat) : Bool :=
  c.domOn 1 && sfInbound n && c.en (pgSf n) && c.rb (SF.SF_CFG n) 0 && !c.rb (SF.SF_STAT n) 1 && (c.sf n).wait.isNone

/-- The sink halts (R393). -/
def Chip.sinkHalt (c : Chip) (n cause : Nat) : Chip :=
  ((c.setF (SF.SF_STAT n) 1 1 1).setF (SF.SF_STAT n) 3 2 cause).evt (pgSf n) 4

/-- The port that the sink of FIFO `n` counts as (R391). -/
def sinkPort (n : Nat) : Port := if n = 0 then .sink0 else .sink1

/-- The sink consumes the next word if it is a command with the given OPs; `f` is its effect on the chip (Table 14.7). -/
def Chip.sinkTake (c : Chip) (tb : TimeBase) (n : Nat) (ops : Nat → Bool) (f : DWord → Chip → Chip) : Chip :=
  match (c.sf n).fifo with
  | (w, e) :: _ =>
    if c.sinkReady n && decide (e ≠ 2) && ops (w.toNat / 2 ^ 60) then
      match c.sfPop tb n with
      | some (v, _, d) => f v d
      | none => c
    else c
  | [] => c

/-- WAIT_TICK T still waits (Table 14.7): with the tick stopped it waits unless its condition already fails (R392). -/
def Chip.waits (c : Chip) (t : Word) : Bool :=
  let d := (t.toNat + 2 ^ 32 - c.tickNo % 2 ^ 32) % 2 ^ 32
  decide (1 ≤ d ∧ d < 2 ^ 31)

/-! ### The drain of capture records (R383) -/

/-- Records of unit `u` that wait for the drain. -/
def Chip.drainLeft (c : Chip) (u : Nat) : Nat := (c.rn (CU.WR_SEQ u) + 2 ^ 32 - c.rn (CU.RD_SEQ u)) % 2 ^ 32

/-- The unit served next: ascending, starting after the last unit served. -/
def Chip.drainNext (c : Chip) : Option Nat :=
  ((List.range 16).map (fun i => (c.drained + 1 + i) % 16)).find? (fun u =>
    decide ((c.cu u).state ≠ 0) && c.rb (CU.CU_CTRL u) 5 && decide (0 < c.drainLeft u))

/-- The drain reads record `seq` of unit `u`: a word that cannot be corrected reads 0 and sets ECC (R372). -/
def Chip.drainRead (c : Chip) (u seq : Nat) : Chip × DWord :=
  let o := c.seqAt u seq
  let r := c.caddyCheck o
  if r.2 then (r.1.raise (CU.CU_STAT u) (oneBit 5), 0#64) else (r.1, BitVec.ofNat 64 (c.loadLE (caddyMem o) 8))

/-- Drain `k` records from RD_SEQ on into SF2. -/
def Chip.drainRecs (c : Chip) (u : Nat) : Nat → Chip
  | 0 => c
  | k + 1 =>
    let r := c.drainRead u (c.rn (CU.RD_SEQ u))
    ((r.1.sfPut 2 ((r.1.sf 2).fifo ++ [(r.2, 0)])).bump (CU.RD_SEQ u)).drainRecs u k

/-- One drain block of the unit served next (R383). -/
def Chip.drainBlock (c : Chip) : Chip :=
  match c.drainNext with
  | some u =>
    let k := min 32 (c.drainLeft u)
    if c.domOn 3 && c.sfRoom 2 (k + 1) then
      let hdr := BitVec.ofNat 64 (1 * 2 ^ 60 + u * 2 ^ 56 + k * 2 ^ 48 + c.rn (CU.RD_SEQ u))
      (({ c with drained := u }).sfPut 2 ((c.sf 2).fifo ++ [(hdr, 0)])).drainRecs u k
    else c
  | none => c

/-! ### Commands -/

/-- A drain block enters SF2 (R383). -/
def execDrainBlock (s : State) : Res := .next (s.onChip Chip.drainBlock)

/-- A write of DATA_LO (R387). -/
def execDataLoWrite (p : Port) (n : Nat) (v : Word) (s : State) : Res :=
  .next (s.onChip (fun c => c.gated p (SF.DATA_LO n) (fun c => c.dataLoWrite p n v)))

/-- A write of DATA_HI (R387). -/
def execDataHiWrite (p : Port) (n : Nat) (v : Word) (s : State) : Res :=
  .next (s.onChip (fun c => c.gated p (SF.DATA_HI n) (fun c => c.dataHiWrite p n v)))

/-- Writing FLUSH (R390). -/
def execFlush (p : Port) (n : Nat) (s : State) : Res :=
  .next (s.onChip (fun c => c.gated p (SF.SF_CTRL n) (fun c => c.sfFlush n)))

/-- Writing RESUME (R393). -/
def execResume (p : Port) (n : Nat) (s : State) : Res :=
  .next (s.onChip (fun c => c.gated p (SF.SF_CTRL n) (fun c => c.sfResume n)))

/-- A NOP of the command stream (Table 14.7). -/
def execStreamNop (n : Nat) (s : State) : Res :=
  .next (s.onChip (fun c => c.sinkTake s.tb n (fun k => decide (k = 0)) (fun _ c => c)))

/-- A COMMIT of the command stream: as a write of its mask to `CHIP.COMMIT` (Table 14.7). -/
def execStreamCommit (n : Nat) (s : State) : Res :=
  .next (s.onChip (fun c => c.sinkTake s.tb n (fun k => decide (k = 2)) (fun w c =>
    c.gated (sinkPort n) CHIP.COMMIT (fun c => c.commitMask s.tb (w.toNat % 2 ^ 16)))))

/-- A WAIT_TICK of the command stream (R392). -/
def execWaitTick (n : Nat) (s : State) : Res :=
  .next (s.onChip (fun c => c.sinkTake s.tb n (fun k => decide (k = 3)) (fun w c =>
    let t := BitVec.ofNat 32 w.toNat
    if c.waits t then c.modSf n (fun f => { f with wait := some t }) else c)))

/-- The tick that a stream waits for has come (R392). -/
def execWaitTickDone (n : Nat) (s : State) : Res :=
  .next (s.onChip (fun c => match (c.sf n).wait with
    | some t => if c.waits t then c else c.modSf n (fun f => { f with wait := none })
    | none => c))

/-- A word with a reserved OP, or one that cannot be corrected, halts the sink, which consumes it (R393). -/
def Chip.sinkBad (c : Chip) (tb : TimeBase) (n : Nat) : Chip :=
  match (c.sf n).fifo with
  | (w, e) :: _ =>
    if c.sinkReady n && decide (e = 2 ∨ 4 ≤ w.toNat / 2 ^ 60) then
      match c.sfPop tb n with
      | some (_, ue, d) => d.sinkHalt n (if ue then 3 else 1)
      | none => c
    else c
  | [] => c

/-- A word that halts the sink (R393). -/
def execStreamReservedOp (n : Nat) (s : State) : Res := .next (s.onChip (fun c => c.sinkBad s.tb n))

end Sys2Proof.Machine
end

