-- ==== Sys2Proof/Machine/Units.lean ====
section
/-!
DEFINITION. Commit units (R66 to R72): the writes of a unit, the checks and their reasons (Table 2.10), refusal (R69) and
application with what each page does then.
-/

namespace Sys2Proof.Machine

/-! ### The writes of a unit -/

/-- The writes of a unit in ascending address: a reset unit returns every RWC register of its page to its reset value
(R57), which the part may decide. -/
def CUnit.all (u : CUnit) (reset : Nat → Word := regReset) : List (Nat × Word) :=
  match u.kind with
  | .reset b => (rowAddrs b (fun k => decide (k = .rwc))).filterMap (fun e => if b + 0x40 ≤ e.1 then some (e.1, reset e.1) else none)
  | _ => u.writes.filterMap (fun e => e.2.map (fun v => (e.1, v)))

/-- One captured write on top of the values in force. -/
def Chip.putRwc (c : Chip) (e : Nat × Word) : Chip :=
  let m := maskOf (fldsOf e.1) (fun k => decide (k = .rwc))
  c.setReg e.1 ((c.reg e.1 &&& ~~~m) ||| (e.2 &&& m))

/-- The pages of a unit. -/
def CUnit.pages (u : CUnit) : List Nat :=
  match u.kind with
  | .reset b => [b]
  | .fsClear a => [axPg a]
  | _ => (u.all.map (fun e => pageBase e.1)).dedup

/-- Instances of a page type among the pages of a unit. -/
def pagesOf (type : Nat) (ps : List Nat) : List Nat :=
  ps.filterMap (fun b => match pageAt b with | some p => if p.page.type = type then some p.inst else none | none => none)

/-! ### Conditions

A condition is named by its kind and the object it is about, and carries the code of its reason.  `o` is the state against
which the unit is checked, `c` the state with all or the first of its writes. -/

/-- A broken condition. -/
abbrev Cond := Nat × Nat × Nat

def cond (p : Bool) (kind obj code : Nat) : List Cond := if p then [(kind, obj, code)] else []

/-- The register has another value than before. -/
def changed (o c : Chip) (a : Nat) : Bool := decide (o.reg a ≠ c.reg a)

/-- The segment of an axis in force is running: the axis is enabled (R17). -/
def Chip.axRuns (c : Chip) (a : Nat) : Bool := c.axEn a && c.segRun (c.axSeg a)

/-- R15 to R17, over the whole map. -/
def Chip.mapConds (o c : Chip) (axes : List Nat) : List Cond :=
  let en := c.enAxes
  let place := fun a => (c.axSeg a * 32 + c.axNode a) * 4 + c.axIdx a
  let segs := List.range 16
  en.flatMap (fun a =>
    cond (decide (c.axNode a = 0 ∨ 16 < c.axNode a)) 1 a 1 ++
    cond (decide (c.nSegs ≤ c.axSeg a)) 2 a 1 ++
    cond (en.any (fun b => decide (b < a ∧ place b = place a))) 3 (place a) 1 ++
    cond (decide (0 < c.axIdx a) && !en.any (fun b => decide (place b + 1 = place a))) 4 (place a) 1) ++
  segs.flatMap (fun g => cond (decide ((if c.slowSeg g then 8 else 32) < (c.segAxes g).length)) 5 g 1) ++
  axes.flatMap (fun a =>
    cond (changed o c (AXIS.MAP a) && (o.axRuns a || (c.axEn a && o.segRun (c.axSeg a)))) 6 a 1)

/-- A signed register exceeds another. -/
def Chip.above (c : Chip) (x y : Nat) : Bool := decide (c.ri y < c.ri x)

/-- The RANGE conditions on one loop block of one bank (R191, R202, R208). -/
def Chip.loopConds (c : Chip) (a k : Nat) (sel : Bool) : List Cond :=
  let b := bankAddr a k sel
  let mode := c.axMode a
  let out := fun r => decide (c.ri r < -32768 ∨ 32767 < c.ri r)
  let obj := a * 8 + k * 2 + b2n sel
  cond (c.above (b + 0x20) (b + 0x24)) 10 obj 2 ++ cond (c.above (b + 0x28) (b + 0x2C)) 11 obj 2 ++
  cond (decide (c.ri (b + 0x34) < 0)) 12 obj 2 ++
  cond (c.rb (b + 0x30) 0 && !(decide (k = 0 ∧ mode = 2))) 13 obj 2 ++
  cond (decide (2 ≤ k ∧ mode = 0) && (out (b + 0x28) || out (b + 0x2C))) 14 obj 2

/-- STILL_T is outside its range (R217). -/
def stillBad (v : Nat) : Bool := decide (v < 1000 ∨ 2000000000 < v)

/-- The conditions on one AXIS page (R155, R187, R191, R202, R208, R231, R241, R259). -/
def Chip.axisConds (o c : Chip) (a : Nat) : List Cond :=
  let mode := c.axMode a
  let ctrl := c.rf (AXIS.LMODE a) 5 4
  let casc := c.reg (AXIS.CASC a)
  let run := o.axRuns a
  let home := c.axHome a
  let cfg := c.reg (AXIS.OBS_CFG a)
  cond (decide (o.axHome a ≠ home) && run) 20 a 3 ++
  cond (c.axEn a && decide (c.nPots ≤ home)) 21 a 2 ++
  cond (c.axEn a && decide (home < c.nPots ∧ (c.pot home).state = 0)) 22 a 2 ++
  cond (c.rb (AXIS.LMODE a) 12 && decide (ctrl ≠ 0 ∨ mode = 2)) 23 a 2 ++
  cond (decide (fld casc 5 4 < fld casc 3 2 ∨ fld casc 3 2 < fld casc 1 0)) 24 a 2 ++
  cond (decide (mode = 3 ∨ ctrl = 3)) 25 a 2 ++
  cond (decide (mode = 2 ∧ ctrl ≠ 0)) 26 a 2 ++
  cond (decide (2 ≤ c.rf (AXIS.LMODE a) 9 8)) 27 a 2 ++
  (List.range 4).flatMap (fun k => c.loopConds a k false ++ c.loopConds a k true) ++
  cond (decide (o.axMode a ≠ mode) && run) 28 a 3 ++
  cond (decide (o.rb (AXIS.LMODE a) 12 ≠ c.rb (AXIS.LMODE a) 12) && run) 29 a 3 ++
  cond (decide (c.rf (AXIS.V_HI a) 30 0 ≤ c.rf (AXIS.V_LO a) 30 0)) 30 a 2 ++
  cond (stillBad (c.rn (AXIS.STILL_T a))) 31 a 2 ++
  cond (c.rb (AXIS.FB_CFG a) 8 && decide (c.rf (AXIS.FB_CFG a) 7 0 = 0)) 32 a 2 ++
  cond (decide (fld cfg 23 16 = 0)) 33 a 2 ++ cond (decide (26 < fld cfg 4 0)) 34 a 2 ++
  cond (decide (c.rf (AXIS.LEARN a) 18 16 = 0 ∨ 4 < c.rf (AXIS.LEARN a) 18 16)) 35 a 2

/-- The conditions that axes and groups share (R241, R243). -/
def Chip.groupConds (c : Chip) : List Cond :=
  let ms := c.memTable
  (List.range 8).flatMap (fun p => cond (decide (48 < (c.served p).length)) 40 p 2) ++
  ms.flatMap (fun x =>
    cond (ms.any (fun y => decide (y.axis = x.axis ∧ y.g < x.g))) 41 x.axis 2 ++
    cond (decide (x.role ≠ 1) && !c.rb (AXIS.LMODE x.axis) 12) 42 (x.g * 16 + x.m) 2) ++
  (List.range 32).flatMap (fun g => cond (decide (4 < (ms.filter (fun x => decide (x.g = g ∧ x.role = 0))).length)) 43 g 2)

/-- The signature ring overlaps an allocation in use, or ends outside the Caddy (R370). -/
def Chip.sigBad (c : Chip) : Bool :=
  decide (2048 < c.sigPages.1 + c.sigPages.2) || (List.range 16).any (fun n => pagesMeet c.sigPages (c.cuPages n))

/-- Some door group is not ISOLATED. -/
def Chip.someAwake (c : Chip) : Bool := (List.range 32).any (fun g => decide (c.seqState g ≠ 15))

/-- The conditions on one SEQ page (R233, R243, R244, R260, R370), of which `ws` has been written.  Table 9.11 calls PT_OFS 128-byte
aligned and states no range for it: an offset that is no multiple of 128 is not refused (DESIGN CHOICE, log 78).  Nor does it state one
for MEM.ROLE, of which it names the codes 0 to 3: a code of 4 to 7 is refused with RANGE, with EN = 0 too, and PROVE = 3 is not refused
(DESIGN CHOICE, log 97). -/
def Chip.seqConds (o c : Chip) (g : Nat) (ws : List (Nat × Word)) : List Cond :=
  let awake := decide (o.seqState g ≠ 15)
  cond (ws.any (fun e => decide (e.1 = SEQ.CMD g ∧ ¬ (1 ≤ fld e.2 3 0 ∧ fld e.2 3 0 ≤ 6)))) 50 g 2 ++
  (List.range 16).flatMap (fun m =>
    cond (decide (3 < c.rf (SEQ.MEM g m) 26 24)) 51 (g * 16 + m) 2 ++
    cond (awake && changed o c (SEQ.MEM g m)) 52 (g * 16 + m) 3 ++
    cond (awake && (changed o c (SEQ.POS_A g m) || changed o c (SEQ.POS_B g m))) 53 (g * 16 + m) 3 ++
    cond (awake && changed o c (SEQ.BAND g m)) 54 (g * 16 + m) 3) ++
  if g = 0 then
    cond (decide (c.rf (SEQ.SVC_CFG 0) 9 8 = 3)) 55 0 2 ++ cond c.sigBad 56 0 2 ++
    cond (o.someAwake && (changed o c (SEQ.SVC_CFG 0) || changed o c (SEQ.PT_OFS 0) || changed o c (SEQ.SVC_TAB 0))) 57 0 3
  else []

/-- The conditions on one SEG page (R287, R293, R295, R326), of which `ws` are written; GLOSS, which is 3 after reset, lies in 1 to 255
(R281).  BELSY_CFG may not be written at all while a segment runs (Table 10.18, Table 2.10). -/
def Chip.segConds (o c : Chip) (ws : List (Nat × Word)) (g : Nat) : List Cond :=
  (List.range 16).flatMap (fun k =>
    cond (decide (c.rf (SEG.NPARAM g k) 31 24 = 0)) 60 (g * 16 + k) 2 ++
    cond (o.segRun g && changed o c (SEG.NPARAM g k)) 61 (g * 16 + k) 3) ++
  cond (decide (g = 0) && !o.runSegs.isEmpty && ws.any (fun e => decide (e.1 = SEG.BELSY_CFG 0))) 62 g 3 ++
  cond (decide (c.rf (SEG.ADMIT_CFG g) 7 0 = 0)) 63 g 2 ++
  cond (!o.en (pgSeg g) && c.en (pgSeg g) &&
    (match o.modeInForce with | some m => !c.modeValid m g | none => false)) 64 g 3

/-- The speeds of the two ports of a segment that is enabled differ (R331). -/
def Chip.speedConds (c : Chip) (g : Nat) : List Cond :=
  cond (c.en (pgSeg g) && decide (c.rb (LP.LP_CFG (2 * g)) 8 ≠ c.rb (LP.LP_CFG (2 * g + 1)) 8)) 65 g 2

/-- The conditions on one LP page (R331, R335), of which `ws` has been written. -/
def Chip.lpConds (o c : Chip) (ws : List (Nat × Word)) (n : Nat) : List Cond :=
  let w := c.reg (LP.LP_CFG n)
  let run := o.segRun (n / 2)
  cond (decide (fld w 5 4 = 3)) 70 n 2 ++
  cond (decide (fld w 2 0 ≠ 0) && !Config.testMode (bit w 8) (fld w 2 0)) 71 n 2 ++
  cond (run && changed o c (LP.LP_CFG n)) 72 n 3 ++ cond (run && ws.any (fun e => decide (e.1 = LP.LP_CFG n ∧ fld e.2 2 0 ≠ 0))) 73 n 3

/-- The conditions on one LF page (R211, R213, R231). -/
def Chip.lfConds (c : Chip) (n : Nat) : List Cond :=
  cond (decide (5 ≤ c.rf (LF.LF_CFG n) 2 0)) 80 n 2 ++ cond (decide (c.rf (LF.LF_CFG n) 5 4 = 3)) 81 n 2 ++
  cond (decide (c.rf (LF.V_HI n) 30 0 ≤ c.rf (LF.V_LO n) 30 0)) 82 n 2 ++ cond (stillBad (c.rn (LF.STILL_T n))) 83 n 2

/-- The conditions on one SF page (R386). -/
def Chip.sfConds (c : Chip) (n : Nat) : List Cond :=
  let lo := c.rf (SF.WM n) 11 0
  let hi := c.rf (SF.WM n) 27 16
  cond (c.en (pgSf n) && !decide (1 ≤ lo ∧ lo < hi ∧ hi ≤ c.sfDepth n)) 84 n 2

/-- A source is reserved, or an event pin that is an output (R404). -/
def Chip.srcBad (c : Chip) (k : Nat) : Bool :=
  decide (0x8A ≤ k) || (decide (k < 48) && c.rb (epCfg k) 31)

/-- The conditions on the lines of the matrix (R404). -/
def Chip.evxConds (c : Chip) : List Cond :=
  (List.range 64).flatMap (fun n =>
    let w := c.reg (EVX.LINE n)
    cond (bit w 31 && (c.srcBad (fld w 7 0) || (decide (fld w 29 28 ≠ 0) && c.srcBad (fld w 15 8)))) 85 n 2)

/-- The conditions on one bank of event pins (R399, R404). -/
def Chip.epConds (c : Chip) (b : Nat) : List Cond :=
  (List.range 8).flatMap (fun p =>
    let w := c.reg (EP.STR0 b p)
    cond (decide (c.rf (EP.EP_CFG b p) 29 28 = 3)) 86 (8 * b + p) 2 ++
    cond (decide (fld w 31 16 = 0 ∧ fld w 15 8 ≠ 0)) 87 (8 * b + p) 2)

/-- The conditions on one LEAF page (R132) and on one POT page (R180). -/
def Chip.leafConds (o c : Chip) (n : Nat) : List Cond := cond (c.en (lfPg n) && decide ((o.leaf n).state = 3)) 88 n 3
def Chip.potConds (o c : Chip) (p : Nat) : List Cond :=
  let run := (List.range 8).any (fun i => decide ((o.leaf (8 * p + i)).state = 2))
  let regs := [POT.ENTRY_FULL p, POT.ENTRY_TORQUE p, POT.ENTRY_AUX p, POT.SLOW_ENTRY p 0, POT.SLOW_ENTRY p 1, POT.SLOW_ENTRY p 2,
    POT.SLOW_ENTRY p 3, POT.SLOW_ENTRY p 4, POT.SLOW_ENTRY p 5, POT.SLOW_ENTRY p 6, POT.SLOW_ENTRY p 7]
  regs.flatMap (fun a => cond (run && changed o c a) 89 a 3)

/-- Every condition that a unit breaks whose writes `ws` stand in `c`, on top of `o` (R66, R68): the pages it writes are
judged, and what they share with others. -/
def Chip.broken (o c : Chip) (u : CUnit) (ws : List (Nat × Word)) : List Cond :=
  let ps := u.pages
  let axes := pagesOf 0x19 ps
  let lps := pagesOf 0x13 ps
  let seqs := pagesOf 0x18 ps
  let segs := pagesOf 0x12 ps
  let only := fun (p : Bool) (l : List Cond) => if p then l else []
  cond (o.isStandby && !u.journal && decide (u.kind ≠ .seqDemand)) 90 0 4 ++
  only (!axes.isEmpty || !lps.isEmpty) (Chip.mapConds o c axes) ++
  axes.flatMap (Chip.axisConds o c) ++
  only (!axes.isEmpty || !seqs.isEmpty) c.groupConds ++
  seqs.flatMap (fun g => Chip.seqConds o c g (match u.kind with | .reset _ => [] | _ => ws)) ++
  segs.flatMap (Chip.segConds o c ws) ++
  ((segs ++ lps.map (· / 2)).dedup).flatMap c.speedConds ++
  lps.flatMap (Chip.lpConds o c ws) ++
  (pagesOf 0x14 ps).flatMap c.lfConds ++
  (pagesOf 0x17 ps).flatMap c.sfConds ++
  only (!(pagesOf 0x0F ps).isEmpty || !(pagesOf 0x15 ps).isEmpty) c.evxConds ++
  (pagesOf 0x15 ps).flatMap c.epConds ++
  (pagesOf 0x11 ps).flatMap (Chip.leafConds o c) ++
  (pagesOf 0x10 ps).flatMap (Chip.potConds o c)

/-! ### Refusal (R69) -/

/-- The lowest code of a list of conditions. -/
def lowCode (l : List Cond) : Nat := l.foldl (fun m x => min m x.2.2) 15

/-- The offending register and its reason: the first after whose application the state breaks a condition of `whole`. -/
def Chip.offend (o c : Chip) (u : CUnit) (whole : List Cond) : List (Nat × Word) → List (Nat × Word) → Option (Nat × Nat)
  | _, [] => none
  | past, e :: rest =>
    let d := c.putRwc e
    let hit := (Chip.broken o d u (past ++ [e])).filter (fun x => whole.contains x)
    if hit.isEmpty then Chip.offend o d u whole (past ++ [e]) rest else some (e.1, lowCode hit)

/-- Group that a refusal reports, and AUTO (R71). -/
def Chip.unitGrp (c : Chip) (u : CUnit) : Nat × Bool :=
  match u.kind with
  | .group g => (g, false)
  | _ => (c.cgrp ((u.pages).headD 0), true)

/-- Address that a unit without writes reports. -/
def CUnit.place (u : CUnit) : Nat := match u.kind with | .fsClear a => AXIS.STAT a | .reset b => b | _ => 0

/-- A unit is refused (R69): the register is named by the search, or is the unit's own where it writes none. -/
def Chip.refuse (o : Chip) (u : CUnit) (whole : List Cond) : Chip :=
  let r := (Chip.offend o o u whole [] (u.all o.resetOf)).getD (((u.all.headD (u.place, 0#32)).1), lowCode whole)
  let g := o.unitGrp u
  let c := u.pages.foldl (fun (c : Chip) (b : Nat) => c.evt b 31) o
  let c := (((c.setF CHIP.COMMIT_LAST 31 28 r.2).setF CHIP.COMMIT_LAST 27 24 g.1).setF CHIP.COMMIT_LAST 23 23 (b2n g.2)).setF
    CHIP.COMMIT_LAST 15 0 (c.tickNo % 2 ^ 16)
  let c := match u.kind with
    | .group k => if o.isStandby && !u.journal then c else c.modStby (fun t => { t with refused := Nat.lor t.refused (2 ^ k) })
    | _ => c
  ((c.setN CHIP.REFUSE_ADDR r.1).satUp CHIP.COMMIT_REF).evt pgChip 0

/-! ### Application -/

/-- The unit writes the register. -/
def CUnit.has (u : CUnit) (a : Nat) : Bool := u.all.any (fun e => decide (e.1 = a))

/-- The configuration half of an axis is owed (R153). -/
def Chip.owe (c : Chip) (a : Nat) : Chip := c.modAx a (fun x => { x with cfgDue := true })
def Chip.oweAll (c : Chip) (l : List Nat) : Chip := l.foldl (fun (c : Chip) (a : Nat) => c.owe a) c

/-- Axes whose cups run. -/
def Chip.runningAxes (c : Chip) : List Nat := (List.range 64).filterMap (fun n => (c.leaf n).cup.map (fun r => r.cup.axis))

/-- The feedback parts of configuration halves are written, or wait for a running late cup (R153, R228). -/
def Chip.feedHalves (c : Chip) (tb : TimeBase) (axes : List Nat) : Chip :=
  let c := if c.ecc.isEmpty then c else axes.foldl (fun c a => c.smemWrite tb (c.axHome a) (c.axBlock a + 0x180) 0x40) c
  let run := c.runningAxes
  let put := fun (m : Tab Byte) (a : Nat) =>
    if run.contains a || decide (c.nPots ≤ c.axHome a) then m
    else (((c.cfgFeedback a).flatMap (leBytes 4)).zipIdx).foldl
      (fun (m : Tab Byte) (e : Byte × Nat) => Tab.set (fun _ => 0#8) m (c.axBlock a + 0x180 + e.2) e.1) m
  ({ c with mem := axes.foldl put c.mem }).oweAll (axes.filter (fun a => run.contains a))

/-- A change of the active set of loop `k` (R194). -/
def Chip.coefChange (c : Chip) (a k : Nat) : Chip :=
  let x := c.ax a
  if x.coefNew.getD k false then
    c.modAx a (fun x => { x with
      coefGen := x.coefGen.set k ((x.coefGen.getD k 0 + 1) % 256), coefNew := x.coefNew.set k false })
  else c

/-- A committed FLAG_CLR (R193). -/
def Chip.clrChange (c : Chip) (a : Nat) : Chip :=
  let m := c.reg (AXIS.FLAG_CLR a)
  c.modAx a (fun x =>
    if x.clrNew then { x with clrMask := m, clrGen := (x.clrGen + 1) % 256, clrNew := false }
    else { x with clrMask := x.clrMask ||| m })

/-- HOME of an axis that may be moved has changed: its state block is copied, or starts from 0 (R155, R179). -/
def Chip.homeChange (o c : Chip) (tb : TimeBase) (a : Nat) : Chip :=
  let old := o.pot (o.axHome a)
  if o.axHome a = c.axHome a then c
  else if decide (old.state = 0 ∨ (old.state = 2 ∧ old.qcause = 3)) || (o.ax a).lost then
    (c.smemWrite tb (c.axHome a) (c.axBlock a) 0x400).fillZero (c.axBlock a) 0x400
  else
    let d := (c.smemMeet tb (o.axHome a) (o.axBlock a) 0x400).smemWrite tb (c.axHome a) (c.axBlock a) 0x400
    d.setBytes (c.axBlock a) (d.bytes (o.axBlock a) 0x400)

/-- A commit of PLACE while the segment is stopped ends the axis's orphanage (R179). -/
def Chip.placeCommit (c : Chip) (a : Nat) : Chip :=
  if (c.ax a).lost then (c.fillZero (c.axBlock a) 0x400).modAx a (fun x => { x with lost := false }) |>.setF (AXIS.STAT a) 29 29 0
  else c.setF (AXIS.STAT a) 29 29 0

/-- FS of an axis is cleared by a unit accepted after its last setting, and not in the nanosecond of it (R278). -/
def Chip.fsClearApply (c : Chip) (tb : TimeBase) (u : CUnit) (a : Nat) : Chip :=
  if (c.ax a).fsAt < tb.extOf u.inst then c.setF (AXIS.STAT a) 31 31 0 else c

/-- What the commit of an AXIS page does beside its registers. -/
def Chip.axisApply (o c : Chip) (tb : TimeBase) (u : CUnit) (a : Nat) : Chip :=
  let still := !o.axRuns a
  let c := each (List.range 4) (fun k d => if o.activeSet a k ≠ c.activeSet a k then d.coefChange a k else d) c
  let c := c.when (u.has (AXIS.FLAG_CLR a)) (fun c => c.clrChange a)
  let c := c.when (c.rb (AXIS.FB_CTRL a) 0) (fun c =>
    (c.setF (AXIS.FB_CTRL a) 0 0 0).modAx a (fun x => { x with rezDue := true }))
  let c := c.when (decide (o.rf (AXIS.FB_CFG a) 31 31 ≠ c.rf (AXIS.FB_CFG a) 31 31 ∨ o.rf (AXIS.FB_CFG a) 27 24 ≠ c.rf (AXIS.FB_CFG a) 27 24))
    (fun c => c.modAx a (fun x => { x with rezDue := true }))
  let c := Chip.homeChange o c tb a
  let c := c.when (still && u.has (AXIS.PLACE a)) (fun c => c.placeCommit a)
  let c := c.when still (fun c => c.setF (AXIS.STAT a) 30 30 0)
  let c := c.when (!o.axEn a && c.axEn a) (fun c => c.modAx a (fun x => { x with
    lastCmd := [], lastComp := 0, holdRun := 0, img := none }))
  let c := match u.kind with
    | .fsClear _ | .reset _ => c.fsClearApply tb u a
    | _ => c
  c.owe a

/-- A command enters the slot of a group (R244); CODE reads 0 from here on. -/
def Chip.seqCmdApply (c : Chip) (tb : TimeBase) (g : Nat) : Chip :=
  let k := c.rf (SEQ.CMD g) 3 0
  let c := c.setF (SEQ.CMD g) 3 0 0
  if k = 0 then c
  else if k = 6 then c.learnReset tb g
  else
    let c := c.when (c.grp g).slot.isSome (fun c => c.trouble (SEQ.CMD_LOST g))
    c.modGrp g (fun t => { t with slot := some k })

/-- EN of a Leaf has been committed (Table 4.7). -/
def Chip.leafApply (c : Chip) (tb : TimeBase) (n : Nat) : Chip :=
  let l := c.leaf n
  if c.en (lfPg n) then
    if l.state = 1 then c.modLeaf n (fun l => { l with state := 2, halting := false, runSince := tb.cycle, icache := [] })
    else c.modLeaf n (fun l => { l with halting := false })
  else if l.state = 2 then (c.modLeaf n (fun l => { l with halting := true })).settleLeaf n
  else c

/-- What an applied unit does beside its registers; `o` is the state before it. -/
def Chip.applyEffects (o c : Chip) (tb : TimeBase) (u : CUnit) : Chip :=
  let ps := u.pages
  let axes := pagesOf 0x19 ps
  let seqs := pagesOf 0x18 ps
  let owner := fun (c : Chip) (g : Nat) => ((c.memTable.filter (fun x => decide (x.g = g))).map (fun x => x.axis))
  let c := axes.foldl (fun (c : Chip) (a : Nat) => Chip.axisApply o c tb u a) c
  let c := seqs.foldl (fun (c : Chip) (g : Nat) => ((c.seqCmdApply tb g).oweAll (owner o g)).oweAll (owner c g)) c
  let c := if axes.isEmpty then c
    else each (List.range c.nPots) (fun p c => if o.served p = c.served p then c else c.oweAll (c.served p)) c
  let c := (pagesOf 0x11 ps).foldl (fun (c : Chip) (n : Nat) => c.leafApply tb n) c
  let c := (pagesOf 0x12 ps).foldl (fun (c : Chip) (g : Nat) => if o.en (pgSeg g) && !c.en (pgSeg g) then c.segStop g else c) c
  let c := (pagesOf 0x13 ps).foldl (fun (c : Chip) (n : Nat) => c.portSet tb n
    (decide (o.rf (LP.LP_CFG n) 8 4 ≠ c.rf (LP.LP_CFG n) 8 4))) c
  let c := (pagesOf 0x14 ps).foldl (fun (c : Chip) (n : Nat) =>
    let c := if c.rb (LF.LF_CTRL n) 0 then c.lfLoad tb n else c
    c.feedHalves tb ((List.range c.nAxes).filter (fun a => decide (c.rf (AXIS.FB_CFG a) 27 24 = n)))) c
  let c := (pagesOf 0x17 ps).foldl (fun (c : Chip) (n : Nat) => c.sfEnable n) c
  let c := (pagesOf 0x15 ps).foldl (fun (c : Chip) (b : Nat) => each (below 8 (fun p =>
    decide (o.rb (EP.EP_CFG b p) 27 ≠ c.rb (EP.EP_CFG b p) 27) && c.pinLive (8 * b + p))) (fun p c => c.actFlip tb (8 * b + p)) c) c
  -- a level that is pending is judged against the MINPW in force (R402)
  let c := (pagesOf 0x15 ps).foldl (fun (c : Chip) (b : Nat) =>
    each (below 8 (fun p => c.pinLive (8 * b + p))) (fun p c => c.pinSettle tb (8 * b + p)) c) c
  if (pagesOf 0x0F ps).isEmpty then c else c.relevel tb (c.edgeNow tb) 17

/-- A unit that passes every check applies whole (R66, R67). -/
def Chip.applyUnit (o : Chip) (tb : TimeBase) (u : CUnit) : Chip :=
  let c := (u.all o.resetOf).foldl Chip.putRwc o
  let c := Chip.applyEffects o c tb u
  -- what a standby changes while the image comes does not come with it (R352)
  let c := c.when (o.isStandby && u.journal && decide (o.stby.sstate = 1)) (fun c => c.modStby (fun t => { t with
    changed := t.changed ++ (u.all o.resetOf).map (fun e => e.1) }))
  (c.bump CHIP.COMMIT_OK).perf 0x8E 1

/-- One unit at its instant. -/
def Chip.runUnit (c : Chip) (tb : TimeBase) (u : CUnit) : Chip :=
  let whole := Chip.broken c ((u.all c.resetOf).foldl Chip.putRwc c) u (u.all c.resetOf)
  if whole.isEmpty then c.applyUnit tb u else Chip.refuse c u whole

/-- The lowest register address of a unit. -/
def CUnit.first (u : CUnit) : Nat := (u.all.headD (u.place, 0#32)).1

/-- A unit takes its place before those that were accepted after it, but after those of its own instant with a lower register address
(R71); one port's writes of a register keep their order (R52). -/
def placeUnit (u : CUnit) : List CUnit → List CUnit
  | [] => [u]
  | v :: l => if v.inst = u.inst ∧ v.first < u.first then v :: placeUnit u l else u :: v :: l

/-- Units in the order of R66 and R71: group units in ascending group number, then the others as they were accepted, those of one instant
in ascending register address, and last the unit of lock demands (R248). -/
def orderUnits (us : List CUnit) : List CUnit :=
  let single := us.filter (fun u => match u.kind with | .group _ | .seqDemand => false | _ => true)
  (List.range 16).flatMap (fun g => us.filter (fun u => decide (u.kind = .group g))) ++
  single.foldr placeUnit [] ++
  us.filter (fun u => decide (u.kind = .seqDemand))

/-- The units that satisfy `p` leave the queue and are checked and applied in order. -/
def Chip.runUnits (c : Chip) (tb : TimeBase) (p : CUnit → Bool) : Chip :=
  let us := orderUnits (c.cm.units.filter p)
  let c := { c with cm := { c.cm with units := c.cm.units.filter (fun u => !p u) } }
  us.foldl (fun (c : Chip) (u : CUnit) => c.runUnit tb u) c

/-- REZERO_GEN is incremented at most once for what applies at one instant (R224). -/
def Chip.rezero (c : Chip) (a : Nat) : Chip :=
  c.modAx a (fun x => if x.rezDue then { x with rezGen := (x.rezGen + 1) % 256, rezDue := false } else x)

/-- The configuration halves that are owed are written (R153, step 4 of R235). -/
def Chip.writeHalves (c : Chip) (tb : TimeBase) : Chip :=
  let axes := c.axes.filterMap (fun e => if e.2.cfgDue then some e.1 else none)
  axes.foldl (fun (c : Chip) (a : Nat) => (c.rezero a).dueCfg tb a) c

/-- A channel whose EN in force has become 0 has had it not throughout the sample interval (R215). -/
def Chip.lfInterval (c : Chip) : Chip :=
  each (below 16 (fun n => !c.en (pgLf n))) (fun n c => c.modLf n (fun l => { l with enAll := false })) c

/-- The first unit accepted while no tick ran, in the order of R66, is checked and applied (R72); a start that becomes pending
meanwhile does not hold it back. -/
def Chip.idleApply (c : Chip) (tb : TimeBase) : Chip :=
  match orderUnits (c.cm.units.filter (fun u => decide (u.due = 0))) with
    | u :: _ => (Chip.runUnits c tb (fun v => decide (v = u))).writeHalves tb |>.lfInterval
    | [] => c

/-! ### Commands -/

/-- A captured unit applies while no tick runs (R72). -/
def execIdleUnitApply (s : State) : Res := .next (s.onChip (fun c => c.idleApply s.tb))

end Sys2Proof.Machine
end

