-- ==== Sys2Proof/Machine/Startup.lean ====
section
/-!
DEFINITION. Line start-up (R319 to R322), tenure (R362), delay rounds (R289, R314, R315, R345) and the ways into the
states STANDBY and HEAD.
-/

namespace Sys2Proof.Machine

/-! ### Roles and tenure -/

/-- Configured role: 0 MONITOR, 1 HOME, 2 PEER (R342). -/
def Chip.role (c : Chip) : Nat := c.rf STBY.CFG 1 0
/-- Rank of the standing (R319). -/
def Chip.rank (c : Chip) : Nat := if c.role = 1 then 0 else 1
/-- The role is head-capable. -/
def Chip.headCapable (c : Chip) : Bool := decide (c.role ≠ 0)
/-- The starting tenure (R322): 0 where no greater tenure exists. -/
def Chip.startTenure (c : Chip) : Nat := (max c.tenureRet c.stby.seen + 1) % 2 ^ 16

/-! ### States of the line -/

/-- No command has been sent since the chip became head (R28). -/
def Chip.forgetCommands (c : Chip) : Chip :=
  (c.axes.map (fun e => e.1)).foldl (fun (c : Chip) (a : Nat) => c.modAx a (fun x => { x with lastCmd := [], lastComp := 0 })) c

/-- SSTATE changes with its event. -/
def Chip.setSstate (c : Chip) (v : Nat) : Chip :=
  if c.stby.sstate = v then c else (c.modStby (fun t => { t with sstate := v })).evt pgStby 1

/-- The chip becomes head with a tenure. -/
def Chip.becomeHead (c : Chip) (tenure : Nat) : Chip :=
  let c := ((c.holdTenure tenure).setLstate 3).forgetCommands
  (c.setSstate 0).modStby (fun t => { t with deposed := false, handover := none, handReq := false, claim := none, silentRun := 0, own := [], sent := 0 })

/-- Entry into catch-up, or its restart at ALIGN (R351, R352). -/
def Chip.enterCatchup (c : Chip) : Chip :=
  let c := (c.setSstate 1).modStby (fun t => { t with
    aligned := false, syncP := none, journal := [], sealed := none, unsealed := false, oosNext := false, caught := [], catchPubs := [],
    catchBlocks := [], imageEnd := false, slowWait := [], changed := [], pubAt := [] })
  (((c.setF STBY.CATCH 31 28 0).setF STBY.CATCH 8 0 0).trouble STBY.OOS).evt pgStby 9

/-- The chip enters STANDBY with a cause (R320, R363, R366); a change of mode that it had pending ends (R310). -/
def Chip.enterStandby (c : Chip) (cause : Nat) : Chip :=
  let c := c.when c.tg.change.isSome (fun c => c.mcAbandon 8 0 0)
  let c := (c.setLstate 4).setF TICK.LINE_STAT 27 24 cause
  let c := c.modTg (fun t => { t with lineLeft := 0 })
  if c.stby.paired && decide (c.stby.sstate = 0) then c.enterCatchup else c

/-- The unit ID of the sender whose frame ended a start (R320). -/
def Chip.setRival (c : Chip) (id : Nat) : Chip := c.setPair TICK.RIVAL_LO TICK.RIVAL_HI (id % 2 ^ 40)

/-- The chip listens: for L ticks from the next T0 on, or from the T0 of this instant (R320). -/
def Chip.enterListen (c : Chip) : Chip :=
  (c.setLstate 1).modTg (fun t => { t with lineLeft := 4 + 2 * c.rank, quietNs := 0 })

/-- Enter COLDSTART for its 3 ticks; `whole` says that the tick of this instant is one of them (R321). -/
def Chip.enterColdstart (c : Chip) (whole : Bool) : Chip :=
  (c.setLstate 2).modTg (fun t => { t with lineLeft := if whole then 3 else 4, coldSent := !whole })

/-! ### Start-up -/

/-- L ticks of LISTEN have ended (R321, R322). -/
def Chip.listenEnd (c : Chip) : Chip :=
  if c.tg.running && decide (c.lstate = 1 ∧ c.tg.lineLeft = 0 ∧ c.startTenure ≠ 0) && c.headCapable then c.enterColdstart true else c

/-- Three COLDSTART ticks have ended (R321). -/
def Chip.coldEnd (c : Chip) : Chip :=
  if c.tg.running && decide (c.lstate = 2 ∧ c.tg.lineLeft = 0) then c.becomeHead c.startTenure else c

/-- The payload of a COLDSTART frame (Table 10.15). -/
def Chip.coldPay (c : Chip) : List Byte :=
  beBytes 8 c.unitId ++ beBytes 1 c.role ++ beBytes 1 c.rank ++ List.replicate 6 0#8

/-- The COLDSTART frames of this tick (R321). -/
def Chip.coldLaunch (c : Chip) (tb : TimeBase) : Chip :=
  if c.tg.running && decide (c.lstate = 2) && !c.tg.coldSent && decide (c.gatherOfs ≤ c.ofs tb) then
    let c := c.modTg (fun t => { t with coldSent := true })
    c.runSegs.foldl (fun (c : Chip) (g : Nat) =>
      c.sendBoth tb g (c.frame tb g 5 c.startTenure c.tg.mode false (c.tickNo % 2 ^ 32) c.coldPay)) c
  else c

/-- A standing is better than the chip's own (R319). -/
def Chip.betterThanOwn (c : Chip) (rank id : Nat) : Bool :=
  decide (rank < c.rank ∨ (rank = c.rank ∧ id < c.unitId))

/-- A valid COLDSTART frame is judged (R319, R320). -/
def Chip.coldJudge (c : Chip) (port : Nat) (f : RxFrame) : Chip :=
  let g := port / 2
  let pay := fPay f.bytes
  let id := be pay 0 8
  if !c.hasLink port || !c.segRun g || !c.frameOk g f || decide (fType f.bytes ≠ 5 ∨ id = c.unitId) then c
  else if c.betterThanOwn (be pay 9 1) id then
    (if c.lstate = 1 ∨ c.lstate = 2 then (c.setRival id).enterStandby 2 else c)
  else if c.lstate = 1 && c.headCapable && decide (c.startTenure ≠ 0) then c.modTg (fun t => { t with lineLeft := 1 })
  else c

/-- The end of an extended LISTEN (R322). -/
def Chip.extendedEnd (c : Chip) : Chip :=
  if c.tg.running && decide (c.lstate = 1 ∧ c.tg.lineLeft = 0 ∧ c.startTenure = 0 ∧ 2100000000 ≤ c.tg.quietNs) && c.headCapable then
    ((c.setF STBY.TEN 31 16 0).modStby (fun t => { t with seen := 0 })).enterColdstart false
  else c

/-! ### Delay rounds -/

/-- A tick carries a MODE announcement, as far as the chip knows (R307, R314): from the change that is pending, or from the Gather of the tick. -/
def Chip.roundSkipped (c : Chip) (g : Nat) : Bool :=
  let t := (c.seg g).tick.toNat
  c.mcaAt t || (c.seg g).mca || (c.isDelay1 g && c.mcaAt (t + (if c.cyc4 g then 4 else 1)))

/-- FROM of this chip (R289). -/
def Chip.delayFrom (c : Chip) : Nat := if c.isHead then 0 else 31

/-- DSEQ of the round in progress (R314). -/
def Chip.dseq (c : Chip) (g : Nat) : Nat :=
  if c.cyc4 g then c.segNo g / 2 ^ 8 % 2 ^ 16 else (c.seg g).tick.toNat / 2 ^ 10 % 2 ^ 16

/-- The chip is a party of the delay rounds of segment `g` (R314): the head unless it is deposed (R363), and a chip in LISTEN, COLDSTART or
STANDBY (R344). -/
def Chip.delayParty (c : Chip) (g : Nat) : Bool := c.segRun g && (c.seg g).active && decide (c.lstate ≠ 0) && !(c.isHead && c.stby.deposed)

/-- Line nanoseconds at which a frame that is sent now on a port starts. -/
def Chip.startLns (c : Chip) (tb : TimeBase) (port : Nat) : Nat := (tb.lns + c.txWait tb port) % 2 ^ 32

/-- A DELAY frame leaves on one port (Table 10.14): a REQ with T1, or the RESP to a REQ with T1 and T2, which adds T3. -/
def Chip.delayOut (c : Chip) (tb : TimeBase) (port dseq : Nat) (req : Option (Nat × Nat)) : Chip :=
  let now := c.startLns tb port
  let (t1, t2, t3) := match req with | none => (now, 0, 0) | some (t1, t2) => (t1, t2, now)
  let resp := req.isSome
  let kind := b2n resp
  let pay := beBytes 2 dseq ++ beBytes 1 (16 * kind) ++ beBytes 1 c.delayFrom ++ beBytes 4 t1 ++ beBytes 4 t2 ++ beBytes 4 t3
    ++ beBytes 2 (if resp then (Config.fwdDelay (2 * port)).toNat else 0)
    ++ beBytes 2 (if resp then (Config.fwdDelay (2 * port + 1)).toNat else 0)
  c.sendFrame tb port (c.frame tb (port / 2) 4 c.tenure c.tg.mode false (c.tickNo % 2 ^ 32) pay)

/-- The REQs of the first tick of a round leave at SVC_OPEN (R314). -/
def Chip.delayReqs (c : Chip) (tb : TimeBase) (g : Nat) : Chip :=
  if c.delayParty g && c.isDelay1 g && !c.roundSkipped g && !(c.seg g).dlyOn && decide (c.segSvc g ≤ c.segOfs tb g) then
    let one := fun (p : Nat) => if c.hasLink p then some (c.startLns tb p) else none
    let c := c.modSeg g (fun s => { s with
      dlyOn := true, dlySentA := one (2 * g), dlySentB := one (2 * g + 1), dlyGotA := false, dlyGotB := false })
    let q := c.dseq g
    (c.delayOut tb (2 * g) q none).delayOut tb (2 * g + 1) q none
  else c

/-- A valid DELAY frame of the given kind on a port with link. -/
def Chip.delayFrame (c : Chip) (port kind : Nat) (f : RxFrame) : Bool :=
  c.hasLink port && c.frameOk (port / 2) f && decide (fType f.bytes = 4 ∧ nf (be (fPay f.bytes) 2 1) 7 4 = kind)

/-- A REQ of the first tick of a round that is not skipped is kept for its answer (R314). -/
def Chip.delayReqIn (c : Chip) (tb : TimeBase) (port : Nat) (f : RxFrame) : Chip :=
  let g := port / 2
  let pay := fPay f.bytes
  let q : DelayReq := ⟨decide (port % 2 = 1), be pay 0 2, be pay 4 4, tb.lnsOf f.sof⟩
  (c.rxHead tb port f).when (c.delayFrame port 0 f && c.delayParty g && c.isDelay1 g && !c.roundSkipped g) (fun c =>
    c.modSeg g (fun s => { s with dlyReqs := s.dlyReqs ++ [q] }))

/-- The RESPs of the second tick of a round leave at SVC_OPEN (R314). -/
def Chip.delayResps (c : Chip) (tb : TimeBase) (g : Nat) : Chip :=
  if c.delayParty g && c.isDelay2 g && !c.roundSkipped g && decide (c.segSvc g ≤ c.segOfs tb g) then
    let c' := (c.seg g).dlyReqs.foldl (fun (c : Chip) (q : DelayReq) =>
      c.delayOut tb (2 * g + b2n q.portB) q.dseq (some (q.t1, q.t2))) c
    c'.modSeg g (fun s => { s with dlyReqs := [] })
  else c

/-- A difference of two line stamps, signed (R314). -/
def lnsDiff (a b : Nat) : Int := signedN 32 (a + 2 ^ 32 - b % 2 ^ 32)

/-- Hop delay and offset of a RESP with receive stamp `t4`, in 1/16 ns (R314). -/
def delayOf (t1 t2 t3 t4 : Nat) : Int × Int :=
  (8 * (lnsDiff t4 t1 - lnsDiff t3 t2), 8 * (lnsDiff t2 t1 - lnsDiff t4 t3))

/-- The time base steps by whole nanoseconds (R345); WRAP follows where FAST_NS steps over its boundary (Table 3.1). -/
def TimeBase.stepBy (t : TimeBase) (o : Int) : TimeBase :=
  let sum : Int := t.ns + o
  { t with
    sec := BitVec.ofInt 48 (t.sec.toInt + sum.fdiv 1000000000)
    ns := (sum.fmod 1000000000).toNat
    fast := t.fast + wOf o
    ext := (t.ext + o).toNat
    wrapDue := t.wrapDue || decide ((t.fast.toNat : Int) + o < 0 ∨ 2 ^ 32 ≤ (t.fast.toNat : Int) + o) }

/-- The sync neighbour of a standby answered on this port: the head, on the lowest-numbered running segment whose port on
that side has link (R345). -/
def Chip.syncPort (c : Chip) (port : Nat) : Bool :=
  match c.runSegs.find? (fun g => c.hasLink (2 * g + port % 2)) with
  | some g => decide (g = port / 2)
  | none => false

/-- A standby aligns to its sync neighbour: a step in ALIGN, a slew otherwise (R345, R352); `o` in 1/16 ns. -/
def State.alignTo (s : State) (o : Int) : State :=
  let ns := (o + 8).fdiv 16
  let near := decide (-800 ≤ o ∧ o ≤ 800)
  if s.chip.stby.sstate = 1 ∧ s.chip.rf STBY.CATCH 31 28 = 0 then
    { s with tb := s.tb.stepBy ns, chip := s.chip.modStby (fun t => { t with aligned := true, syncP := none }) }
  else
    (s.slewBy ns).onChip (fun c => c.modStby (fun t => { t with aligned := near, syncP := none }))

/-- Two free values of the state: their index advances. -/
def State.free2 (s : State) : State × Word × Word :=
  ({ s with chip := { s.chip with free := s.chip.free + 2 } }, Config.freeWord s.chip.free, Config.freeWord (s.chip.free + 1))

/-- Between rounds the line alignment logic corrects offset and rate by the residual of each valid Gather copy on the sync port, after it
has taken P from the first since the round (R316, R345).  How much it corrects is open: a slew and an ADDEND that are free values, the
second within its range (DESIGN CHOICE, log 64).  ADDEND_NOW follows the ADDEND of its owner as R76 has it. -/
def State.lineCorrect (s : State) (port : Nat) (f : RxFrame) : State :=
  if s.chip.isStandby && s.chip.stby.posKnown && decide (port % 2 = (if s.chip.stby.pos2 then 0 else 1)) && s.chip.hasLink port &&
      s.chip.syncPort port && s.chip.frameOk (port / 2) f && decide (fType f.bytes = 1) then
    let p := (s.tb.lnsOf f.sof + 2 ^ 32 - fTxt f.bytes) % 2 ^ 32
    match s.chip.stby.syncP with
    | none => s.onChip (fun c => c.modStby (fun t => { t with syncP := some p }))
    | some q =>
      if p = q then s
      else
        let (s, x, y) := s.free2
        let s := s.slewBy x.toInt
        s.giveAddend (wOf (clampI (-4294967) 4294967 y.toInt))
  else s

/-- The chip learns its position in its first delay round (R343). -/
def Chip.learnPosition (c : Chip) (port fromId : Nat) : Chip :=
  if !c.stby.posKnown && decide (port % 2 = 0) && decide (c.runSegs.head? = some (port / 2)) then
    c.modStby (fun t => { t with posKnown := true, pos2 := !decide (1 ≤ fromId ∧ fromId ≤ 16) })
  else c

/-- A RESP to the chip's own REQ (R314, R315, R343, R345). -/
def State.delayResp (s : State) (port : Nat) (f : RxFrame) : State :=
  let g := port / 2
  let c := s.chip.rxHead s.tb port f
  let portB := decide (port % 2 = 1)
  let pay := fPay f.bytes
  let t1 := be pay 4 4
  let sg := c.seg g
  let sent := if portB then sg.dlySentB else sg.dlySentA
  let got := if portB then sg.dlyGotB else sg.dlyGotA
  if c.delayFrame port 1 f && c.delayParty g && c.isDelay2 g && sg.dlyOn && !got &&
      decide (sent = some t1 ∧ be pay 0 2 = c.dseq g) then
    let r := delayOf t1 (be pay 8 4) (be pay 12 4) (s.tb.lnsOf f.sof)
    let fromId := be pay 3 1
    let c := c.learnPosition port fromId
    let c := c.modSeg g (fun x => if portB then { x with dlyGotB := true } else { x with dlyGotA := true })
    let hop := if portB then SEG.HOP_B g else SEG.HOP_A g
    if c.isHead then
      { s with chip := c.setN hop (2 ^ 31 + 2 ^ 16 * (fromId % 32) + (BitVec.ofInt 16 r.1).toNat) }
    else if c.isStandby && decide (fromId = 0) && c.syncPort port then State.alignTo { s with chip := c } r.2
    else { s with chip := c }
  else { s with chip := c }

/-- A delay round ends with its second tick (R315, R325, R305): the head counts it, and asks the nodes it refused and those
that drift. -/
def Chip.roundEnd (c : Chip) (g : Nat) : Chip :=
  let s := c.seg g
  if c.isHead && s.dlyOn && c.isDelay2 g && !c.roundSkipped g then
    let c := c.when (c.hasLink (2 * g) && !s.dlyGotA) (fun c => c.trouble (SEG.DLY_FAIL g))
    let c := c.when (c.hasLink (2 * g + 1) && !s.dlyGotB) (fun c => c.trouble (SEG.DLY_FAIL g))
    let c := c.bump (SEG.DLY_ROUNDS g)
    each (below 17 (fun k => decide (1 ≤ k) && (c.nodeRefused g k || c.drifting g k))) (fun k c =>
      c.modNode g k (fun n => { n with ask := true })) c
  else c

/-- What is left of a round is dropped at the T0 after its second tick. -/
def Chip.roundClear (c : Chip) (g : Nat) : Chip :=
  if c.isDelay1 g then c
  else c.modSeg g (fun s => { s with dlyOn := false, dlyReqs := [], dlySentA := none, dlySentB := none, dlyGotA := false, dlyGotB := false })

/-! ### Commands -/

/-- The first delay tick of a round (R314). -/
def execDelayReqSend (g : Nat) (s : State) : Res := .next (s.onChip (fun c => c.delayReqs s.tb g))

/-- A REQ reaches a port (R314). -/
def execDelayReqReceive (port : Nat) (f : RxFrame) (s : State) : Res := .next (s.onChip (fun c => c.delayReqIn s.tb port f))

/-- The second delay tick of a round (R314). -/
def execDelayRespSend (g : Nat) (s : State) : Res := .next (s.onChip (fun c => c.delayResps s.tb g))

/-- A RESP reaches a port (R315). -/
def execDelayRespReceive (port : Nat) (f : RxFrame) (s : State) : Res := .next (s.delayResp port f)

/-- The end of LISTEN (R321). -/
def execListenEnd (s : State) : Res := .next (s.onChip Chip.listenEnd)

/-- COLDSTART frames leave at GATHER_OFS (R321). -/
def execColdstartLaunch (s : State) : Res := .next (s.onChip (fun c => c.coldLaunch s.tb))

/-- The end of COLDSTART (R321). -/
def execColdstartEnd (s : State) : Res := .next (s.onChip Chip.coldEnd)

/-- The end of an extended LISTEN (R322). -/
def execExtendedListenEnd (s : State) : Res := .next (s.onChip Chip.extendedEnd)

end Sys2Proof.Machine
end

