-- ==== Sys2Proof/Machine/Standby.lean ====
section
/-!
DEFINITION. The standby pair (R344 to R367): the standby link, forwarding, comparison and cross-steep, catch-up, the
journal, deposition, takeover and handover.
-/

namespace Sys2Proof.Machine

/-! ### Receiving -/

/-- PAIR_EN. -/
def Chip.pairEn (c : Chip) : Bool := c.rb STBY.CFG 4

/-- A lane of the standby link has block lock (R348). -/
def Chip.linkUpStby (c : Chip) : Bool := c.pairEn && (c.stby.sl0 || c.stby.sl1)

/-- A copy of a message arrives (R347): a wrong CRC is counted, a second copy is discarded by its sequence number; `f` is
the message's effect. -/
def Chip.linkIn (c : Chip) (x : LinkRx) (f : Chip → Chip) : Chip :=
  if !c.linkUpStby then c
  else if !x.crcOk then c.trouble STBY.LINK_ERR
  else if c.stby.rxSeqs.contains x.seq then c
  else f (c.modStby (fun t => { t with rxSeqs := (x.seq :: t.rxSeqs).take 64, quietNs := 0 }))

/-- A message between paired chips. -/
def Chip.pairedIn (c : Chip) (x : LinkRx) (f : Chip → Chip) : Chip := c.linkIn x (fun c => if c.stby.paired then f c else c)

/-- A standby that follows its head's journal: in step, or past the ALIGN phase of catch-up. -/
def Chip.follows (c : Chip) : Bool :=
  c.isStandby && c.stby.paired && decide (c.stby.sstate = 2 ∨ (c.stby.sstate = 1 ∧ c.rf STBY.CATCH 31 28 ≠ 0))

/-- Phase of catch-up, if any. -/
def Chip.catchPhase (c : Chip) : Option Nat := if c.stby.sstate = 1 then some (c.rf STBY.CATCH 31 28) else none

/-- The standby falls out of step at its next T0 (R351). -/
def Chip.fallOut (c : Chip) : Chip := if c.follows then c.modStby (fun t => { t with oosNext := true }) else c

/-! ### Deposition (R363) -/

/-- A head is deposed by a tenure. -/
def Chip.depose (c : Chip) (tb : TimeBase) (tenure : Nat) : Chip :=
  if !c.isHead || c.stby.deposed then c
  else
    let c := { c with cm := { c.cm with units := [], staged := [] } }
    let c := each (List.range 16) (fun g c => if c.mbxBusy g then c.mbxFail g 4 else c) c
    let c := c.when c.tg.change.isSome (fun c => c.mcAbandon 8 0 0)
    let c := c.setN STBY.DEPOSE (2 ^ 28 + tenure)
    let c := ((c.setN STBY.DEPOSE_TICK c.tickNo).evt pgStby 5).bump STBY.DEPOSED
    (((c.logAdd tb 1 6 2 tenure).latchTenure tenure)).modStby (fun t => { t with deposed := true, deposedAt := tb.fast })

/-- A head frame or message of another chip reaches a head: a tenure above its own, or equal from a lower unit ID. -/
def Chip.deposedBy (c : Chip) (tb : TimeBase) (tenure id : Nat) : Chip :=
  if c.isHead && decide (c.tenure < tenure ∨ (tenure = c.tenure ∧ id < c.unitId)) then c.depose tb tenure else c

/-- A valid head frame of another chip on a port of an enabled segment. -/
def Chip.foreignHead (c : Chip) (port : Nat) (f : RxFrame) : Bool :=
  c.hasLink port && c.frameOk (port / 2) f && fromHead f.bytes && decide (fUnit f.bytes ≠ c.unitId)

/-! ### Forwarding (R320, R344, R363) -/

/-- The chip forwards a frame between the ports of its segment: a deposed head those whose start has come since. -/
def Chip.forwards (c : Chip) (f : RxFrame) : Bool :=
  decide (c.lstate = 1 ∨ c.lstate = 2 ∨ c.lstate = 4) || (c.isHead && c.stby.deposed && decide (0 ≤ diff32 f.sof c.stby.deposedAt))

/-- The record of an axis in a Pour payload. -/
def Chip.pourRec (c : Chip) (g a : Nat) (pay : List Byte) : List Byte :=
  sl pay (c.recOfs g 4 8 (c.axNode a) + 4 + 8 * c.axIdx a) 8

/-- The record of an axis in a Pour carries HOLD. -/
def Chip.pourHeld (c : Chip) (g a : Nat) (pay : List Byte) : Bool := decide (nf (be (c.pourRec g a pay) 4 2) 0 0 = 1)

/-- The first valid Pour of the tick passes a standby (R355).  A second consecutive HOLD of an axis sets its FS as on the head (R30), so that
both change ARM at the same T0 (R278; DEDUCED, log 67): at the instant at which the Pour left, which its TXT tells. -/
def Chip.pourSee (c : Chip) (tb : TimeBase) (g : Nat) (l : List Byte) : Chip :=
  if (c.seg g).pourSeen.isSome || decide (fTick l ≠ (c.seg g).tick.toNat % 2 ^ 32) then c
  else
    let pay := fPay l
    let c := c.modSeg g (fun s => { s with pourSeen := some pay })
    (c.segAxes g).foldl (fun (c : Chip) (a : Nat) =>
      if c.pourHeld g a pay then
        let second := decide (1 ≤ (c.ax a).holdRun)
        (c.modAx a (fun x => { x with holdRun := x.holdRun + 1 })).when second (fun c => c.setFs (tb.extOf (tb.fastOf (fTxt l))) none a)
      else c.modAx a (fun x => { x with holdRun := 0 })) c

/-- What a chip that is not head takes from a valid head frame that passes (R320, R322, R349, R355, R357). -/
def Chip.observe (c : Chip) (tb : TimeBase) (port : Nat) (f : RxFrame) : Chip :=
  let g := port / 2
  let l := f.bytes
  let c := c.modTg (fun t => { t with quietNs := 0 })
  if fType l = 2 then (if c.isStandby ∧ c.stby.sstate ≠ 3 then c.pourSee tb g l else c)
  else if fType l ≠ 1 then c
  else if c.lstate = 1 ∨ c.lstate = 2 then
    ((c.setRival (fUnit l)).enterStandby 1).modStby (fun t => { t with gatherSeen := true })
  else if c.isStandby then
    let here := decide (fTenure l = c.tenure ∧ fTick l = c.tickNo % 2 ^ 32 ∧ c.ofs tb < c.gatherLate)
    let c := c.when here (fun c => c.modStby (fun t => { t with gatherSeen := true }))
    let copy : GCopy := ⟨true, fPay l, tb.fast⟩
    -- by the port that it came on: a copy does not tell its name (R349)
    let c := c.modSeg g (fun s => if port % 2 = 1 then { s with copyA := s.copyA.or (some copy) }
      else { s with copyB := s.copyB.or (some copy) })
    -- a tick that announces a mode change has no delay round (R314)
    let c := c.when (here && fMca l) (fun c => c.modSeg g (fun s => { s with mca := true }))
    -- the T0 of the tick stands GATHER_OFS before the frame's TXT (R316)
    if c.catchPhase = some 0 ∧ c.stby.aligned = true then
      c.modTg (fun t => { t with t0Fast := tb.fastOf (fTxt l) - BitVec.ofNat 32 c.gatherOfs })
    else c
  else c

/-- The start of a forwarded frame passes the other port after the forwarding delay of its way (R82, R344). -/
def fwdSof (port : Nat) (f : RxFrame) : Word := f.sof + BitVec.ofNat 32 ((Config.fwdDelay (2 * port)).toNat / 16)

/-- A frame passes through the chip (R344): DELAY frames, and what R330 discards, are not forwarded. -/
def Chip.forward (c : Chip) (tb : TimeBase) (port : Nat) (f : RxFrame) : Chip :=
  let g := port / 2
  let other := if port % 2 = 1 then port - 1 else port + 1
  let c := c.rxFrame tb port f
  if !c.forwards f || !c.rxTaken port f || !c.segRun g || decide (fType f.bytes = 4) then c
  else
    let out := if c.hasLink other then other else port
    let c := (((c.emit (.frame out f.fcsOk f.bytes)).setReg (LP.TX_SOF out) (fwdSof port f)).bump (LP.TX_FRAMES out)).perf 0x91 1
    let c := if c.foreignHead port f then c.observe tb port f else c
    c.coldJudge port f

/-! ### Cups and comparison (R354 to R356) -/

/-- The compared fields of a Pour record and the axis's part of NOUT (R355). -/
def cmpFields (mode : Nat) (rec nout : List Byte) : List Byte := rec.take (if mode = 0 then 6 else 8) ++ nout.take 1

/-- The compared fields of an axis, from its record as sent and its node's NOUT: that a mismatch of NOUT is one of every axis of the node is DEDUCED
(log 98). -/
def Chip.fieldsOf (c : Chip) (a : Nat) (rec : List Byte) (nout : Nat) : List Byte := cmpFields (c.axMode a) rec [BitVec.ofNat 8 nout]

/-- NOUT of node `k` in a Pour payload. -/
def Chip.pourNout (c : Chip) (g k : Nat) (pay : List Byte) : Nat := nf (be pay (c.recOfs g 4 8 k) 2) 7 0

/-- NOUT of a node by the chip's own cups, of the axes whose records in the Pour are on time. -/
def Chip.ownNout (c : Chip) (g k : Nat) (pay : List Byte) : Nat := c.noutOf ((c.nodeAxes g k).filter (fun a => !c.pourHeld g a pay))

/-- The compared fields of a standby's own cup beside a Pour that has passed.  FLAGS of the record are those that the chip would send (R278). -/
def Chip.ownFields (c : Chip) (g a : Nat) (pay : List Byte) : Option (List Byte) :=
  (c.ax a).img.map (fun e => c.fieldsOf a (withFlags e.1 (c.pourFlags a false)) (c.ownNout g (c.axNode a) pay))

/-- The compared fields that the head has sent; none of an axis that carried HOLD. -/
def Chip.sentFields (c : Chip) (g a : Nat) : List Byte :=
  if (c.ax a).img.isSome then c.fieldsOf a (c.ax a).sent (c.noutOf (c.nodeAxes g (c.axNode a))) else []

/-- The compared fields of a cross-steep, sent in place of the head's (R356). -/
def Chip.crossFields (c : Chip) (a : Nat) (rec : List Byte) (nout : Nat) : List Byte :=
  if (c.ax a).img.isSome then
    c.fieldsOf a (withFlags rec ((c.ax a).sent.drop 4 |>.take 2))
      (Nat.lor (c.noutOf ((c.nodeAxes (c.axSeg a) (c.axNode a)).filter (fun b => decide (b ≠ a)))) nout)
  else []

/-- The comparison of one axis: 0 not compared, 1 equal, 2 differs, 3 not to be compared yet. -/
def Chip.compareAxis (c : Chip) (g a : Nat) (pay : List Byte) : Nat :=
  if c.pourHeld g a pay then 0
  else match c.ownFields g a pay with
    | none => 3
    | some l => if l = c.fieldsOf a (c.pourRec g a pay) (c.pourNout g (c.axNode a) pay) then 1 else 2

/-- The comparison of one axis with the Pour that has passed, if one has. -/
def Chip.compareSeen (c : Chip) (g a : Nat) : Nat := match (c.seg g).pourSeen with | some pay => c.compareAxis g a pay | none => 3

/-- The digest of an axis is that of its cup of the segment's tick. -/
def Chip.freshDigest (c : Chip) (g a : Nat) : Bool := decide ((c.ax a).digestAt = (c.seg g).tick.toNat + 1)

/-- A mismatch (R355). -/
def Chip.mismatch (c : Chip) : Chip := (c.trouble STBY.MISMATCH).evt pgStby 2

/-- The chip compares Pours (R355). -/
def Chip.compares (c : Chip) : Bool := c.isStandby && c.comparing && decide (c.stby.sstate = 2)

/-- A standby compares the Pour of a segment that has passed with its own cups, and reports (R355): before SVC_OPEN it waits for the Pour and
for cups that have not completed; what it cannot compare then counts in NOCMP. -/
def Chip.compareSeg (c : Chip) (tb : TimeBase) (g : Nat) : Chip :=
  if !c.compares || !c.segRun g || !(c.seg g).active || c.stby.compared.contains g then c
  else
    let rs := (c.segAxes g).map (fun a => (a, c.compareSeen g a))
    if ((c.seg g).pourSeen.isNone || rs.any (fun e => decide (e.2 = 3))) && decide (c.segOfs tb g < c.segSvc g) then c
    else
      let bad := (rs.filter (fun e => decide (e.2 = 2))).map (fun e => e.1)
      let c := c.troubleBy STBY.NOCMP (rs.filter (fun e => decide (e.2 = 3))).length
      let c := bad.foldl (fun (c : Chip) (_ : Nat) => c.mismatch) c
      let mism := bad.map (fun a => (a, (c.ownFields g a ((c.seg g).pourSeen.getD [])).getD []))
      let c := c.modStby (fun t => { t with compared := t.compared ++ [g], mism := t.mism ++ mism })
      let c := if 4 < c.stby.mism.length then c.fallOut else c
      c.linkSend (.report g mism (((c.segAxes g).filter (c.freshDigest g)).map (fun a => (a, (c.ax a).digest))))

/-- A Pour passes a standby that compares it, if it is the first valid one of its tick (R355). -/
def Chip.pourCompare (c : Chip) (tb : TimeBase) (port : Nat) (f : RxFrame) : Chip :=
  let g := port / 2
  let c := c.when (c.compares && c.hasLink port && c.segRun g && c.frameOk g f && decide (fType f.bytes = 2)) (fun c => c.pourSee tb g f.bytes)
  c.compareSeg tb g

/-- The Pot in whose queue a cross-steep cup stands (R356). -/
def Chip.crossPot (c : Chip) (leaf : Nat) : Option Nat :=
  (List.range c.nPots).find? (fun p => decide (p ≠ leaf / 8 ∧ (c.pot p).state = 1) && !c.runnerless p)

/-- The head starts a cross-steep of an axis (R356). -/
def Chip.crossStart (c : Chip) (tb : TimeBase) (g a : Nat) (fields : List Byte) (digest : Nat) : Chip :=
  let x := c.ax a
  let own := c.sentFields g a
  let xs : Xs := ⟨a, (c.seg g).tick, x.leaf, own, x.digest, if fields.isEmpty then own else fields, digest, none⟩
  let c := c.modStby (fun t => { t with xs := t.xs ++ [xs], xsCount := t.xsCount + 1 })
  match c.crossPot x.leaf with
  | some q =>
    let home := c.axHome a
    let (c, n) := c.nextCupSeq
    c.enqueue q ⟨a, g, home, (home + 1) % c.nPots, c.axMode a, xs.tick, .cross, tb.fast, (c.seg g).t0, c.segCut g, x.fromB,
      (c.node g (c.axNode a)).hdr, x.record, x.sec, n⟩
  | none => c

/-- Cross-steep cups leave the queues. -/
def Chip.dropCross (c : Chip) : Chip :=
  each (below 8 (fun p => (c.pot p).queue.any (fun y => decide (y.kind = .cross)))) (fun p c =>
    c.modPot p (fun t => { t with queue := t.queue.filter (fun y => decide (y.kind ≠ .cross)) })) c

/-- A REPORT reaches the head (R355, R356). -/
def Chip.report (c : Chip) (tb : TimeBase) (g : Nat) (mism : List (Nat × List Byte)) (digests : List (Nat × Nat)) : Chip :=
  if !c.isHead || !c.rb STBY.CFG 5 || decide (c.stby.peerSstate ≠ 2) then c
  else
    let badDg := (digests.filter (fun e => c.freshDigest g e.1 && decide ((c.ax e.1).digest ≠ e.2))).map (fun e => e.1)
    let c := badDg.foldl (fun (c : Chip) (_ : Nat) => c.mismatch) c
    let axes := (c.segAxes g).filter (fun a => badDg.contains a || mism.any (fun e => decide (e.1 = a)))
    if 4 < c.stby.xsCount + axes.length then
      -- none runs, those of earlier reports of the tick are withdrawn, and the standby learns from the journal that it is out of step
      let c := (c.modStby (fun t => { t with xsCount := t.xsCount + axes.length, xs := [] })).dropCross
      (axes.take 1).foldl (fun (c : Chip) (a : Nat) => c.journal (.verdict a 4)) c
    else axes.foldl (fun (c : Chip) (a : Nat) =>
      c.crossStart tb g a (((mism.find? (fun e => decide (e.1 = a))).map (fun e => e.2)).getD [])
        (((digests.find? (fun e => decide (e.1 = a))).map (fun e => e.2)).getD (c.ax a).digest)) c

/-- The verdict on a cross-steep, from three sets of fields and three digests (Table 13.4). -/
def Chip.verdictOn (c : Chip) (x : Xs) : Nat :=
  match x.result with
  | none => 4
  | some (l, d) =>
    let f := c.crossFields x.axis (l.take 8) (ofLE ((l.drop 8).take 1))
    let eqHead := decide (f = x.headFields ∧ d = x.headDigest)
    let eqStby := decide (f = x.stbyFields ∧ d = x.stbyDigest)
    if eqHead && eqStby then 0 else if eqStby then 1 else if eqHead then 2
    else if x.headFields = x.stbyFields ∧ x.headDigest = x.stbyDigest then 0 else 3

/-- A verdict takes effect on the head (Table 13.4). -/
def Chip.giveVerdict (c : Chip) (tb : TimeBase) (x : Xs) : Chip :=
  let v := c.verdictOn x
  let c := c.modStby (fun t => { t with xs := t.xs.filter (fun y => decide (y ≠ x)) })
  let c := (c.setN STBY.XS_LAST (2 ^ 31 + 2 ^ 28 * v + 2 ^ 16 * x.leaf + x.axis)).setN STBY.XS_TICK x.tick.toNat
  let c := ((c.evt pgStby 3).logAdd tb 1 6 3 v).journal (.verdict x.axis v)
  match v with
  | 1 =>
    let c := c.trouble STBY.XS_HEAD
    let c := c.watchAxes tb (fun c => if (c.leaf x.leaf).state = 2 then c.quarLeaf x.leaf 2 true none else c)
    let home := c.axHome x.axis
    let from' := blockOf ((home + 1) % c.nPots) x.axis + 0x200
    let c := (c.smemMeet tb ((home + 1) % c.nPots) from' 0x200).smemWrite tb home (blockOf home x.axis + 0x200) 0x200
    c.setBytes (blockOf home x.axis + 0x200) (c.bytes from' 0x200)
  | 2 => c.trouble STBY.XS_STBY
  | _ => c.trouble STBY.XS_OTHER

/-- A completed cross-steep of an axis gets its verdict (R356). -/
def Chip.verdictOf (c : Chip) (tb : TimeBase) (a : Nat) : Chip :=
  match c.stby.xs.find? (fun x => decide (x.axis = a) && x.result.isSome) with
  | some x => if c.isHead then c.giveVerdict tb x else c
  | none => c

/-- Cross-steeps that have not completed at GUARD_OPEN are VOID (R356); their cups leave the queues. -/
def Chip.voidCross (c : Chip) (tb : TimeBase) : Chip :=
  let left := c.stby.xs.filter (fun x => x.result.isNone)
  let c := left.foldl (fun (c : Chip) (x : Xs) => c.giveVerdict tb x) c
  if left.isEmpty then c else c.dropCross

/-! ### Messages -/

/-- Pairing gained or lost (R348). -/
def Chip.setPaired (c : Chip) (p : Bool) : Chip :=
  if c.stby.paired = p then c
  else
    let c := (c.modStby (fun t => { t with paired := p, quietNs := 0, own := [], sent := 0 })).evt pgStby 0
    if p then (if c.isStandby && decide (c.stby.sstate = 0) then c.enterCatchup else c)
    else
      let c := (c.trouble STBY.LINK_DOWNS).modStby (fun t => { t with peerSstate := 0 })
      if c.isStandby && decide (c.stby.sstate = 1 ∨ c.stby.sstate = 2) then c.modStby (fun t => { t with oosNext := true }) else c

/-- Reason for which a pairing is refused (R348).  Where several hold, PART is shown before REV and REV before ROLE (DESIGN CHOICE, log 68:
R348 and R368 give no order). -/
def Chip.pairRefuse (c : Chip) (part rev role : Nat) : Nat :=
  if part ≠ c.rf CHIP.CHIP_ID 31 16 then 1 else if rev ≠ c.rf CHIP.CHIP_ID 7 0 then 2
  else if role = 0 ∧ c.role = 0 then 3 else 0

/-- A HELLO (R348, R351, R362, R363). -/
def Chip.hello (c : Chip) (tb : TimeBase) (x : LinkRx) (part rev id role lstate sstate : Nat) : Chip :=
  let r := c.pairRefuse part rev role
  let c := (c.setN STBY.PEER_ID_LO id).setN STBY.PEER (2 ^ 12 * (lstate % 8) + 2 ^ 8 * (role % 4) + id / 2 ^ 32 % 256)
  let c := (c.modStby (fun t => { t with refuse := r })).setPaired (decide (r = 0))
  let c := c.modStby (fun t => { t with peerSstate := if r = 0 then sstate else 0 })
  if lstate = 3 then (if c.isHead then c.deposedBy tb x.tenure id else c.latchTenure x.tenure) else c

/-- A TICK message (R216, R347, R352, R363). -/
def Chip.tickMsg (c : Chip) (tb : TimeBase) (x : LinkRx) (no role id : Nat) (samples : List (List Word)) : Chip :=
  if c.isHead then c.deposedBy tb x.tenure id
  else
    let c := (c.latchTenure x.tenure).modStby (fun t => { t with headRole := role })
    if !c.isStandby then c
    else
      let c := if c.catchPhase = some 0 then c.modTg (fun t => { t with tickNo := BitVec.ofNat 64 no }) else c
      if no ≠ c.tickNo then c
      else
        let c := c.modStby (fun t => { t with tickSeen := true })
        let c := each (below 16 (fun g => decide ((c.seg g).tick = c.tg.tickNo) && (c.seg g).active)) (fun g c =>
          c.modSeg g (fun x => { x with sampled := true })) c
        c.enAxes.foldl (fun (c : Chip) (a : Nat) =>
          let s := samples.getD (c.rf (AXIS.FB_CFG a) 27 24) []
          let ok := c.rb (AXIS.FB_CFG a) 31 && bit (s.getD 2 0#32) 0
          if (c.seg (c.axSeg a)).tick = c.tg.tickNo then
            c.modAx a (fun t => { t with sec := if ok then s.flatMap (fun w => leBytes 4 w.toNat) else [] })
          else c) c

/-- Records the head took that differ from what passed the standby (R349).  A frame does not tell its name, and a copy that wraps comes back on
the other's port: a record is held against every copy that passed with it written, since a node writes the same bytes into each (R271;
DEDUCED, log 98). -/
def Chip.ringDiff (c : Chip) (g : Nat) (recs : List NodeRec) : Chip :=
  let differs := fun (r : NodeRec) (x : Option GCopy) => match x with
    | some x => let y := c.nodeRec g x.payload r.node
                y.written && !decide (y = r)
    | none => false
  c.troubleBy STBY.RING_DIFF (recs.filter (fun r => differs r (c.seg g).copyA || differs r (c.seg g).copyB)).length

/-- A RELAY (R349): late, wrong, or without the samples of its tick, it takes the standby out of step. -/
def Chip.relay (c : Chip) (tb : TimeBase) (ok : Bool) (g : Nat) (miss : Bool) (srcB : Nat) (recs : List NodeRec) : Chip :=
  if !c.isStandby || !c.segRun g || c.stby.relayed.contains g || decide (c.stby.sstate = 3 ∨ c.stby.sstate = 0) then c
  else if c.catchPhase = some 0 then c
  else if !ok || !(c.seg g).sampled || decide (c.segLate g + 2000 < c.segOfs tb g) then c.fallOut
  else
    let c := c.modStby (fun t => { t with relayed := t.relayed ++ [g] })
    if miss then c.missInputs tb g
    else (c.takeInputs tb g recs srcB).ringDiff g recs

/-- A table of the bytes of a list. -/
def byteTab (l : List Byte) : Tab Byte := l.zipIdx.foldl (fun r e => Tab.set (fun _ => 0#8) r e.2 e.1) []

/-- The standby is in the IMAGE phase. -/
def Chip.imaging (c : Chip) : Bool := decide (c.catchPhase = some 1)

/-- Registers that journals have changed stand on top of the image (R352). -/
def Chip.noteChanged (c : Chip) (l : List Nat) : Chip :=
  c.when c.imaging (fun c => c.modStby (fun t => { t with changed := t.changed ++ l }))

/-- Registers that differ. -/
def Chip.diffRegs (o c : Chip) : List Nat := ((o.regs ++ c.regs).map (fun e => e.1)).filter (fun a => decide (o.reg a ≠ c.reg a))

/-- A CATCH item (R352, Table 13.3). -/
def Chip.catchItem (c : Chip) (x : CatchItem) : Chip :=
  match c.catchPhase, x with
  | some 1, .mem a l => c.setBytes a l
  | some 1, .reg a v => if c.stby.changed.contains a then c else c.setReg a v
  | some 1, .mode m since => c.modTg (fun t => { t with mode := m, modeSince := since })
  | some 1, .seqRec g l => c.modGrp g (fun t => { t with k2 := t.k2 ++ [byteTab l] })
  | some 1, .seq g slot demand reqs marks tries crec => c.modGrp g (fun t => { t with
      slot := slot, demand := demand, pulse := marks.getD 0 false, viaReopen := marks.getD 1 false, inCycle := marks.getD 2 false
      obs := marks.getD 3 false, fault := marks.getD 4 false, retry := marks.getD 5 false, seenOpen := marks.getD 6 false
      seenClosing := marks.getD 7 false, k3 := marks.getD 8 false, unTries := tries.1, lkTries := tries.2
      crec := byteTab crec, k2 := []
      reqs := reqs.foldl (fun q e => Tab.set (fun _ => Req.none) q e.1 ⟨e.2.1, e.2.2.1, e.2.2.2.1, e.2.2.2.2.1, e.2.2.2.2.2⟩) [] })
  | some 1, .imageEnd =>
    -- a mode change that the head has pending stands in the registers of R327
    let st := c.rf TICK.MC_STAT 31 28
    let change : ModeChange := ⟨c.rf TICK.MC_STAT 2 0, BitVec.ofNat 64 (c.pair TICK.MC_TICK_LO TICK.MC_TICK_HI),
      c.rf TICK.MC_CTRL 20 16, c.anyCycle4 (c.rf TICK.MC_STAT 2 0), decide (st = 2)⟩
    let c := c.when (c.tg.change.isNone && decide (st = 1 ∨ st = 2)) (fun c => c.modTg (fun t => { t with change := some change }))
    c.modStby (fun t => { t with imageEnd := true })
  | some 2, .axis a l => c.modStby (fun t => { t with catchBlocks := t.catchBlocks ++ [(a, l)] })
  | some _, .pub p k w o l runs => c.modStby (fun t => { t with catchPubs := t.catchPubs ++ [⟨p, k, w, o, l, runs⟩] })
  | _, _ => c

/-- A register as the T0 of the image's first tick left it, and a group as the latest T0 left it (R352). -/
def Chip.imageReg (c : Chip) (a : Nat) : Word :=
  match c.stby.image, c.stby.atT0 with
  | some t, _ => Tab.get regReset t a
  | none, some t => Tab.get regReset t.1 a
  | none, none => c.reg a
def Chip.imageGrp (c : Chip) (g : Nat) : Grp := match c.stby.atT0 with | some t => Tab.get (fun _ => Grp.reset) t.2 g | none => c.grp g

/-- What a T0 leaves on the head of a standby in catch-up for the image. -/
def Chip.imageT0 (c : Chip) : Chip :=
  if c.isHead && c.stby.paired && decide (c.stby.peerSstate = 1) then c.modStby (fun t => { t with atT0 := some (c.regs, c.grps) })
  else if c.stby.atT0.isSome then c.modStby (fun t => { t with atT0 := none, image := none })
  else c

/-- The bytes of a cycle record. -/
def cycleBytes (t : Tab Byte) : List Byte := (List.range 0x240).map (Tab.get (fun _ => 0#8) t)

/-- What the head puts into a CATCH message (R352). -/
def Chip.catchGive (c : Chip) (x : CatchAsk) : CatchItem :=
  match x with
  | .mem a n => .mem a (c.bytes a (min n 1024))
  | .reg a => .reg a (c.imageReg a)
  | .mode => .mode c.tg.mode c.tg.modeSince
  | .seqRec g i => .seqRec g (cycleBytes ((c.imageGrp g).k2.getD i []))
  | .seq g => let t := c.imageGrp g
    .seq g t.slot t.demand (t.reqs.map (fun e => (e.1, e.2.gen, e.2.valid, e.2.hold, e.2.table, e.2.target)))
      [t.pulse, t.viaReopen, t.inCycle, t.obs, t.fault, t.retry, t.seenOpen, t.seenClosing, t.k3] (t.unTries, t.lkTries)
      (cycleBytes t.crec)
  | .axis a => .axis a (c.bytes (c.axBlock a) 0x400)
  | .pub p k o =>
    let runs := if k = 1 ∧ o = 0 then (below 32 (fun g => decide (g % c.nPots = p))).filterMap (fun g => ((c.grp g).run).map (fun r => (g, r)))
      else []
    match (c.pot p).slowDone.find? (fun w => decide (w.kind = k)) with
    | some w => .pub p k w.param.toNat o (c.bytes (globalMem (w.staging + o)) (min 1024 (w.len - o))) runs
    | none => .pub p k 0 o [] runs
  | .imageEnd => .imageEnd

/-! ### The standby's T0 -/

/-- The effect of a sealed journal's entries that are not commit units (R350): modes before everything, then SEQ
transitions, admissions and verdicts. -/
def Chip.applyEntry (c : Chip) (e : Entry) : Chip :=
  match e with
  | .mode st target tick ann four reason node seg =>
    match st with
    | 0 => ((c.modTg (fun t => { t with change := some ⟨target, BitVec.ofNat 64 tick, ann, four, false⟩ })).setF
        TICK.MC_STAT 31 28 1).setF TICK.MC_STAT 2 0 target
    | 1 => (c.modTg (fun t => { t with change := some ⟨target, BitVec.ofNat 64 tick, ann, four, true⟩ })).setF TICK.MC_STAT 31 28 2
    -- a chip that has ended the change itself, as at a handover (R310), has nothing more to end
    | _ => if c.tg.change.isSome || c.imaging then c.mcAbandon reason node seg else c
  | .seq t =>
    let old := c.seqState t.grp
    let c := c.setF (SEQ.STAT t.grp) 27 24 t.cause
    (if t.state = 5 then (c.setF (SEQ.STAT t.grp) 3 0 old).setN (SEQ.OBS t.grp) (2 ^ 31 + t.axis) else c).seqEnter t.grp t.state
  | .admission g k st reason =>
    let c := (c.nodeBit (SEG.NODE_ADMIT g) k (decide (st = 1))).nodeBit (SEG.NODE_REFUSED g) k (decide (st = 2))
    c.setRefuse g k (if st = 2 then reason else 0)
  | .verdict .. => c
  | .unit .. => c

/-- Registers that an entry which is no commit unit writes beside counters. -/
def Entry.regs : Entry → List Nat
  | .mode .. => [TICK.MC_STAT]
  | .seq t => [SEQ.STAT t.grp, SEQ.ENTRY_TICK t.grp, SEQ.OBS t.grp]
  | .admission g k _ _ => [SEG.NODE_ADMIT g, SEG.NODE_REFUSED g, SEG.REFUSE g ((k - 1) / 8)]
  | .verdict .. => []
  | .unit .. => []

/-- The commit units of a sealed journal enter the queue, with the instants of their acceptance in the chip's own time; captures of one group
for one T0 join (R66, R350). -/
def Chip.journalUnit (c : Chip) (tb : TimeBase) (kind : UnitKind) (seq : Nat) (lns : Word) (ws : List (Nat × Option Word)) : Chip :=
  let inst := tb.fastOf lns.toNat
  let same := fun u : CUnit => decide (u.kind = kind ∧ u.due = 1) && u.journal && (match kind with | .group _ => true | _ => false)
  if c.cm.units.any same then
    { c with cm := { c.cm with units := c.cm.units.map (fun u => if same u then { u with writes := mergeWrites u.writes ws } else u) } }
  else { c with cm := { c.cm with units := c.cm.units ++ [⟨kind, true, 1, seq, inst, ws⟩] } }

/-- Entries that have come after those of the journal that the SEAL closed: they belong to the next (R350). -/
def Stby.rest (t : Stby) : List Entry := match t.sealed with | some s => t.journal.drop s.count | none => []

/-- The bytes of an entry, word by word: the manual gives them no order (DESIGN CHOICE, log 95). -/
def UnitKind.words : UnitKind → List Nat
  | .group g => [0, g]
  | .auto => [1, 0]
  | .reset b => [2, b]
  | .fsClear a => [3, a]
  | .seqDemand => [4, 0]

def Entry.words : Entry → List Nat
  | .unit k q inst ws => 1 :: k.words ++ [q, inst.toNat, ws.length] ++
      ws.flatMap (fun e => match e.2 with | some v => [e.1, 1, v.toNat] | none => [e.1, 0, 0])
  | .seq t => [2, t.grp, t.state, t.cause, t.axis]
  | .mode st target tick ann four reason node g => [3, st, target, tick, ann, b2n four, reason, node, g]
  | .admission g node st reason => [4, g, node, st, reason]
  | .verdict a v => [5, a, v]

/-- CRC-32 of a journal (Table 13.1). -/
def journalCrc (l : List Entry) : Word := BitVec.ofNat 32 (crc32 ((l.flatMap Entry.words).flatMap (leBytes 4)))

/-- The journal that the SEAL of the tick has closed, if it is whole and its CRC is that of the SEAL (R350, R351). -/
def Stby.sealedJournal (t : Stby) : Option (List Entry) :=
  match t.sealed with
  | some s =>
    let l := t.journal.take s.count
    if s.count ≤ t.journal.length ∧ journalCrc l = s.crc then some l else none
  | none => none

/-- The sealed journal holds a verdict (R356). -/
def Stby.says (t : Stby) (v : Nat) : Bool :=
  match t.sealedJournal with
  | some l => l.any (fun e => match e with | .verdict _ w => decide (w = v) | _ => false)
  | none => false

/-- The sealed journal of the ended tick applies (R350). -/
def Chip.applyJournal (c : Chip) (tb : TimeBase) (js : List Entry) : Chip :=
  let isMode := fun e : Entry => match e with | .mode .. => true | _ => false
  let c := ((js.filter isMode) ++ (js.filter (fun e => !isMode e))).foldl Chip.applyEntry c
  let c := c.noteChanged (js.flatMap Entry.regs)
  js.foldl (fun (c : Chip) (e : Entry) => match e with
    | .unit k q t ws => c.journalUnit tb k q t ws
    | _ => c) c

/-- A takeover's and a handover's common part: the new head (R358, R366). -/
def Chip.takeLine (c : Chip) (tb : TimeBase) : Chip :=
  let c := c.becomeHead (c.tenure + 1)
  let c := if c.tg.change.isSome then Chip.mcJournal c (c.mcAbandon 8 0 0) tb else c
  let c := c.modTg (fun t => { t with lineLeft := 0 })
  let c := c.setF STBY.CATCH 31 28 0xF
  let c := each (List.range 16) (fun g c => each (List.range 16) (fun i c => c.forgetPaths g (i + 1)) c) c
  c.runSegs.foldl (fun (c : Chip) (g : Nat) =>
    each (below 17 (fun k => c.admitted g k)) (fun k c => c.modNode g k (fun n => { n with ask := true, relearn := true })) c) c

/-- The standby may take over (R358). -/
def Chip.eligible (c : Chip) : Bool :=
  c.isStandby && decide (c.stby.sstate = 2 ∧ c.tenure < 0xFFFF ∧ 2 ≤ c.stby.silentRun) && c.headCapable

/-- A standby that has become head keeps its ADDEND_NOW (R79). -/
def TimeBase.keepOver (tb : TimeBase) (old new : Chip) : TimeBase :=
  if old.isStandby && new.isHead then { tb with keep := true } else tb

/-- A takeover at the T0 of tick `first` (R358, R360): entries of an unsealed tick are discarded. -/
def Chip.takeover (c : Chip) (tb : TimeBase) (first : Nat) : Chip :=
  if !c.eligible then c
  else
    let c := c.modStby (fun t => { t with journal := if t.sealed.isSome then t.journal else [], unsealed := false, oosNext := false, listenNext := false })
    let c := ((c.takeLine tb).bump STBY.TAKEOVERS).evt pgStby 4
    let c := c.logAdd tb 1 6 1 c.tenure
    c.modStby (fun t => { t with armUntil := BitVec.ofNat 64 (first + c.rf STBY.ARM_WIN 7 0) })

/-- What the ended tick tells a standby at its T0 (R349, R351, R353, R357, R358, R360): the chip as it goes on, and the
journal that it applies, if any. -/
def Chip.stbyJudge (c : Chip) (tb : TimeBase) : Chip × Option (List Entry) :=
  let t := c.stby
  let shut := fun d : Chip => d.modStby (fun u => { u with journal := t.rest, sealed := none })
  let silent := !t.gatherSeen && !t.tickSeen
  let c := c.when silent (fun c => c.trouble STBY.SILENT)
  let c := c.modStby (fun t => { t with silentRun := if silent then t.silentRun + 1 else 0 })
  let js := t.sealedJournal
  if c.eligible then ((c.takeover tb (c.tickNo + 1)).modStby (fun u => { u with journal := [], sealed := none }), js)
  else if 2 ≤ c.stby.silentRun then
    ((((c.setSstate 0).setF STBY.CATCH 31 28 0xF).enterListen).modStby (fun t => { t with silentRun := 0, journal := [], sealed := none }), none)
  else if t.listenNext || (c.follows && t.says 2) then
    (((c.setSstate 3).setF STBY.CATCH 31 28 0xF).modStby (fun t => { t with listenNext := false, oosNext := false, journal := [], sealed := none }), none)
  else if (t.oosNext || (c.follows && (t.says 3 || t.says 4))) && decide (t.sstate = 1 ∨ t.sstate = 2) then (shut c.enterCatchup, none)
  else if !c.follows then (shut c, none)
  else
    let noRelay := (!silent || t.sealed.isSome) && c.runSegs.any (fun g => (c.seg g).active && !t.relayed.contains g &&
      decide (c.segLate g + 2000 ≤ c.segOfs tb g))
    if noRelay || (t.unsealed && !silent) then (shut c.enterCatchup, none)
    else if t.sealed.isNone then (shut (c.modStby (fun u => { u with unsealed := true })), none)
    else if js.isNone then (shut c.enterCatchup, none)
    else (shut c, js)

/-- Flags of the ended tick are cleared. -/
def Chip.stbyTick (c : Chip) : Chip :=
  c.modStby (fun t => { t with
    gatherSeen := false, tickSeen := false, mism := [], xsCount := 0, refused := 0, gaveN := 0 })

/-- A relayed publication is made (R352): its bytes enter the area of its entry, and the SEQ block takes its runs.  The cycle record of a kind 2
publication has been learnt from, and kind 3 follows (R233). -/
def Chip.installPub (tb : TimeBase) (r : Chip × Tab (Option Word)) (e : CatchPub) : Chip × Tab (Option Word) :=
  let c := r.1.smemMeet tb e.pot (r.1.svcAddr e.pot (svcEntry e.kind e.pot e.param)) 8
  let area := potMem e.pot (c.svcArea e.pot (svcEntry e.kind e.pot e.param) 1 + e.ofs)
  let c := (c.smemWrite tb e.pot area e.bytes.length).setBytes area e.bytes
  let c := c.when (decide (e.kind = 2 ∧ e.ofs = 0)) (fun c => c.modGrp e.param (fun t => { t with k2 := t.k2.drop 1, k3 := true }))
  e.runs.foldl (fun (r : Chip × Tab (Option Word)) (x : Nat × SeqRun) =>
    let q := (r.1.modGrp x.1 (fun t => { t with run := some x.2 })).seqTake x.1
    (q.1.tellAxes tb r.1, q.2.foldl (fun t w => Tab.set (fun _ => none) t w.1 w.2) r.2)) (c, r.2)

/-- Publications of the IMAGE, AXES and SLOW phases that the SEAL names are installed (R352). -/
def Chip.installPubs (c : Chip) (tb : TimeBase) (named : List (Nat × Nat)) : Chip × Tab (Option Word) :=
  let mine := c.stby.catchPubs.filter (fun e => named.contains (e.pot, e.kind))
  let d := c.modStby (fun t => { t with
    catchPubs := t.catchPubs.filter (fun e => !named.contains (e.pot, e.kind))
    slowWait := t.slowWait.filter (fun w => !named.contains w)
    pubAt := if c.isStandby && decide (t.sstate = 1) then named.foldl (fun m e => Tab.set (fun _ => 0) m (8 * e.1 + e.2) (c.tickNo + 1)) t.pubAt
      else t.pubAt })
  let r := mine.foldl (Chip.installPub tb) (d, [])
  (r.1.noteChanged (if c.imaging then Chip.diffRegs c r.1 else []), r.2)

/-- A state block is installed, with the counts that its configuration half holds (R352). -/
def Chip.installBlock (c : Chip) (e : Nat × List Byte) : Chip :=
  let b := c.axBlock e.1
  let c := c.setBytes b (padTo 0x400 e.2)
  c.modAx e.1 (fun x => { x with
    coefGen := (List.range 4).map (fun k => c.loadLE (b + 8 + k) 1), clrMask := BitVec.ofNat 32 (c.loadLE (b + 0xC) 4)
    clrGen := c.loadLE (b + 0x34) 1, rezGen := c.loadLE (b + 0x19C) 1 })

/-- A publication of Pot `p` and kind `k` was made at a T0 later than that of tick `t`, as far as SEALs have told. -/
def Chip.pubSince (c : Chip) (p k t : Nat) : Bool := decide (t + 1 < Tab.get (fun _ => 0) c.stby.pubAt (8 * p + k))

/-- The slow cups that the head has released before this T0 and not published before it, as a standby in catch-up can tell (R233, R352): kinds 0
and 1 by their grid, kind 2 by the cycle records that wait, kind 3 by the publication of kind 2 (DEDUCED, log 98). -/
def Chip.slowFlight (c : Chip) : List (Nat × Nat) :=
  let last := fun (div : Nat) => (c.tickNo - 1) / div * div
  (List.range c.nPots).flatMap (fun p =>
    let mine := fun g : Nat => decide (g % c.nPots = p)
    (if !(c.served p).isEmpty && !c.pubSince p 0 (last c.profDiv) then [(p, 0)] else []) ++
    (if (List.range 32).any (fun g => mine g && c.en (pgSeq g)) && !c.pubSince p 1 (last c.seqDiv) then [(p, 1)] else []) ++
    (if (List.range 32).any (fun g => mine g && !(c.grp g).k2.isEmpty) then [(p, 2)] else []) ++
    (let two := Tab.get (fun _ => 0) c.stby.pubAt (8 * p + 2)
     if two ≠ 0 ∧ Tab.get (fun _ => 0) c.stby.pubAt (8 * p + 3) ≤ two then [(p, 3)] else []))

/-- The phases of catch-up at a T0 (Table 13.3), where `flight` was on the way when it came. -/
def Chip.catchStep (c : Chip) (flight : List (Nat × Nat)) : Chip :=
  match c.catchPhase with
  | some 0 => if c.stby.paired && c.stby.aligned then c.setF STBY.CATCH 31 28 1 else c
  | some 1 => if c.stby.imageEnd then c.setF STBY.CATCH 31 28 2 else c
  | some 2 =>
    let l := c.stby.catchBlocks
    let c := l.foldl Chip.installBlock c
    let c := c.modStby (fun t => { t with catchBlocks := [], caught := (t.caught ++ l.map (fun e => e.1)).dedup })
    let c := c.setF STBY.CATCH 8 0 c.stby.caught.length
    if c.enAxes.all (fun a => c.stby.caught.contains a) then
      (c.setF STBY.CATCH 31 28 3).modStby (fun t => { t with
        slowWait := flight.filter (fun w => !c.pubSince w.1 w.2 (c.tickNo - 1)) })
    else c
  | some 3 =>
    if c.stby.slowWait.isEmpty then ((c.setSstate 2).setF STBY.CATCH 31 28 0xF).setN STBY.QUIET 0 else c
  | _ => if c.stby.sstate = 2 then c.trouble STBY.QUIET else c

/-- The handover of this T0 (R361, R366): the head becomes standby, its IN_STEP standby becomes head. -/
def Chip.handoverAt (c : Chip) (tb : TimeBase) : Chip :=
  if c.stby.handover ≠ some c.tickNo then c
  else if c.isHead then
    let f := c.stby.fault
    let next := c.tenure + 1
    let c := (c.setN STBY.DEPOSE ((if f = 0 then 3 else 2) * 2 ^ 28 + f * 2 ^ 24 + next)).setN STBY.DEPOSE_TICK c.tickNo
    let c := ((c.evt pgStby 6).latchTenure next).modStby (fun t => { t with handover := none, handReq := false, fault := 0, xs := [] })
    let c := c.setSstate (if f = 0 then 2 else 3)
    (c.enterStandby 4).setN STBY.QUIET 0
  else if c.isStandby && decide (c.stby.sstate = 2) && c.headCapable then (c.takeLine tb).evt pgStby 6
  else c.modStby (fun t => { t with handover := none })

/-! ### GUARD_OPEN -/

/-- Every enabled door group is closed and locked, open, in fault or isolated (R367). -/
def Chip.groupsQuiet (c : Chip) : Bool :=
  (List.range 32).all (fun g => !c.en (pgSeq g) || [0, 3, 8, 15].contains (c.seqState g))

/-- The groups whose units of the next T0 would be refused, as the head finds at GUARD_OPEN (R350). -/
def Chip.willRefuse (c : Chip) (tb : TimeBase) : Nat :=
  let c := (c.modTg (fun t => { t with tickNo := t.tickNo + 1#64 })).modStby (fun t => { t with refused := 0 })
  (((c.publications tb none).1).runUnits tb (fun u => decide (u.due = 1))).stby.refused

/-- The handover that the SEAL of this tick announces (R361, R366, R367). -/
def Chip.sealHandover (c : Chip) : Option Nat :=
  let h := c.tickNo + 1
  let claim := match c.stby.claim with
    | some (t, recl) => decide (t = h % 2 ^ 32) && c.tg.change.isNone && (decide (recl ≠ 2) || c.groupsQuiet)
    | none => false
  if decide (c.stby.peerSstate = 2 ∧ c.tenure ≠ 0xFFFF) && (c.stby.handReq || claim) then some h else none

/-- The head closes the journal of the tick (R41, R350). -/
def Chip.sealOut (c : Chip) (tb : TimeBase) : Chip :=
  if !(c.isHead && c.stby.paired) || c.stby.deposed then c
  else
    let h := c.sealHandover
    let pubs := (Chip.duePubs (c.modTg (fun t => { t with tickNo := t.tickNo + 1#64 })) none).map (fun w => (w.home, w.kind))
    let s : Seal := ⟨c.tickNo % 2 ^ 32, c.stby.sent, c.willRefuse tb, pubs, h, journalCrc c.stby.own⟩
    (c.linkSend (.seal s)).modStby (fun t => { t with handover := h, claim := none, sent := 0, own := [] })

/-- A standby reclaims (R367). -/
def Chip.reclaim (c : Chip) (tb : TimeBase) : Chip :=
  let r := c.rf STBY.CFG 9 8
  if c.isStandby && decide (c.role = 1 ∧ c.stby.headRole ≠ 1 ∧ c.stby.sstate = 2 ∧ c.rn STBY.RECLAIM_QUIET ≤ c.rn STBY.QUIET) &&
      (decide (r = 1) || (decide (r = 2) && c.groupsQuiet && c.tg.change.isNone)) && c.stby.paired then
    c.linkSend (.claim ((c.tickNo + 2) % 2 ^ 32) r)
  else c

/-- GUARD_OPEN (R41, R350, R356, R367). -/
def Chip.guard (c : Chip) (tb : TimeBase) : Chip :=
  if c.tg.running && !c.tg.guarded && decide (c.guardOpen ≤ c.ofs tb) then
    let c := c.modTg (fun t => { t with guarded := true })
    let c := if c.isHead then c.voidCross tb else c
    (c.sealOut tb).reclaim tb
  else c

/-! ### Registers -/

/-- A write of `STBY.CFG` (R342, Table 13.5). -/
def Chip.writeStbyCfg (c : Chip) (v : Word) : Chip :=
  let c := if fld v 9 8 = 3 then c else c.setF STBY.CFG 9 8 (fld v 9 8)
  let c := c.setF STBY.CFG 5 5 (fld v 5 5)
  let off := c.pairEn && !bit v 4
  let c := c.setF STBY.CFG 4 4 (fld v 4 4)
  let c := if off then (c.setPaired false).modStby (fun t => { t with sl0 := false, sl1 := false, refuse := 0 }) else c
  if fld v 1 0 = c.role then c
  else if fld v 1 0 = 3 || c.tg.running then c.evt pgStby 8
  else c.setF STBY.CFG 1 0 (fld v 1 0)

/-- A write of RECLAIM_QUIET (Table 13.5). -/
def Chip.writeReclaimQuiet (c : Chip) (v : Word) : Chip :=
  if 1000 ≤ v.toNat ∧ v.toNat ≤ 4000000 then c.setReg STBY.RECLAIM_QUIET v else c.evt pgStby 8

/-- HANDOVER written on the head (R366): there is an IN_STEP standby, and a higher tenure. -/
def Chip.handoverAsk (c : Chip) : Chip :=
  if c.isHead && c.stby.paired && decide (c.stby.peerSstate = 2 ∧ c.tenure ≠ 0xFFFF) then c.modStby (fun t => { t with handReq := true })
  else c

/-- REJOIN (R353). -/
def Chip.rejoin (c : Chip) : Chip := if c.isStandby && decide (c.stby.sstate = 3) then c.enterCatchup else c

/-- A write of `STBY.CTRL`. -/
def Chip.writeStbyCtrl (c : Chip) (v : Word) : Chip :=
  let c := c.when (bit v 1) Chip.handoverAsk
  c.when (bit v 0) Chip.rejoin

/-! ### Commands -/

/-- GUARD_OPEN (R41). -/
def execGuardOpen (s : State) : Res := .next (s.onChip (fun c => c.guard s.tb))

/-- A frame is forwarded (R344); a standby aligns by the Gather copies that pass it (R345). -/
def execFrameForward (port : Nat) (f : RxFrame) (s : State) : Res :=
  .next ((s.onChip (fun c => c.forward s.tb port f)).lineCorrect port f)

/-- A COLDSTART frame is received (R320): a chip that forwards forwards and judges it, a head receives it and goes on. -/
def execColdstartReceive (port : Nat) (f : RxFrame) (s : State) : Res :=
  .next (s.onChip (fun c => if c.forwards f then c.forward s.tb port f else c.rxHead s.tb port f))

/-- A passing Pour is compared (R355). -/
def execPourCompare (port : Nat) (f : RxFrame) (s : State) : Res := .next (s.onChip (fun c => c.pourCompare s.tb port f))

/-- HELLO leaves every 1 ms (R347). -/
def execHelloSend (s : State) : Res :=
  .next (s.onChip (fun c =>
    if c.linkUpStby then
      c.linkSend (.hello (c.rf CHIP.CHIP_ID 31 16) (c.rf CHIP.CHIP_ID 7 0) c.unitId c.role c.lstate c.tenure c.stby.sstate)
    else c))

/-- A HELLO arrives (R348). -/
def execHello (x : LinkRx) (part rev id role lstate sstate : Nat) (s : State) : Res :=
  .next (s.onChip (fun c => c.linkIn x (fun c => c.hello s.tb x part rev id role lstate sstate)))

/-- A SEAL arrives (R350, R351); `ok` says that the CRC of the journal agrees with it. -/
def execSeal (x : LinkRx) (m : Seal) (ok : Bool) (s : State) : Res :=
  .next (s.onChip (fun c => c.pairedIn x (fun c =>
    if !c.isStandby then c
    else
      let c := c.modStby (fun t => { t with handover := m.handover })
      if !(c.follows || decide (c.stby.sstate = 1)) || decide (m.tick ≠ c.tickNo % 2 ^ 32) then c
      else if ok then c.modStby (fun t => { t with sealed := some m }) else c.fallOut)))

/-- A TICK message arrives (R347). -/
def execTickMessage (x : LinkRx) (no role id : Nat) (samples : List (List Word)) (s : State) : Res :=
  .next (s.onChip (fun c => c.pairedIn x (fun c => c.tickMsg s.tb x no role id samples)))

/-- A RELAY arrives (R349); `ok` says that the CRC of its inputs agrees with its contents, as does the CRC itself where the sender gives it. -/
def execRelay (x : LinkRx) (ok : Bool) (g : Nat) (miss : Bool) (srcB : Nat) (recs : List NodeRec) (s : State) (crc : Option Word := none) : Res :=
  .next (s.onChip (fun c => c.pairedIn x (fun c =>
    let good := match crc with | some w => decide (w = inputsCrc g miss srcB (c.missingMask g recs) recs) | none => true
    c.relay s.tb (ok && good) g miss srcB recs)))

/-- A REPORT arrives (R356). -/
def execReport (x : LinkRx) (g : Nat) (mism : List (Nat × List Byte)) (digests : List (Nat × Nat)) (s : State) : Res :=
  .next (s.onChip (fun c => c.pairedIn x (fun c => c.report s.tb g mism digests)))

/-- A completed cross-steep is compared (R356). -/
def execVerdict (a : Nat) (s : State) : Res := .next (s.onChip (fun c => c.verdictOf s.tb a))

/-- An entry that clears FS of an axis has been accepted after a setting that an earlier RELAY brought (R278): on the standby, where the RELAY
tells no instant, the setting is put before the acceptance (DEDUCED, log 98). -/
def Chip.fsOrder (c : Chip) (tb : TimeBase) (seq : Nat) (e : Entry) : Chip :=
  let before := fun (a : Nat) (t : Word) =>
    match (c.ax a).fsMsg with
    | some m => if (seq + 2 ^ 16 - m) % 2 ^ 16 < 2 ^ 15 then
        c.modAx a (fun x => { x with fsAt := min x.fsAt (tb.extOf (tb.fastOf t.toNat) - 1), fsMsg := none }) else c
    | none => c
  match e with
  | .unit (.fsClear a) _ t _ => before a t
  | .unit (.reset b) _ t _ => if 0x100000 ≤ b ∧ b < 0x200000 then before ((b - 0x100000) / 0x1000) t else c
  | _ => c

/-- An ENTRY arrives (R350). -/
def execEntry (x : LinkRx) (e : Entry) (s : State) : Res :=
  .next (s.onChip (fun c => c.pairedIn x (fun c =>
    if c.follows || (c.isStandby && decide (c.stby.sstate = 1)) then
      (c.fsOrder s.tb x.seq e).modStby (fun t => { t with journal := t.journal ++ [e] })
    else c)))

/-- A CLAIM arrives (R367). -/
def execClaim (x : LinkRx) (h recl : Nat) (s : State) : Res :=
  .next (s.onChip (fun c => c.pairedIn x (fun c =>
    if c.isHead then c.modStby (fun t => { t with claim := some (h % 2 ^ 32, recl) }) else c)))

/-- A CATCH message arrives (R352). -/
def execCatch (x : LinkRx) (l : List CatchItem) (s : State) : Res :=
  .next (s.onChip (fun c => c.pairedIn x (fun c => if c.isStandby then l.foldl Chip.catchItem c else c)))

/-- The head may put a piece into a CATCH message (R352): state blocks of enabled axes go in ascending order, up to 16 in a tick, and after
the axis's cup of the tick. -/
def Chip.mayGive (c : Chip) (x : CatchAsk) : Bool :=
  match x with
  | .axis a =>
    let s := c.seg (c.axSeg a)
    c.axEn a && decide (c.stby.gaveTo ≤ a ∧ c.stby.gaveN < 16) && (!c.axRuns a || !s.active || s.returned || s.missed) &&
      !s.waiting.contains a && !c.owesCup a (c.tickNo + 1)
  | _ => true

/-- The Pot memory that a piece of catch-up data is read from (R178). -/
def Chip.meetGive (c : Chip) (tb : TimeBase) (x : CatchAsk) : Chip :=
  match x with
  | .axis a => c.smemMeet tb (c.axHome a) (c.axBlock a) 0x400
  | .pub p k o => match (c.pot p).slowDone.find? (fun w => decide (w.kind = k)) with
    | some w => c.smemMeet tb p (globalMem w.staging + o) (min 1024 (w.len - o))
    | none => c
  | _ => c

/-- One piece of catch-up data leaves, in a message of its own (Table 13.1: up to 1 024 bytes).  The mode in force is the first piece of an image:
the registers that follow are those of the T0 of its tick (DESIGN CHOICE, log 95). -/
def Chip.catchOut (c : Chip) (tb : TimeBase) (x : CatchAsk) : Chip :=
  if c.mayGive x then
    let c := c.meetGive tb x
    (c.linkSend (.catchUp [c.catchGive x])).modStby (fun t => match x with
      | .axis a => { t with gaveN := t.gaveN + 1, gaveTo := a + 1 }
      | .mode => { t with image := t.atT0.map (fun e => e.1), gaveTo := 0 }
      | .imageEnd => { t with gaveTo := 0 }
      | _ => t)
  else c

/-- The head sends catch-up data (R352). -/
def execCatchSend (l : List CatchAsk) (s : State) : Res :=
  .next (s.onChip (fun c =>
    if c.isHead && c.stby.paired && decide (c.stby.peerSstate = 1) then l.foldl (fun (c : Chip) (x : CatchAsk) => c.catchOut s.tb x) c else c))

/-- No valid message for 2 ticks, or for 2 ms while the tick is stopped (R348). -/
def execStandbyLinkDown (s : State) : Res :=
  .next (s.onChip (fun c =>
    if c.stby.paired && decide ((if c.tg.running then 2 * c.period else 2000000) ≤ c.stby.quietNs) then c.setPaired false else c))

/-- A takeover (R358). -/
def execTakeover (s : State) : Res :=
  let c := s.chip.takeover s.tb s.chip.tickNo
  .next { s with chip := c, tb := s.tb.keepOver s.chip c }

/-- Writing STBY.CTRL.HANDOVER (R366). -/
def execHandover (p : Port) (s : State) : Res := .next (s.onChip (fun c => c.gated p STBY.CTRL Chip.handoverAsk))

/-- Writing STBY.CTRL.REJOIN (R353). -/
def execRejoin (p : Port) (s : State) : Res := .next (s.onChip (fun c => c.gated p STBY.CTRL Chip.rejoin))

/-- A write of STBY.CFG (R342). -/
def execRoleWrite (p : Port) (v : Word) (s : State) : Res :=
  .next (s.onChip (fun c => c.gated p STBY.CFG (fun c => c.writeStbyCfg v)))

/-- A head validates a head frame of another chip (R363). -/
def execDeposed (port : Nat) (f : RxFrame) (s : State) : Res :=
  .next (s.onChip (fun c =>
    let c := c.rxHead s.tb port f
    if c.foreignHead port f then c.deposedBy s.tb (fTenure f.bytes) (fUnit f.bytes) else c))

/-- A head frame of lower tenure reaches a head (R364). -/
def execOldTenure (port : Nat) (f : RxFrame) (s : State) : Res :=
  .next (s.onChip (fun c =>
    let c := c.rxHead s.tb port f
    if c.isHead && !c.stby.deposed && c.foreignHead port f && decide (fTenure f.bytes < c.tenure) then c.trouble STBY.OLD_TENURE else c))

/-- A lane of the standby link gains or loses block lock (R348). -/
def execSlLaneLock (lane : Nat) (locked : Bool) (s : State) : Res :=
  .next (s.onChip (fun c =>
    let locked := locked && !(c.rst.lost.contains 0 || c.rst.unlocked.contains 4)
    if !c.pairEn then c
    else c.modStby (fun t => if lane = 0 then { t with sl0 := locked } else { t with sl1 := locked })))

end Sys2Proof.Machine
end

