-- ==== Sys2Proof/Machine/Tray.lean ====
section
/-!
DEFINITION. The Tray (R42, R422 to R426, R429): the image of a tick, its publication, the registers that show the latest image, the
observations of TICK-base capture units (R374), and holds.
-/

namespace Sys2Proof.Machine

/-- A little-endian word. -/
def le4 (v : Nat) : List Byte := leBytes 4 v

/-- What the T0 of a tick leaves for its image (R426). -/
def Chip.trayLatch (c : Chip) : Chip :=
  { c with tray := { c.tray with
      lines := c.pair EVX.LEVEL_LO EVX.LEVEL_HI
      summary := (below 32 (fun g => c.srcLevel (0x68 + g))).foldl (fun m g => m + 2 ^ g) 0
      commitOk := c.reg CHIP.COMMIT_OK
      lfAt := (List.range 16).map (fun n => (c.reg (LF.IDX_COUNT n), c.reg (LF.HITS n))) } }

/-- The chip has taken a Gather, or on a standby the inputs of one, and runs cups (R42): in this tick, or in a CYCLE4 segment's cycle. -/
def Chip.steeping (c : Chip) : Bool :=
  (c.isHead || (c.isStandby && decide (c.stby.sstate = 1 ∨ c.stby.sstate = 2))) &&
  (below 16 (fun g => c.segRun g && (c.seg g).active && (c.seg g).returned)) ≠ []

/-- The mark STALE of an axis.  That an enabled axis of a segment which does not run has it beside others that do is not stated (DESIGN CHOICE,
log 100). -/
def Chip.trayStale (c : Chip) (a : Nat) : Bool := (c.ax a).stale || !c.steeping || (c.axEn a && !c.axRuns a)

/-- The mark HOLD of an axis (R42): the head's last record carried HOLD; on a standby, whose Pours the head sends, the cup of its own
tick was late or missing. -/
def Chip.trayHold (c : Chip) (tb : TimeBase) (a : Nat) : Bool :=
  if c.isStandby then
    c.runsCups a && c.axRuns a && (c.ax a).img.isNone && decide (c.segClose (c.axSeg a) ≤ c.segOfs tb (c.axSeg a))
  else (c.ax a).hold

/-- The image of this tick still shows the segment's last cycle: its cups and Pour belong to the image of tick 1 of the cycle (R311). -/
def Chip.trayEarly (c : Chip) (tb : TimeBase) (g : Nat) : Bool := c.segRun g && c.cyc4 g && c.inTick tb g 0

/-- Bytes of the latest image. -/
def Chip.trayOld (c : Chip) (o n : Nat) : List Byte :=
  match c.tray.latest with
  | some i => c.bytes (trayBase i + o) n
  | none => List.replicate n 0#8

/-- A word whose bits under a mask come from the latest image. -/
def Chip.trayMix (c : Chip) (early : Bool) (o v : Nat) (m : Word) : List Byte :=
  if early then
    le4 (((BitVec.ofNat 32 v) &&& ~~~m) ||| ((BitVec.ofNat 32 (ofLE (c.trayOld o 4))) &&& m)).toNat
  else le4 v

/-- A mask over the segments. -/
def Chip.segMask (c : Chip) (p : Nat → Bool) : Nat := (below c.nSegs p).foldl (fun m g => m + 2 ^ g) 0

/-- The segments whose last cycle this image still shows (R311). -/
def Chip.earlyMask (c : Chip) (tb : TimeBase) : Nat := c.segMask (c.trayEarly tb)

/-- A mask of segments, or of objects of them, whose bits under `m` come from the latest image. -/
def Chip.trayMask (c : Chip) (o v m : Nat) : List Byte := c.trayMix (decide (m ≠ 0)) o v (BitVec.ofNat 32 m)

/-- The head of an image (Table 16.4). -/
def Chip.imgHead (c : Chip) (tb : TimeBase) (gen : Word) : List (Nat × List Byte) :=
  [ (0x00, le4 gen.toNat), (0x04, leBytes 8 c.tickNo), (0x0C, le4 c.tg.t0Fast.toNat),
    (0x10, le4 (c.tg.mode + 2 ^ 4 * c.lstate + 2 ^ 16 * c.tenure)),
    (0x14, c.trayMask 0x14 (c.segMask c.segRun + 2 ^ 16 * c.segMask (fun g => (c.seg g).missed)) (2 ^ 16 * c.earlyMask tb)),
    (0x18, le4 tb.fast.toNat), (0x1C, c.trayMask 0x1C (c.segMask (fun g => (c.seg g).held)) (c.earlyMask tb)), (0x20, le4 c.tray.commitOk.toNat),
    (0x700, leBytes 4 ((List.range 4).foldl (fun m b => m + 2 ^ (8 * b) * c.rf (EP.EP_LATCH b) 7 0) 0)
      ++ leBytes 4 (c.rf (EP.EP_LATCH 4) 7 0 + 2 ^ 8 * c.rf (EP.EP_LATCH 5) 7 0) ++ leBytes 8 c.tray.lines) ]

/-- The block of a door group (Table 16.5): LATCH of a member is that of the outputs which the image shows (R311). -/
def Chip.imgGroup (c : Chip) (tb : TimeBase) (g : Nat) : Nat × List Byte :=
  let ms := c.membersOf g
  let mask := fun p : Nat → Bool => (ms.filter (fun x => p x.axis)).foldl (fun m x => m + 2 ^ x.m) 0
  (0x100 + 0x20 * g, le4 (c.rn (SEQ.STAT g)) ++ le4 (c.rn (SEQ.ENTRY_TICK g)) ++ le4 (c.rn (SEQ.OBS g)) ++ le4 (c.rn (SEQ.CYCLES g))
    ++ c.trayMask (0x100 + 0x20 * g + 0x10) (b2n (c.tray.summary.testBit g) + 2 ^ 16 * mask (fun a => outsLatch (c.ax a).outs))
      (2 ^ 16 * mask (fun a => c.axEn a && c.trayEarly tb (c.axSeg a)))
    ++ le4 (mask (fun a => c.rb (AXIS.STAT a) 31 || c.axStalled a || c.axOrphan a)))

/-- The block of a local feedback channel (Table 16.4). -/
def Chip.imgLf (c : Chip) (n : Nat) : Nat × List Byte :=
  let x := c.tray.lfAt.getD n (0#32, 0#32)
  (0x500 + 0x20 * n, le4 (c.rn (LF.S_COUNT n)) ++ le4 (c.rn (LF.S_EDGE n)) ++ le4 (c.rn (LF.S_STAT n)) ++ le4 (c.rn (LF.SPEED n))
    ++ le4 (c.rn (LF.FSTAT n)) ++ le4 x.1.toNat ++ le4 x.2.toNat)

/-- The block of a segment (Table 16.5). -/
def Chip.imgSeg (c : Chip) (tb : TimeBase) (g : Nat) : List (Nat × List Byte) :=
  let s := c.seg g
  let b := 0x1000 + 0x100 * g
  let early := c.trayEarly tb g
  let mark := c.trayMix early b (b2n (c.segRun g) + 2 * b2n s.missed + 4 * b2n s.split + 8 * b2n s.fromB + 16 * b2n (c.hasLink (2 * g))
        + 32 * b2n (c.hasLink (2 * g + 1)) + 64 * b2n s.held) 0x4E#32
  if early then [(b, mark ++ c.trayOld (b + 4) 20), (b + 0x80, c.trayOld (b + 0x80) 128)]
  else (b, mark
      ++ le4 (c.rn (SEG.NODE_PRESENT g)) ++ le4 (c.rn (SEG.NODE_ALARM g)) ++ le4 (c.rn (SEG.NODE_AFS g))
      ++ le4 (if s.returned then s.retOfs else 0) ++ le4 (if s.poured then s.pourOfs else 0)) ::
  (List.range 16).map (fun i => (b + 0x80 + 8 * i, flipFields [2, 2, 1, 1, 2] (padTo 8 (s.node (i + 1)).hdr)))

/-- The block of an axis (Table 16.5), its fields little-endian (R423). -/
def Chip.imgAxis (c : Chip) (tb : TimeBase) (a : Nat) : Nat × List Byte :=
  let x := c.ax a
  let mode := c.rf (AXIS.LMODE a) 1 0
  let hold := c.trayHold tb a
  let early := c.axEn a && c.trayEarly tb (c.axSeg a)
  let b := 0x2000 + 0x80 * a
  let mark := c.trayMix early b (b2n (c.axEn a) + 2 * b2n hold + 4 * b2n (c.trayStale a) + 8 * b2n (c.rb (AXIS.STAT a) 31) + 16 * b2n (c.axStalled a)
      + 32 * b2n (c.axOrphan a) + 64 * b2n x.fromB + 2 ^ 8 * mode) 0x46#32
  if early then (b, mark ++ c.trayOld (b + 4) 124)
  else (b,
    mark ++ le4 (if hold && !c.isStandby then 8 * x.lastComp else x.compOfs)
    ++ flipFields (if mode = 0 then [2, 2, 2, 2] else [4, 2, 2]) (padTo 8 x.sent) ++ flipFields [2, 2, 4, 4] (padTo 12 x.record)
    ++ le4 (c.rn (AXIS.HOLD_CNT a)) ++ List.replicate 32 0#8 ++ padTo 64 x.outs)

/-- The image of this tick (R42, R426). -/
def Chip.image (c : Chip) (tb : TimeBase) (gen : Word) : List (Nat × List Byte) :=
  c.imgHead tb gen ++ (List.range 32).map (c.imgGroup tb) ++ (List.range 16).map c.imgLf ++ (List.range c.nSegs).flatMap (c.imgSeg tb)
    ++ (List.range c.nAxes).map (c.imgAxis tb)

/-- A 32-bit field of an axis's Tray outputs, at its cup-port offset. -/
def outWord (l : List Byte) (o : Nat) : Word := BitVec.ofNat 32 (ofLE (((padTo 64 l).drop (o - 0x90)).take 4))

/-- The bits of BUMP_FAIL in LFLAGS (Table 7.3). -/
def bumpBits : Word := 0x08080808#32

/-- Where an image keeps the Tray outputs of an axis (Table 16.5). -/
def trayOuts (a : Nat) : Nat := 0x2000 + 0x80 * a + 0x40

/-- The registers of an axis that show the latest image, in buffer `i`, with the events of what it has and the image before it, whose outputs
were `old`, had not (R192, R207, R231, R259). -/
def Chip.axisShow (c : Chip) (i : Nat) (old : List Byte) (a : Nat) : Chip :=
  let l := c.bytes (trayBase i + trayOuts a) 64
  let fl := outWord l 0xB0
  let fs := outWord l 0xC0
  let ow := outWord l 0xCC
  let new := fl &&& ~~~(outWord old 0xB0)
  let latch := bit ow 18 && !bit (outWord old 0xCC) 18
  let c := c.when (decide (new ≠ 0#32)) (fun c => c.evt (axPg a) 1)
  let c := c.when (decide (new &&& bumpBits ≠ 0#32)) (fun c => c.evt (axPg a) 2)
  let c := c.when (bit fs 16 && !bit (outWord old 0xC0) 16) (fun c => c.evt (axPg a) 3)
  let c := c.when (bit fs 5) (fun c => c.evt (axPg a) 4)
  let c := c.when latch (fun c => (c.evt (axPg a) 5).setN (AXIS.OBS_TICK a) c.tickNo)
  let c := (((c.setReg (AXIS.LSTAT a) fl).setReg (AXIS.POS_LO a) (outWord l 0xB4)).setReg (AXIS.POS_HI a) (outWord l 0xB8)).setReg
    (AXIS.SPEED a) (outWord l 0xBC)
  ((((c.setReg (AXIS.FSTAT a) fs).setReg (AXIS.SEC_SPEED a) (outWord l 0xC4)).setReg (AXIS.F_EST a) (outWord l 0xC8)).setReg
    (AXIS.OBS_WORD a) ow)

/-- Buffer `i` becomes front. -/
def Chip.toFront (c : Chip) (i : Option Nat) : Chip :=
  match i with
  | none => c
  | some i => Chip.setN { c with tray := { c.tray with front := some i } } TRAY.GEN (c.loadLE (trayBase i) 4)

/-- A buffer that holds neither the front nor the latest image (R422). -/
def Tray.spare (t : Tray) : Nat := (firstBelow 3 (fun i => decide (t.front ≠ some i ∧ t.latest ≠ some i))).getD 0

/-- Write an image to a buffer. -/
def Chip.putImage (c : Chip) (i : Nat) (l : List (Nat × List Byte)) : Chip :=
  l.foldl (fun (d : Chip) (e : Nat × List Byte) => d.setBytes (trayBase i + e.1) e.2) (c.fillZero (trayBase i) 0x40000)

/-- The image in buffer `i` becomes latest. -/
def Chip.toLatest (c : Chip) (tb : TimeBase) (i : Nat) (gen : Word) : Chip :=
  Chip.evt (Chip.setReg (Chip.setReg { c with tray := { c.tray with gen := gen, latest := some i } } TRAY.LATEST_GEN gen)
    TRAY.PUB_FAST tb.fast) 0x9000 0

/-- What a publication in buffer `i` does to the front image and the hold (R425). -/
def Chip.stepHold (c : Chip) (i : Nat) : Chip :=
  let left := c.rf TRAY.HOLD 11 8
  if left = 0 then c.toFront (some i)
  else if left = 1 then (((c.setReg TRAY.HOLD 0#32).toFront (some i)).evt 0x9000 1).trouble TRAY.HOLD_EXP
  else c.setF TRAY.HOLD 11 8 (left - 1)

/-- The publication of a tick's image (R42, R422, R425). -/
def Chip.trayPublish (c : Chip) (tb : TimeBase) : Chip :=
  let i := c.tray.spare
  let gen := c.tray.gen + 1#32
  let d := ((c.putImage i (c.image tb gen)).toLatest tb i gen).stepHold i
  let d := each (List.range d.nAxes) (fun a e => e.axisShow i (c.trayOld (trayOuts a) 64) a) d
  let d := each (List.range 16) (fun n e => e.tickObserve tb i n) d
  ((d.perf 0x8F 1).modTg (fun t => { t with published := true })).pulse tb 0x89

/-- POUR_CLOSE + 500 ns has come and this tick's image is not published (R42). -/
def Chip.trayDue (c : Chip) (tb : TimeBase) : Bool :=
  c.tg.running && !c.tg.published && decide (c.pourClose + 500 ≤ c.ofs tb)

/-- The start of a hold (R425). -/
def Chip.trayHoldOn (c : Chip) : Chip := if c.rb TRAY.HOLD 0 then c else c.setReg TRAY.HOLD 0x801#32

/-- The release of a hold (R425). -/
def Chip.trayRelease (c : Chip) : Chip :=
  if c.rb TRAY.HOLD 0 then (c.setReg TRAY.HOLD 0#32).toFront c.tray.latest else c

/-- A write of TRAY.HOLD. -/
def Chip.writeTrayHold (c : Chip) (v : Word) : Chip := if bit v 0 then c.trayHoldOn else c.trayRelease

/-- A word of the Tray window (R422, R423). -/
def Chip.trayWord (c : Chip) (o : Nat) : Word :=
  match c.tray.front with
  | none => 0#32
  | some i => if o < 0x40000 then BitVec.ofNat 32 (c.loadLE (trayBase i + o) 4) else 0#32

/-- A soft reset of the TRAY page ends a hold in force; the registers that show the images show them on (R57, R425). -/
def Chip.traySoft (c : Chip) : Chip :=
  let c := c.toFront (if c.tray.latest.isSome then c.tray.latest else none)
  if c.tray.latest.isSome then c.setReg TRAY.LATEST_GEN c.tray.gen else c

/-! ### Commands -/

/-- The publication of the Tray image (R42). -/
def execTrayPublish (s : State) : Res := .next (s.onChip (fun c => if c.trayDue s.tb then c.trayPublish s.tb else c))

/-- Writing 1 to HOLD (R425). -/
def execTrayHold (p : Port) (s : State) : Res := .next (s.onChip (fun c => c.gated p TRAY.HOLD Chip.trayHoldOn))

/-- Writing 0 to HOLD (R425). -/
def execTrayHoldRelease (p : Port) (s : State) : Res := .next (s.onChip (fun c => c.gated p TRAY.HOLD Chip.trayRelease))

end Sys2Proof.Machine
end

