-- ==== Sys2Proof/Machine/T0.lean ====
section
/-!
DEFINITION. The T0 of a tick (R90, R91, R235 and the rules that act at T0), the stop of the tick (R90) and cycle points (R92, R93).
-/

namespace Sys2Proof.Machine

/-! ### The mode in force -/

/-- Mode `m` comes into force: the copies of its set and of the segments' apply words (R88, R294). -/
def Chip.loadMode (c : Chip) (m : Nat) : Chip :=
  let c := c.modTg (fun t => { t with mode := m })
  let c := each (List.range 7) (fun i c => c.setReg (TICK.NOW_PERIOD + 4 * i) (c.reg (TICK.MODE_PERIOD m + 4 * i))) c
  each (List.range 16) (fun g c => c.setReg (SEG.APPLY g) (c.reg (SEG.APPLY_M g m))) c

/-- The switch of an acknowledged change at the T0 of its tick (R307, R308). -/
def Chip.modeSwitch (c : Chip) : Chip :=
  match c.tg.change with
  | some x =>
    if x.confirmed ∧ x.tick = c.tg.tickNo then
      let c := (c.modTg (fun t => { t with change := none, modeSince := t.tickNo })).loadMode x.target
      (((c.setF TICK.MC_STAT 31 28 3).setF TICK.MC_STAT 27 24 0).bump TICK.MC_DONE).evt pgTick 11
    else c
  | none => c

/-! ### The sides of a T0 -/

/-- The Strainer outputs are latched (R402), those among them that change in this nanosecond with their new levels. -/
def Chip.epLatchAll (c : Chip) (tb : TimeBase) : Chip :=
  let c := each (below 48 (fun n => c.pinLive n && c.pinDue tb n)) (fun n c => c.pinSettle tb n) c
  each (List.range 6) (fun b c => c.setN (EP.EP_LATCH b) (c.rf (EP.EP_STAT b) 15 8)) c

/-- The level of the summary line of group `g` (R250). -/
def Chip.summary (c : Chip) (g : Nat) : Bool :=
  c.tg.running && c.en (pgSeq g) && c.rb (SEQ.CFG g) 30 && decide (c.seqState g = 0) && c.inputsProve (c.seqNow g none)

/-- Every summary line takes its level. -/
def Chip.summaries (c : Chip) (tb : TimeBase) : Chip :=
  each (List.range 32) (fun g c => if c.summary g = c.srcLevel (0x68 + g) then c else c.setSrc tb (0x68 + g) (c.summary g)) c

/-- Nodes whose parameter block was acknowledged are admitted (R324). -/
def Chip.admitNodes (c : Chip) (tb : TimeBase) (g : Nat) : Chip :=
  each (below 17 (fun k => (c.node g k).admitNext)) (fun k c =>
    let c := (c.nodeBit (SEG.NODE_ADMIT g) k true).nodeBit (SEG.NODE_REFUSED g) k false
    let c := (c.setRefuse g k 0).modNode g k (fun n => { n with admitNext := false, descOk := false, ask := false, viol := 0 })
    (c.evt (pgSeg g) 12).admitJournal tb g k 1 0) c

/-- A segment's tick, or its segment cycle, begins (R311). -/
def Chip.segBegin (c : Chip) (g : Nat) : Chip :=
  let c := (c.roundEnd g).roundClear g
  let c := c.modSeg g (fun s => { s with
    active := true, tick := c.tg.tickNo, t0 := c.tg.t0Fast, launched := false, mca := false, copyA := none, copyB := none, aBad := none,
    returned := false, missed := false, poured := false, retOfs := 0, pourOfs := 0, fromB := false, split := false, held := false,
    waiting := [], late := false, slots := 0, modeSent := false, sampled := false, pourSeen := none })
  let c := c.modStby (fun t => { t with
    relayed := t.relayed.filter (fun x => decide (x ≠ g)), compared := t.compared.filter (fun x => decide (x ≠ g)) })
  (c.segAxes g).foldl (fun (c : Chip) (a : Nat) =>
    let c := c.modAx a (fun x => { x with img := none })
    if c.isStandby then c.modAx a (fun x => { x with sec := [] }) else c.latchSec a) c

/-- Segments that begin at this T0. -/
def Chip.beginners (c : Chip) : List Nat := c.enSegs.filter (fun g => !c.cyc4 g || decide (c.tickNo % 4 = 0))

/-- Host quarantines that waited for a T0 may act from now on (Table 4.7). -/
def Chip.armQuar (c : Chip) (n : Nat) : Chip :=
  (c.modLeaf n (fun l => if l.quarReq.isSome then { l with quarArmed := true } else l)).settleLeaf n

/-- The TICK message of the head (R347): it carries the samples of the T0, and waits for those that owe an edge (R209). -/
def Chip.tickSend (c : Chip) : Chip :=
  let c := c.modStby (fun t => { t with tickOwed := c.lfOwes })
  if c.isHead && c.stby.paired && !c.lfOwes then
    c.linkSend (.tick c.tickNo c.tg.mode c.role c.unitId c.tenure
      ((List.range 16).map (fun n => [c.reg (LF.S_COUNT n), c.reg (LF.S_EDGE n), c.reg (LF.S_STAT n)])))
  else c

/-! ### The steps of R235 -/

/-- The SEQ demand unit of an instant (R248). -/
def Chip.demandUnit (c : Chip) (tb : TimeBase) (ws : Tab (Option Word)) : CUnit :=
  ⟨.seqDemand, false, 1, c.cm.seq, tb.fast, ws⟩

/-- Steps 1 and 2: publications and the groups' new states, with the SEQ demand unit that they make (R246, R248).  `named` are the
publications that a SEAL names. -/
def Chip.stepPubs (c : Chip) (tb : TimeBase) (named : Option (List (Nat × Nat))) : Chip :=
  let r := c.publications tb named
  let q := match named with | some l => r.1.installPubs tb l | none => (r.1, [])
  let ws := mergeWrites r.2 q.2
  if ws.isEmpty then q.1
  else { q.1 with cm := { q.1.cm with units := q.1.cm.units ++ [q.1.demandUnit tb ws], seq := q.1.cm.seq + 1 } }

/-- Step 3: the units that are due (R66), one accepted while no tick ran among them if its microsecond has not ended (R72). -/
def Chip.stepUnits (c : Chip) (tb : TimeBase) : Chip :=
  let c := c.runUnits tb (fun u => decide (u.due ≤ 1))
  c.modCm (fun m => { m with units := m.units.map (fun u => { u with due := u.due - 1 }) })

/-- Step 4: the configuration halves, those of the members of a group whose state moved among them, and those of every axis at a new mode (R153, R228, R257). -/
def Chip.stepHalves (c : Chip) (tb : TimeBase) : Chip :=
  let gs := below 32 (fun g => (c.grp g).dirty)
  let c := gs.foldl (fun (c : Chip) (g : Nat) =>
    (c.oweAll ((c.membersOf g).map (fun x => x.axis))).modGrp g (fun t => { t with dirty := false })) c
  -- a mode change that takes effect now, or the first T0 of a start (R228, R257)
  let new := decide (c.tg.modeSince = c.tg.tickNo)
  let c := (c.when new (fun c => c.oweAll (c.members.map (fun x => x.axis)))).writeHalves tb
  c.when new (fun c => c.feedHalves tb (List.range c.nAxes))

/-- The chip runs slow cups: not a standby that is not in step (Table 13.3). -/
def Chip.runsSlow (c : Chip) : Bool :=
  !c.isStandby || decide (c.stby.sstate = 2) || decide (c.catchPhase = some 3)

/-- The samples and latches of a T0, which follow the units that apply at it (R214, R215, R402). -/
def Chip.sampleAll (c : Chip) (tb : TimeBase) : Chip :=
  ((each (List.range 16) (fun n c => c.lfSample tb n) c).epLatchAll tb).summaries tb

/-- The cycle points that will fire in this tick (R92). -/
def Chip.armPoints (c : Chip) : Chip :=
  c.modTg (fun t => { t with cpArmed := below 8 (fun k => c.rb (TICK.CP k) 31 && decide (c.rf (TICK.CP k) 17 0 < c.period)) })

/-- What a standby's own refusals say against those that the SEAL lists (R351). -/
def Chip.checkRefusals (c : Chip) (shut : Option Seal) : Chip :=
  match shut with
  | some s => if s.refused = c.stby.refused then c else c.fallOut
  | none => c

/-- What the T0 of the tick whose number and instant stand in the tick generator does, with the SEAL of the journal that has been
applied, if any. -/
def Chip.t0Body (c : Chip) (tb : TimeBase) (shut : Option Seal) : Chip :=
  let named := match shut with
    | some s => some s.pubs
    | none => if c.isStandby && !c.follows then some [] else none
  let flight := if c.catchPhase = some 2 then c.slowFlight else []
  let c := (c.modeSwitch.stepPubs tb named).catchStep flight
  let d := c.stepUnits tb
  let c := ((Chip.mcJournal d d.changeCheck tb).checkRefusals shut).handoverAt tb
  let c := (c.stepHalves tb).sampleAll tb
  -- where it runs none, the release of kind 3 that follows a publication is the head's
  let c := if c.runsSlow then c.releases tb else each (below 32 (fun g => (c.grp g).k3)) (fun g c => c.modGrp g (fun t => { t with k3 := false })) c
  let c := c.slowLates
  let c := each (List.range 16) (fun g c => c.admitNodes tb g) c
  let c := c.beginners.foldl (fun (c : Chip) (g : Nat) => c.segBegin g) c
  let c := each (List.range c.nLeaves) (fun n c => c.armQuar n) c
  let c := (c.armPoints.stbyTick).trayLatch
  ((c.imageT0.tickSend).perf 0x81 1).pulse tb 0x88

/-- The tick generator's fields at a T0. -/
def TickGen.atT0 (t : TickGen) (no : DWord) (fast : Word) (cycle : Nat) : TickGen :=
  { t with
    t0Cycle := cycle
    running := true, start := none, tickNo := no, t0Fast := fast, published := false, poured := false, guarded := false,
    coldSent := false, hb := !t.hb }

/-- The first T0 of a start (R90, R320). -/
def Chip.firstT0 (c : Chip) (tb : TimeBase) (at' : Word) : Chip :=
  let c := c.modTg (fun t => { t.atT0 t.tickNo at' tb.cycle with modeSince := t.tickNo, lineLeft := 0, stopReq := false })
  ((c.loadMode c.tg.startMode).enterListen).t0Body tb none

/-- A later T0 (R91). -/
def Chip.nextT0 (c : Chip) (tb : TimeBase) : Chip :=
  let c := c.modTg (fun t => { t with lineLeft := t.lineLeft - 1 })
  let was := c.isStandby
  let c := c.when c.stby.deposed (fun c =>
    let c := (c.modStby (fun t => { t with deposed := false })).enterStandby 3
    if c.stby.sstate = 0 then c.enterCatchup else c)
  let shut := c.stby.sealed
  let r := if was then c.stbyJudge tb else (c, none)
  let c := match r.2 with
    | some js => r.1.applyJournal tb js
    | none => r.1
  let c := c.modTg (fun t => t.atT0 (t.tickNo + 1#64) (t.t0Fast + BitVec.ofNat 32 c.period) tb.cycle)
  c.t0Body tb (if r.2.isSome then shut else none)

/-- ADDEND_NOW moves toward ADDEND by at most 430 (R76); it is held where another rule keeps it (R79, R99). -/
def TimeBase.followAddend (tb : TimeBase) (c : Chip) : TimeBase :=
  if c.followsAddend && !tb.keep then
    { tb with addendNow := tb.addendNow + clampI (-430) 430 (c.ri TIME.ADDEND - tb.addendNow) }
  else tb

/-- The instant of a first T0, if a start is pending and its instant has come (R90). -/
def Chip.startDue (c : Chip) (tb : TimeBase) : Option Word :=
  match c.tg.start with
  | some x => if 0 ≤ diff32 tb.fast x then some x else none
  | none => none

/-- The current tick has run to its end. -/
def Chip.tickOver (c : Chip) (tb : TimeBase) : Bool := c.tg.running && decide (c.period ≤ c.ofs tb)

/-- A T0 (R91). -/
def State.tickT0 (s : State) : State :=
  match s.chip.startDue s.tb with
  | some x => { s with chip := s.chip.firstT0 s.tb x, tb := s.tb.followAddend s.chip }
  | none =>
    if s.chip.tickOver s.tb && !s.chip.tg.stopReq then
      let c := s.chip.nextT0 s.tb
      { s with chip := c, tb := (s.tb.followAddend s.chip).keepOver s.chip c }
    else s

/-- A command that enters the command slot, evaluated and taken as one step: the run that sees it, its publication, and
the SEQ demand unit, checked and applied (R244 to R248). -/
def Chip.seqCommand (c : Chip) (tb : TimeBase) (g cmd : Nat) : Chip :=
  if !c.en (pgSeq g) then c
  else
    let old := (c.grp g).demand
    let c := (c.seqEval (c.seqNow g (some cmd))).tellAxes tb c
    let ws := c.demandWrites g old
    if ws.isEmpty then c else (c.runUnit tb (c.demandUnit tb ws)).writeHalves tb

/-! ### The stop -/

/-- The tick stops (R72, R90, R250, R310, R326). -/
def Chip.tickStop (c : Chip) (tb : TimeBase) : Chip :=
  let c := if c.tg.change.isSome then Chip.mcJournal c (c.mcAbandon 9 0 0) tb else c
  let c := c.enSegs.foldl (fun (c : Chip) (g : Nat) => c.segStop g) c
  let c := c.modTg (fun t => { t with
    running := false, stopReq := false, tickNo := t.tickNo + 1#64, cpArmed := [], lineLeft := 0 })
  let c := (c.setLstate 0).modCm (fun m => { m with units := m.units.map (fun u => { u with due := 0 }) })
  c.summaries tb

/-! ### Commands -/

/-- T0 (R91). -/
def execT0 (s : State) : Res := .next s.tickT0

/-- The end of a run of the tick (R90). -/
def execTickStop (s : State) : Res :=
  .next (s.onChip (fun c => if c.tickOver s.tb && c.tg.stopReq then c.tickStop s.tb else c))

/-- Cycle point `k` fires (R92). -/
def Chip.cyclePoint (c : Chip) (tb : TimeBase) (k : Nat) : Chip :=
  if c.tg.running && c.tg.cpArmed.contains k && decide (c.rf (TICK.CP k) 17 0 ≤ c.ofs tb) then
    ((c.modTg (fun t => { t with cpArmed := t.cpArmed.filter (fun x => decide (x ≠ k)) })).evt pgTick k).pulse tb (0x30 + k)
  else c

/-- A cycle point fires (R92). -/
def execCyclePoint (k : Nat) (s : State) : Res := .next (s.onChip (fun c => c.cyclePoint s.tb k))

/-- An OPEN command (Table 9.5). -/
def execOpen (g : Nat) (s : State) : Res := .next (s.onChip (fun c => c.seqCommand s.tb g 1))
/-- A CLOSE command (Table 9.5). -/
def execClose (g : Nat) (s : State) : Res := .next (s.onChip (fun c => c.seqCommand s.tb g 2))
/-- An ISOLATE command (Table 9.5). -/
def execIsolate (g : Nat) (s : State) : Res := .next (s.onChip (fun c => c.seqCommand s.tb g 3))
/-- A RESTORE command (Table 9.5). -/
def execRestore (g : Nat) (s : State) : Res := .next (s.onChip (fun c => c.seqCommand s.tb g 4))
/-- A RESET command (Table 9.5). -/
def execSeqReset (g : Nat) (s : State) : Res := .next (s.onChip (fun c => c.seqCommand s.tb g 5))
/-- A LEARN_RESET command (R256). -/
def execLearnReset (g : Nat) (s : State) : Res := .next (s.onChip (fun c => c.learnReset s.tb g))

end Sys2Proof.Machine
end

