-- ==== Sys2Proof/Machine/Power.lean ====
section
/-!
DEFINITION. Power domains (R471 to R474), reset sources and the release sequence (R475 to R478), PLLs (R479), and the
levels of the outputs ALIVE, HB, nPOR_OUT (R480 to R482).  The boot ROM stands in Boot.lean.
-/

namespace Sys2Proof.Machine

/-! ### What a domain loses -/

/-- The domain that holds the state of a register. -/
def domainOf (a : Nat) : Nat :=
  match pageAt a with
  | some p => pageDomain p.page.type
  | none => 2

/-- The writes of a unit on pages of domain `d` are lost with the domain. -/
def CUnit.lose (d : Nat) (u : CUnit) : CUnit := { u with writes := u.writes.filter (fun e => decide (domainOf e.1 ≠ d)) }

/-- A captured unit outlives the loss of domain `d`: a reset unit by its page, an FS clear not, another by its writes. -/
def CUnit.keeps (d : Nat) (u : CUnit) : Bool :=
  match u.kind with
  | .reset p => decide (domainOf p ≠ d)
  | .fsClear _ => decide (d ≠ 2)
  | _ => !u.writes.isEmpty

/-- The registers of domain `d` return to their reset values, and its staged and captured writes are gone; the retained
tenure and what OTP gives CHIP_ID stay (R4, Table 19.1). -/
def Chip.loseRegs (c : Chip) (d : Nat) : Chip :=
  let ten := c.rf STBY.TEN 31 16
  let c := { c with
    regs := c.regs.filter (fun e => decide (domainOf e.1 ≠ d ∨ e.1 = CHIP.CHIP_ID))
    fresh := c.fresh.filter (fun e => decide (domainOf e.1 ≠ d))
    settling := c.settling.filter (fun b => decide (domainOf b ≠ d))
    cm := { c.cm with
      staged := c.cm.staged.filter (fun e => decide (domainOf e.1 ≠ d))
      units := (c.cm.units.map (CUnit.lose d)).filter (CUnit.keeps d) } }
  c.setF STBY.TEN 31 16 ten

/-- The home Pots of an AX-M128-I after reset: a mod 4 (R154), where the table of the larger part has a mod 8. -/
def Chip.homes (c : Chip) : Chip :=
  c.when c.m128 (fun c => each (below 128 (fun a => decide (4 ≤ a % 8))) (fun a c => c.setN (AXIS.PLACE a) (a % 4)) c)

/-- PD2 goes off: everything it holds is lost (R471). -/
def Chip.losePd2 (c : Chip) : Chip :=
  let d := c.loseRegs 2
  Chip.homes { d.core with settling := d.settling, cm := d.cm, fresh := d.fresh }

/-- PCIe link-down or hot reset (R412): configuration space and MSI-X return to reset, the DMA channels stop without
write-back, the port's held words go. -/
def Chip.pcieLoss (c : Chip) : Chip :=
  let c := { c with
    pcie := Pcie.reset, dma := []
    regs := c.regs.filter (fun e => !decide (0x8800 ≤ e.1 ∧ e.1 < 0x8A00)) }
  let c := (c.setReg IRQ.INSERV 0#32).modPort .pcie (fun p => { p with held := none, data := [] })
  each (List.range 5) (fun k c => c.setF (HOSTIF.DMA_CFG k) 31 31 0) c

/-- The PCIe link goes down (R412, R428). -/
def Chip.pcieDown (c : Chip) : Chip :=
  let was := c.rb HOSTIF.LINK 0
  let c := c.pcieLoss.setReg HOSTIF.LINK 0#32
  c.when was (fun c => c.evt pgHostif 21)

/-- PD2 and every domain above it are off, with no request and no transition for them (R468, R476). -/
def Chip.onlyPd01 (c : Chip) : Chip :=
  let c := (c.losePd2.setReg PWR.DOM_REQ 3#32).setReg PWR.DOM_ON 3#32
  { c with rst := { c.rst with ramp := none, filling := [] } }

/-- PD1 goes off or is reset: host ports, DMA, FIFOs and the pages CHIP, HOSTIF, IRQ and SF (Table 19.1). -/
def Chip.losePd1 (c : Chip) : Chip :=
  let c := c.loseRegs 1
  let c := { c with ports := [], pcie := Pcie.reset, qspiErr := false, qspiWip := false, dma := [], sfs := [] }
  each (List.range 4) (fun n c => c.sfIdle n) c

/-- Pot `p` and its Leaves go off: their memories are lost (R125, R177).  Their quarantine causes and DBG_PC stand on pages that PD2 keeps
(R133, R180). -/
def Chip.losePot (c : Chip) (p : Nat) : Chip :=
  let c := ((c.fillZero (leafMem (8 * p) 0) 0x40000).fillZero (progMem p 0) 0x40000).fillZero (potMem p 0) 0x80000
  let c := c.modPot p (fun t => { Pot.reset with qcause := t.qcause })
  each (List.range 8) (fun i c => c.modLeaf (8 * p + i) (fun l =>
    { Leaf.reset with qcause := l.qcause, f := { Bank.zero with pc := l.f.pc } })) c

/-- PD3 goes off (R372). -/
def Chip.loseCaddy (c : Chip) : Chip :=
  each (List.range 16) (fun n c => (c.modCu n (fun u => { u with state := 0 })).cuErr n 1)
    { (c.fillZero (caddyMem 0) 0x800000) with caddyFill := false }

/-- Line port group `g` goes off: its ports are OFF (R338), a cable test among them ended. -/
def Chip.losePorts (c : Chip) (tb : TimeBase) (g : Nat) : Chip :=
  each (List.range 8) (fun i c => (c.linkDrop tb (8 * g + i) 0).setF (LP.CABLE_CTRL (8 * g + i)) 0 0 0) c

/-! ### Transitions (R472, R473) -/

/-- Domain `d` is fused off on the part (R6, R7). -/
def Chip.fused (c : Chip) (d : Nat) : Bool := c.m128 && decide ((8 ≤ d ∧ d ≤ 11) ∨ 14 ≤ d)

/-- The request of domain `d`. -/
def Chip.domReq (c : Chip) (d : Nat) : Bool := c.rb PWR.DOM_REQ d

/-- Domain `d` has ramped. -/
def Chip.powered (c : Chip) (d : Nat) : Bool := c.domOn d || c.rst.filling.contains d

/-- Domain `d` is in transition or filling (`DOM_BUSY`). -/
def Chip.domBusy (c : Chip) (d : Nat) : Bool :=
  c.rst.filling.contains d || (match c.rst.ramp with | some (x, _) => decide (x = d) | none => false)

/-- The reason for which Table 19.2 refuses a change of domain `d`, 0 for none; `req` is the word requested. -/
def Chip.domRefuse (c : Chip) (port : Port) (req : Word) (d : Nat) (up : Bool) : Nat :=
  if d = 0 then 5
  else if d = 1 then (if port.isHost then 5 else 0)
  else if up then (if 3 ≤ d && !(c.domOn 2 && c.domReq 2) && !bit req 2 then 1 else 0)
  else if d = 2 then (if c.tg.running then 2 else 0)
  else if d = 3 then (if c.rf (SEQ.SIG_CFG 0) 26 16 ≠ 0 then 4 else 0)
  else if d < 12 then (if (List.range 8).any (fun i => decide ((c.leaf (8 * (d - 4) + i)).state = 2)) then 3 else 0)
  else 0

/-- A refused change is reported (R472). -/
def Chip.domReport (c : Chip) (reason d : Nat) : Chip :=
  ((c.setN PWR.LAST_REF (2 ^ 28 * reason + d)).trouble PWR.REFUSED).evt pgPwr 2

/-- A request bit takes its new value, or is refused; a power-down of PD2 clears the bits above it. -/
def Chip.domBit (c : Chip) (port : Port) (req : Word) (d : Nat) : Chip :=
  let up := bit req d
  if c.fused d || decide (up = c.domReq d) then c
  else
    let r := c.domRefuse port req d up
    if r ≠ 0 then c.domReport r d
    else
      let c := c.setF PWR.DOM_REQ d d (b2n up)
      if d = 2 ∧ !up then c.setF PWR.DOM_REQ 15 3 0 else c

/-- The word whose bits from 3 on a power-down of PD2 in the same write has cleared. -/
def domWord (c : Chip) (v : Word) : Word :=
  if c.domReq 2 && !bit v 2 && !c.tg.running then v &&& 7#32 else v

/-- The next transition: power-downs in descending order, then power-ups in ascending order (R473).  PD2 waits for the domains above it whose
fill is still in progress, which power down before it (R472).  In Decaf only PD0 and PD1 are powered (R468): a request for another domain
stands and is not followed (DESIGN CHOICE, log 66). -/
def Chip.nextRamp (c : Chip) : Option (Nat × Bool) :=
  match ((List.range 16).reverse).find? (fun d => c.domOn d && !c.domReq d && (decide (d ≠ 2) || c.rst.filling.isEmpty)) with
  | some d => some (d, false)
  | none => ((List.range 16).find? (fun d => c.domReq d && !c.powered d && (!c.inDecaf || decide (d ≤ 1)))).map (fun d => (d, true))

/-- Domain `d` begins to power down: what it holds is lost. -/
def Chip.domLose (c : Chip) (tb : TimeBase) (d : Nat) : Chip :=
  let c := c.setF PWR.DOM_ON d d 0
  if d = 1 then c.losePd1
  else if d = 2 then c.losePd2
  else if d = 3 then c.loseCaddy
  else if d < 12 then c.losePot (d - 4)
  else c.losePorts tb (d - 12)

/-- Start the next transition, if none is in progress. -/
def Chip.domStart (c : Chip) (tb : TimeBase) : Chip :=
  if c.rst.ramp.isSome || c.held then c
  else match c.nextRamp with
    | none => c
    | some (d, up) =>
      let c := { c with rst := { c.rst with ramp := some (d, up) } }
      if up then c else c.domLose tb d

/-- The time base stops and is lost with PD2; the model's own counts go on. -/
def TimeBase.lose (t : TimeBase) : TimeBase := { TimeBase.reset with cycle := t.cycle, up := t.up }

/-- A change of the chip in which PD2 may go off: the time base goes with it. -/
def State.powerChange (s : State) (f : Chip → Chip) : State :=
  let c := f s.chip
  { s with chip := c, tb := if s.chip.domOn 2 && !c.domOn 2 then s.tb.lose else s.tb }

/-- A write of DOM_REQ (R472). -/
def Chip.writeDomReq (c : Chip) (tb : TimeBase) (port : Port) (v : Word) : Chip :=
  let w := domWord c v
  (each (List.range 16) (fun d c => c.domBit port w d) c).domStart tb

/-- A request that changed during the transition that has ended is judged again (R473). -/
def Chip.domAgain (c : Chip) (d : Nat) : Chip :=
  let want := c.domReq d
  if want = c.powered d then c
  else
    -- an accepted power-down of PD2 takes the domains above it down with it (R472)
    let r := if decide (3 ≤ d) && !c.domReq 2 then 0 else c.domRefuse .kettle (c.reg PWR.DOM_REQ) d want
    if r = 0 then c else (c.setF PWR.DOM_REQ d d (b2n (c.powered d))).domReport r d

/-- Domain `d` is on, ramp and fill complete. -/
def Chip.domUp (c : Chip) (d : Nat) : Chip :=
  (({ c with rst := { c.rst with filling := c.rst.filling.filter (fun x => decide (x ≠ d)) } }).setF PWR.DOM_ON d d 1).evt pgPwr 0

/-- A ramp up ends: what needs a fill begins it, the ports of a group leave OFF, the rest is on. -/
def Chip.rampUp (c : Chip) (tb : TimeBase) (d : Nat) : Chip :=
  if d = 3 then { c with caddyFill := true, rst := { c.rst with filling := c.rst.filling ++ [3] } }
  else if 4 ≤ d ∧ d < 12 then
    let c := { c with rst := { c.rst with filling := c.rst.filling ++ [d] } }
    let c := c.modPot (d - 4) (fun t => { t with filling := true })
    each (List.range 8) (fun i c => c.modLeaf (8 * (d - 4) + i) (fun l => { l with filling := true })) c
  else if 12 ≤ d then
    each (List.range 8) (fun i c =>
      (c.modLp (8 * (d - 12) + i) (fun l => { l with state := 1 })).portSet tb (8 * (d - 12) + i) false) (c.domUp d)
  else c.domUp d

/-- The transition in progress ends, and the next one starts (R473). -/
def Chip.rampDone (c : Chip) (tb : TimeBase) : Chip :=
  match c.rst.ramp with
  | none => c
  | some (d, up) =>
    let c := { c with rst := { c.rst with ramp := none } }
    ((if up then c.rampUp tb d else c.evt pgPwr 1).domAgain d).domStart tb

/-- The fill of domain `d` ends, if it is complete (R473). -/
def Chip.fillEnd (c : Chip) (tb : TimeBase) (d : Nat) : Chip :=
  if c.rst.filling.contains d then ((c.domUp d).domAgain d).domStart tb else c

/-- The memories of Pot `p` and of its Leaves are filled. -/
def Chip.potReady (c : Chip) (p : Nat) : Bool :=
  decide ((c.pot p).state ≠ 0) && (List.range 8).all (fun i => decide ((c.leaf (8 * p + i)).state ≠ 0))

/-! ### Reset (R475 to R477) -/

/-- A chip reset; with `therm` PD1 stays, and with it PLL0 to PLL2 and a holdover (Tables 19.4 and 19.6).  PD0 keeps its registers, and what is
staged for them; captured units go with PD1, where the commit registers lie. -/
def Chip.chipReset (c : Chip) (therm : Bool) : Chip :=
  let c := c.onlyPd01
  let c := if therm then c
    else
      let c := (c.losePd1.setF CLK.HOLDOVER 0 0 0).modCm (fun m => { m with units := [] })
      { c with rst := { c.rst with unlocked := [0, 1, 2] } }
  let c := [pgPwr, pgRst, pgClk, pgKtl].foldl (fun (c : Chip) (b : Nat) => c.setReg (pgLock b) (oneBit 31)) c
  let c := c.setF KTL.STAT 31 28 0
  { c with rst := { c.rst with kettleUp := false, unlocked := c.rst.unlocked.filter (fun k => decide (k ≤ 2)) } }

/-- A failed start: a reset of the Kettle before the declaration, a reset that falls in the release sequence of another one among them
(R455, R477); a source that asserts while a reset is held is that reset's.  The reset that DECAF_NEXT waits for is none (R469). -/
def Chip.countFailed (c : Chip) : Chip :=
  c.when (c.rst.held.isEmpty && decide (c.rf KTL.STAT 31 28 ≤ 1) && !c.rb KTL.BOOT 2) (fun c => c.trouble KTL.FAILED_STARTS)

/-- The source is recorded: `RST.SEEN`, the sources that hold the reset, and the worst of them (R477). -/
def Chip.noteSrc (c : Chip) (k : Nat) : Chip :=
  let first := c.rst.held.isEmpty
  let c := (c.raise RST.SEEN (oneBit k)).when first (fun c => c.bump RST.RESETS)
  { c with rst := { c.rst with
      held := if c.rst.held.contains k then c.rst.held else c.rst.held ++ [k]
      worst := if first then k else min k c.rst.worst
      pd1 := c.rst.pd1 || decide (k ≠ 1) } }

/-- A reset source other than a power-on reset asserts (R476, R477). -/
def State.assertSrc (s : State) (k : Nat) : State :=
  { s with
    tb := s.tb.lose
    chip := ((s.chip.countFailed).chipReset (decide (k = 1) && s.chip.live)).noteSrc k
    ktl := { s.ktl with waiting := [], inbox := [], outbox := [], upd := none } }

/-- The entries that the ring of the log takes over from flash (R463). -/
def Kettle.ring (k : Kettle) : List LogEnt := k.pers.drop (k.pers.length - 4096)

/-- OTP brings the identity of the part (R4, R449, Table 19.5). -/
def Chip.otpLoad (c : Chip) (o : Otp) : Chip :=
  ((c.setReg CHIP.CHIP_ID o.chipId).setN KTL.UNIT_ID_LO o.unitId.toNat).setN KTL.UNIT_ID_HI (o.unitId.toNat / 2 ^ 32)

/-- A power-on reset: everything but flash, OTP and the supplies (R463, R475, R476).  A source that is still asserted holds the reset with it
(R477). -/
def State.powerOn (s : State) : State :=
  let next := match s.ktl.pers.getLast? with | some e => e.seq + 1#32 | none => 0#32
  let last := match s.ktl.pers.getLast? with | some e => e.seq | none => 0#32
  let still := s.chip.rst.held.filter (fun k => decide (k ≠ 0))
  let c := { Chip.reset with vsense := s.chip.vsense, free := s.chip.free, out := s.chip.out, log := s.ktl.ring }
  let c := ((c.otpLoad s.ktl.otp).homes.setReg LOG.WR_SEQ next).setReg LOG.PERSIST_SEQ last
  let c := c.setReg RST.SEEN (still.foldl (fun w k => w ||| oneBit k) (c.reg RST.SEEN))
  { s with
    tb := TimeBase.reset
    chip := { c with rst := { Rst.reset with held := 0 :: still, pd1 := true, lost := s.chip.rst.lost } }
    ktl := { Kettle.reset with
      flash := s.ktl.flash, rec0 := s.ktl.rec0, rec1 := s.ktl.rec1, pers := s.ktl.pers, persAt := s.ktl.persAt, otp := s.ktl.otp, persNext := next
      streamNext := match s.ktl.ring.head? with | some e => e.seq | none => next } }

/-- Every temperature sensor reads below 130 °C, in units of 1/8 °C (R461). -/
def Chip.cool (c : Chip) : Bool := (List.range 4).all (fun k => decide (signedN 16 (c.rf (SENS.TS k) 15 0) < 1040))

/-- A source deasserts; with the last one the release sequence starts (R477).  The thermal comparator holds its reset until every sensor reads
below 130 °C (R461). -/
def State.releaseSrc (s : State) (k : Nat) : State :=
  s.onChip (fun c =>
    if c.rst.held.contains k && (decide (k ≠ 1) || c.cool) then
      let l := c.rst.held.filter (fun x => decide (x ≠ k))
      let c := { c with rst := { c.rst with held := l } }
      if l.isEmpty then
        { (c.setN RST.LAST (2 ^ 28 * c.rst.worst)) with rst := { c.rst with releasedAt := s.tb.up, pd1 := false } }
      else c
    else c)

/-! ### PLLs and supplies (R474, R479) -/

/-- The domain of PLL `k` is on (Table 19.6). -/
def Chip.pllOn (c : Chip) (k : Nat) : Bool :=
  match k with
  | 0 | 2 => c.domOn 1
  | 1 => true
  | 3 => (List.range 4).any (fun g => c.domOn (12 + g))
  | 4 => c.domOn 2
  | _ => false

/-- PLL `k` is locked (`CLK.LOCK`).  A reset that PD1 does not share leaves its PLLs running (Table 19.4). -/
def Chip.pllLocked (c : Chip) (k : Nat) : Bool := c.live && c.pllOn k && !c.rst.unlocked.contains k

/-- The line links leave service (R334): the ports that `p` holds of. -/
def Chip.dropLinks (c : Chip) (tb : TimeBase) (p : Lp → Bool) : Chip :=
  each (below 32 (fun n => p (c.lp n))) (fun n c => c.linkDrop tb n 2) c

/-- Both lanes of the standby link are down (R348). -/
def Chip.lanesDown (c : Chip) : Chip := c.modStby (fun t => { t with sl0 := false, sl1 := false })

/-- A loss of lock (R479). -/
def Chip.pllLoss (c : Chip) (tb : TimeBase) (k : Nat) : Chip :=
  let c := { c with rst := { c.rst with unlocked := c.rst.unlocked ++ [k] } }
  let c := ((c.evt pgClk k).trouble (CLK.UNLOCK k)).logAdd tb 2 4 1 k
  match k with
  | 0 => Chip.declareFault { (c.setReg CLK.HOLDOVER 1#32) with rst := { c.rst with holdAt := tb.up } } 2
  | 2 => c.pcieDown
  | 3 => c.dropLinks tb (fun l => decide (l.state = 4))
  | 4 => c.lanesDown
  | _ => c

/-- A relock (R479). -/
def Chip.pllBack (c : Chip) (k : Nat) : Chip :=
  let c := { c with rst := { c.rst with unlocked := c.rst.unlocked.filter (fun x => decide (x ≠ k)) } }
  if k = 0 then c.setReg CLK.HOLDOVER 0#32 else c

/-- A supply of Table 19.3 that feeds links is missing, or returns (R474). -/
def Chip.supply (c : Chip) (tb : TimeBase) (k : Nat) (present : Bool) : Chip :=
  let c := { c with rst := { c.rst with
    lost := if present then c.rst.lost.filter (fun x => decide (x ≠ k))
      else if c.rst.lost.contains k then c.rst.lost else c.rst.lost ++ [k] } }
  if present then c
  else if k = 0 then c.pcieDown.lanesDown
  else c.dropLinks tb (fun l => decide (l.state = 3 ∨ l.state = 4))

/-! ### Output pins of bank H (R480 to R483, R490) -/

/-- ALIVE (R480). -/
def Chip.alivePin (c : Chip) : PinDrive :=
  c.driveH (c.domOn 2 && c.tg.running && decide (c.rf KTL.STAT 31 28 ≠ 3) && !c.rb RST.CTRL 0)

/-- HB (R481). -/
def Chip.hbPin (c : Chip) : PinDrive := c.driveH (c.domOn 2 && !c.held && c.tg.hb)

/-- nPOR_OUT (R482). -/
def Chip.porOutPin (c : Chip) : PinDrive := c.driveH c.rst.kettleUp

/-- A bank supply rises to a sensed level, at which the lines that the bank's pins feed follow them again, or is lost (R395, R397, R404, R489).
The loss of VDDIO_H is a power-on reset (R475). -/
def State.bankSupply (s : State) (b v : Nat) : State :=
  let s := s.onChip (fun c => { c with vsense := Tab.set (fun _ => 0) c.vsense b v })
  if b = 6 then (if v = 0 then s.powerOn else s)
  else s.onChip (fun c => if v = 0 then c.bankReset s.tb b else c.relevel s.tb (c.edgeNow s.tb) 17)

/-! ### Commands -/

/-- A write of `PWR.DOM_REQ` (R472). -/
def execDomReqWrite (p : Port) (v : Word) (s : State) : Res :=
  .next (s.gated p PWR.DOM_REQ (fun s => s.powerChange (fun c => c.writeDomReq s.tb p v)))

/-- The transition in progress completes (R473). -/
def execDomainTransitionDone (s : State) : Res := .next (s.powerChange (fun c => c.rampDone s.tb))

/-- The Caddy fill after PD3 power-up completes (R372). -/
def execCaddyFillDone (s : State) : Res :=
  .next (s.powerChange (fun c => c.when c.caddyFill (fun c =>
    Chip.fillEnd { (c.fillZero (caddyMem 0) 0x800000) with caddyFill := false } s.tb 3)))

/-- The fill of a Pot's memories after power-up ends (R177); the domain is on once its Leaves are filled too. -/
def execPotFillDone (p : Nat) (s : State) : Res :=
  .next (s.powerChange (fun c =>
    let c := c.potFilled p
    c.when (c.potReady p) (fun c => c.fillEnd s.tb (4 + p))))

/-- The fill of a Leaf's data memory ends (R125). -/
def execLeafFillDone (n : Nat) (s : State) : Res :=
  .next (s.powerChange (fun c =>
    let c := c.leafFilled n
    c.when (c.potReady (n / 8)) (fun c => c.fillEnd s.tb (4 + n / 8))))

/-- A power-on reset (R475, R476). -/
def execPor (s : State) : Res := .next s.powerOn

/-- A brown-out of VDD_CORE (R475). -/
def execBorCore (s : State) : Res := .next (s.assertSrc 2)

/-- The thermal comparator (R461). -/
def execTherm (s : State) : Res := .next (s.assertSrc 1)

/-- REFCLK is lost (R478, R484). -/
def execRefclkLoss (s : State) : Res := .next ((s.onChip (fun c => c.evt pgClk 5)).assertSrc 3)

/-- A PLL loses lock (R479). -/
def execPllUnlock (k : Nat) (s : State) : Res :=
  .next (s.onChip (fun c => c.when (c.pllLocked k) (fun c => c.pllLoss s.tb k)))

/-- PLL0 has not relocked within 10 ms (R479). -/
def execHoldoverTimeout (s : State) : Res :=
  .next (if s.chip.rb CLK.HOLDOVER 0 && decide (s.chip.rst.holdAt + 10000000 ≤ s.tb.up) then s.assertSrc 4 else s)

/-- A PLL regains lock (R479). -/
def execPllRelock (k : Nat) (s : State) : Res :=
  .next (s.onChip (fun c => c.when (c.rst.unlocked.contains k) (fun c => c.pllBack k)))

/-- nRESET has been low for 1 µs (R476). -/
def execPin (s : State) : Res := .next (s.assertSrc 5)

/-- The JTAG instruction CHIPRST (R476). -/
def execChiprst (s : State) : Res := .next (s.assertSrc 6)

/-- A reset source deasserts (R477). -/
def execResetRelease (k : Nat) (s : State) : Res := .next (s.releaseSrc k)

/-- A supply of the links is lost or returns (R474). -/
def execSupplyLoss (k : Nat) (present : Bool) (s : State) : Res := .next (s.onChip (fun c => c.supply s.tb k present))

/-- A bank supply rises to a sensed level, or is lost (R395, R489). -/
def execBankSupplyChange (b v : Nat) (s : State) : Res := .next (s.bankSupply b v)

end Sys2Proof.Machine
end

