-- ==== Sys2Proof/Machine/Sign.lean ====
section
/-!
DEFINITION. SHA-256 and the verification of ECDSA signatures on P-256, as R452 and R453 name them for images.  Their
definitions are those of FIPS 180-4 and FIPS 186-4 (PRESUMED, log 43: the manual names the algorithms).
-/

namespace Sys2Proof.Machine

/-! ### SHA-256 -/

/-- The 64 round constants. -/
def shaK : List Nat :=
  [0x428A2F98, 0x71374491, 0xB5C0FBCF, 0xE9B5DBA5, 0x3956C25B, 0x59F111F1, 0x923F82A4, 0xAB1C5ED5] ++
  [0xD807AA98, 0x12835B01, 0x243185BE, 0x550C7DC3, 0x72BE5D74, 0x80DEB1FE, 0x9BDC06A7, 0xC19BF174] ++
  [0xE49B69C1, 0xEFBE4786, 0x0FC19DC6, 0x240CA1CC, 0x2DE92C6F, 0x4A7484AA, 0x5CB0A9DC, 0x76F988DA] ++
  [0x983E5152, 0xA831C66D, 0xB00327C8, 0xBF597FC7, 0xC6E00BF3, 0xD5A79147, 0x06CA6351, 0x14292967] ++
  [0x27B70A85, 0x2E1B2138, 0x4D2C6DFC, 0x53380D13, 0x650A7354, 0x766A0ABB, 0x81C2C92E, 0x92722C85] ++
  [0xA2BFE8A1, 0xA81A664B, 0xC24B8B70, 0xC76C51A3, 0xD192E819, 0xD6990624, 0xF40E3585, 0x106AA070] ++
  [0x19A4C116, 0x1E376C08, 0x2748774C, 0x34B0BCB5, 0x391C0CB3, 0x4ED8AA4A, 0x5B9CCA4F, 0x682E6FF3] ++
  [0x748F82EE, 0x78A5636F, 0x84C87814, 0x8CC70208, 0x90BEFFFA, 0xA4506CEB, 0xBEF9A3F7, 0xC67178F2]

/-- The initial hash value. -/
def shaH0 : List Nat :=
  [0x6A09E667, 0xBB67AE85, 0x3C6EF372, 0xA54FF53A, 0x510E527F, 0x9B05688C, 0x1F83D9AB, 0x5BE0CD19]

/-- Rotation to the right. -/
def rotr (x : Word) (n : Nat) : Word := x.rotateRight n

/-- The schedule: 16 words of the block, then the recurrence, newest first. -/
def shaSchedule : Nat → List Word → List Word
  | 0, w => w
  | n + 1, w =>
    let a := w.getD 14 0#32
    let b := w.getD 1 0#32
    let s0 := rotr a 7 ^^^ rotr a 18 ^^^ (a >>> (3 : Nat))
    let s1 := rotr b 17 ^^^ rotr b 19 ^^^ (b >>> (10 : Nat))
    shaSchedule n ((s1 + w.getD 6 0#32 + s0 + w.getD 15 0#32) :: w)

/-- One round over the eight working variables. -/
def shaRound (v : List Word) (kw : Word) : List Word :=
  match v with
  | [a, b, c, d, e, f, g, h] =>
    let s1 := rotr e 6 ^^^ rotr e 11 ^^^ rotr e 25
    let ch := (e &&& f) ^^^ (~~~e &&& g)
    let t1 := h + s1 + ch + kw
    let s0 := rotr a 2 ^^^ rotr a 13 ^^^ rotr a 22
    let maj := (a &&& b) ^^^ (a &&& c) ^^^ (b &&& c)
    [t1 + (s0 + maj), a, b, c, d + t1, e, f, g]
  | l => l

/-- The big-endian words of a byte string. -/
def beWords : Nat → List Byte → List Word
  | 0, _ => []
  | n + 1, l => BitVec.ofNat 32 (ofBE (l.take 4)) :: beWords n (l.drop 4)

/-- One block of 64 bytes. -/
def shaBlock (h : List Word) (blk : List Byte) : List Word :=
  let w := (shaSchedule 48 (beWords 16 blk).reverse).reverse
  let v := (w.zip shaK).foldl (fun v x => shaRound v (x.1 + BitVec.ofNat 32 x.2)) h
  h.zipWith (fun x y => x + y) v

/-- The blocks of a padded message. -/
def shaBlocks : Nat → List Word → List Byte → List Word
  | 0, h, _ => h
  | n + 1, h, l => shaBlocks n (shaBlock h (l.take 64)) (l.drop 64)

/-- SHA-256 of a byte string, as a number. -/
def sha256 (m : List Byte) : Nat :=
  let len := m.length
  let pad := m ++ [0x80#8] ++ List.replicate ((119 - len % 64) % 64) 0#8 ++ beBytes 8 (8 * len)
  (shaBlocks (pad.length / 64) (shaH0.map (BitVec.ofNat 32)) pad).foldl (fun n w => n * 2 ^ 32 + w.toNat) 0

/-! ### ECDSA on P-256 -/

/-- The field prime, the order of the base point, the coefficient b and the base point of P-256. -/
def p256p : Nat := 0xFFFFFFFF00000001000000000000000000000000FFFFFFFFFFFFFFFFFFFFFFFF
def p256n : Nat := 0xFFFFFFFF00000000FFFFFFFFFFFFFFFFBCE6FAADA7179E84F3B9CAC2FC632551
def p256b : Nat := 0x5AC635D8AA3A93E7B3EBBD55769886BC651D06B0CC53B0F63BCE3C3E27D2604B
def p256g : Nat × Nat :=
  (0x6B17D1F2E12C4247F8BCE6E563A440F277037D812DEB33A0F4A13945D898C296,
   0x4FE342E2FE1A7F9B8EE7EB4A7C0F9E162BCE33576B315ECECBB6406837BF51F5)

/-- Power modulo `m`, by the `k` low bits of the exponent, highest first. -/
def powMod (m b e : Nat) : Nat → Nat
  | 0 => 1 % m
  | k + 1 =>
    let r := powMod m b (e / 2) k
    r * r % m * (if e % 2 = 1 then b else 1) % m

/-- Inverse modulo a prime. -/
def invMod (m a : Nat) : Nat := powMod m (a % m) (m - 2) 256

/-- Sum of two points, none for the point at infinity. -/
def ecAdd (a b : Option (Nat × Nat)) : Option (Nat × Nat) :=
  match a, b with
  | none, y => y
  | x, none => x
  | some (x1, y1), some (x2, y2) =>
    let p := p256p
    if x1 = x2 ∧ (y1 + y2) % p = 0 then none
    else
      let l := if x1 = x2 then (3 * x1 * x1 + (p - 3)) % p * invMod p (2 * y1) % p
        else (y2 + p - y1) % p * invMod p (x2 + p - x1) % p
      let x3 := (l * l + 2 * p - x1 - x2) % p
      some (x3, (l * (x1 + p - x3) + p - y1) % p)

/-- Multiple of a point, by the `k` low bits of the factor, highest first. -/
def ecMul (q : Option (Nat × Nat)) (e : Nat) : Nat → Option (Nat × Nat)
  | 0 => none
  | k + 1 =>
    let r := ecMul q (e / 2) k
    let d := ecAdd r r
    if e % 2 = 1 then ecAdd d q else d

/-- The point lies on the curve. -/
def onCurve (q : Nat × Nat) : Bool :=
  decide (q.1 < p256p ∧ q.2 < p256p ∧ q.2 * q.2 % p256p = (q.1 * q.1 % p256p * q.1 + (p256p - 3) * q.1 + p256b) % p256p)

/-- The signature (r, s) of the digest `z` verifies under the public key `q`. -/
def ecdsaOk (q : Nat × Nat) (r s z : Nat) : Bool :=
  if r = 0 ∨ p256n ≤ r ∨ s = 0 ∨ p256n ≤ s then false
  else if !onCurve q then false
  else
    let w := invMod p256n s
    match ecAdd (ecMul (some p256g) (z * w % p256n) 256) (ecMul (some q) (r * w % p256n) 256) with
    | some (x, _) => decide (x % p256n = r)
    | none => false

end Sys2Proof.Machine
end

