-- ==== Sys2Proof/Machine/Boot.lean ====
section
/-!
DEFINITION. Flash, OTP and images (R449 to R453), the boot ROM (R454), the start-good declaration (R455, R456), restarts and
traps (R457 to R459).
-/

namespace Sys2Proof.Machine

/-! ### Flash and OTP -/

/-- Byte `o` of OTP (Table 18.2).  Digests stand first byte first, the other numbers but the unit ID little-endian (DESIGN CHOICE, log 92). -/
def Otp.byte (o : Otp) (a : Nat) : Byte :=
  let le := fun n k : Nat => BitVec.ofNat 8 (n / 256 ^ k)
  if a < 4 then le o.chipId.toNat a
  else if a < 9 then le o.unitId.toNat (8 - a)
  else if a < 0x10 then 0#8
  else if a < 0x30 then le Config.keyHash0 (0x2F - a)
  else if a < 0x50 then le o.keyHash1 (0x4F - a)
  else if a < 0x60 then 0#8
  else if a < 0xC0 then le (o.roll.getD ((a - 0x60) / 32) 0#256).toNat ((a - 0x60) % 32)
  else if a < 0x100 then le o.trims.toNat (a - 0xC0)
  else 0#8

/-- The three regions that carry SECDED: identity, keys and trims (R449), by the number of a 64-bit word. -/
def otpChecked (w : Nat) : Bool := decide (w < 2 ∨ (2 ≤ w ∧ w < 10) ∨ (24 ≤ w ∧ w < 32))

/-- A double-bit, or a single-bit, error stands in a checked region (R449). -/
def Otp.ue (o : Otp) : Bool := o.errs.any (fun e => otpChecked e.1 && e.2)
def Otp.ce (o : Otp) : Bool := o.errs.any (fun e => otpChecked e.1 && !e.2)

/-- A byte of flash; an erased one reads 0xFF. -/
def Kettle.fbyte (k : Kettle) (a : Nat) : Byte := Tab.get (fun _ => 0xFF#8) k.flash a

/-- Bytes of flash. -/
def Kettle.fbytes (k : Kettle) (a n : Nat) : List Byte := (List.range n).map (fun i => k.fbyte (a + i))

/-- A little-endian number in flash (DEDUCED, log 39: the header's fields but the key and the signature follow R47). -/
def Kettle.fle (k : Kettle) (a n : Nat) : Nat := ofLE (k.fbytes a n)

/-- Program bytes of an erased range. -/
def Kettle.fput (k : Kettle) (a : Nat) : List Byte → Kettle
  | [] => k
  | v :: l => ({ k with flash := Tab.set (fun _ => 0xFF#8) k.flash a v }).fput (a + 1) l

/-- Address of an image slot (Table 18.3). -/
def slotAt (s : Nat) : Nat := 0x20000 + 0x200000 * s

/-- Erase an image slot. -/
def Kettle.eraseSlot (k : Kettle) (s : Nat) : Kettle :=
  { k with flash := Tab.drop k.flash (fun a => decide (slotAt s ≤ a ∧ a < slotAt s + 0x200000)) }

/-- Bit `i` of the rollback counter: at least two copies hold 1 (R449). -/
def Kettle.rollBit (k : Kettle) (i : Nat) : Bool := decide (2 ≤ (k.otp.roll.filter (fun x => x.getLsbD i)).length)

/-- The rollback counter (R449). -/
def Kettle.counter (k : Kettle) : Nat := ((List.range 256).takeWhile k.rollBit).length

/-- The bytes of a boot record copy that its CRC-32 covers: generation, ACTIVE, PENDING and two bytes of 0, in this order (DESIGN CHOICE,
log 92). -/
def BootRec.body (r : BootRec) : List Byte := leBytes 4 r.gen.toNat ++ leBytes 1 r.active ++ leBytes 1 r.pending ++ [0#8, 0#8]

/-- A copy with its CRC-32. -/
def BootRec.make (gen : Word) (active pending : Nat) : BootRec :=
  let r : BootRec := ⟨gen, active, pending, 0#32⟩
  { r with crc := BitVec.ofNat 32 (crc32 r.body) }

/-- The CRC-32 of a copy is correct (R451). -/
def BootRec.ok (r : BootRec) : Bool := decide (r.crc.toNat = crc32 r.body)

/-- The copies with a correct CRC. -/
def Kettle.copy0 (k : Kettle) : Option BootRec := k.rec0.filter BootRec.ok
def Kettle.copy1 (k : Kettle) : Option BootRec := k.rec1.filter BootRec.ok

/-- The boot record in force (R451). -/
def Kettle.bootRec (k : Kettle) : BootRec :=
  match k.copy0, k.copy1 with
  | none, none => ⟨0#32, 0, 0, 0#32⟩
  | some a, none => a
  | none, some b => b
  | some a, some b => if a.gen.toNat < b.gen.toNat then b else a

/-- Write a changed boot record into the copy that is not in force: the one of the lower generation, or one that is not valid (R451). -/
def Kettle.putRec (k : Kettle) (active pending : Nat) : Kettle :=
  let r := BootRec.make (k.bootRec.gen + 1#32) active pending
  match k.copy0, k.copy1 with
  | none, _ => { k with rec0 := some r }
  | some _, none => { k with rec1 := some r }
  | some a, some b => if a.gen.toNat < b.gen.toNat then { k with rec0 := some r } else { k with rec1 := some r }

/-- Byte `o` of a boot record copy in flash: an erased one reads 0xFF. -/
def recByte (r : Option BootRec) (o : Nat) : Byte :=
  match r with
  | some r => (r.body ++ leBytes 4 r.crc.toNat).getD o 0xFF#8
  | none => 0xFF#8

/-- The 16 bytes of an entry as four words (R462). -/
def LogEnt.words (e : LogEnt) : List Word :=
  [e.seq, e.sec, BitVec.ofNat 32 e.ns,
   BitVec.ofNat 32 (2 ^ 30 * e.sev + 2 ^ 29 * b2n e.noTime + 2 ^ 24 * e.src + 2 ^ 16 * e.code + e.arg)]

/-- The 16 bytes of an entry, each field little-endian (R462). -/
def LogEnt.bytes (e : LogEnt) : List Byte := e.words.flatMap (fun w => leBytes 4 w.toNat)

/-- The flash as Table 18.3 lays it out: the boot record copies, the image slots, the persistent log, the configuration store. -/
def Kettle.flashByte (k : Kettle) (a : Nat) : Byte :=
  if a < 0x1000 then recByte k.rec0 a
  else if a < 0x2000 then recByte k.rec1 (a - 0x1000)
  else if 0x420000 ≤ a ∧ a < 0x520000 then
    let i := ((a - 0x420000) / 16 + 65536 - k.persAt) % 65536
    match k.pers[i]? with
    | some e => e.bytes.getD (a % 16) 0xFF#8
    | none => 0xFF#8
  else k.fbyte a

/-! ### Images (R452, R453) -/

/-- Offset and length of each section of a type that an image's table lists (Table 18.4). -/
def Kettle.sections (k : Kettle) (b type : Nat) : List (Nat × Nat) :=
  ((List.range (min 8 (k.fle (b + 0xE) 2))).filter (fun i => decide (k.fle (b + 0x90 + 16 * i) 4 = type))).map
    (fun i => (k.fle (b + 0x94 + 16 * i) 4, k.fle (b + 0x98 + 16 * i) 4))

/-- The bytes of the sections of a type. -/
def Kettle.sectBytes (k : Kettle) (b type : Nat) : List Byte := (k.sections b type).flatMap (fun e => k.fbytes (b + e.1) e.2)

/-- The lengths of the KFW sections. -/
def Kettle.kfwSizes (k : Kettle) (b : Nat) : List Nat := (k.sections b 1).map (fun e => e.2)

/-- The header is of the form of R452 and holds exactly one KFW section of at most 192 KiB. -/
def Kettle.imgForm (k : Kettle) (b : Nat) : Bool :=
  decide (k.fle b 4 = 0x4B544C45 ∧ 512 ≤ k.fle (b + 4) 4 ∧ k.fle (b + 4) 4 ≤ 2097152) &&
  decide ((k.kfwSizes b).length = 1 ∧ (k.kfwSizes b).headD 0 ≤ 196608)

/-- The public key is one that OTP names. -/
def Kettle.keyOk (k : Kettle) (b : Nat) : Bool :=
  let h := sha256 (k.fbytes (b + 0x10) 64)
  decide (h = Config.keyHash0 ∨ (k.otp.keyHash1 ≠ 0 ∧ h = k.otp.keyHash1))

/-- The signature verifies over every byte of the image but itself. -/
def Kettle.sigOk (k : Kettle) (b : Nat) : Bool :=
  let z := sha256 (k.fbytes b 0x50 ++ k.fbytes (b + 0x90) (k.fle (b + 4) 4 - 0x90))
  ecdsaOk (ofBE (k.fbytes (b + 0x10) 32), ofBE (k.fbytes (b + 0x30) 32)) (ofBE (k.fbytes (b + 0x50) 32))
    (ofBE (k.fbytes (b + 0x70) 32)) z

/-- The first result code of Table 18.9 by which an image fails, 0 for a valid one (R453). -/
def Kettle.imgCheck (k : Kettle) (slot : Nat) : Nat :=
  let b := slotAt slot
  if !k.imgForm b then 2
  else if !(k.keyOk b && k.sigOk b) then 4
  else if k.fle (b + 0xC) 2 < k.counter then 5
  else 0

/-! ### Kettle SRAM (R447, R448) -/

/-- The list of the bytes that are not 0, with their offsets. -/
def tabOf (a : Nat) : List Byte → Tab Byte
  | [] => []
  | v :: l => if v = 0#8 then tabOf (a + 1) l else (a, v) :: tabOf (a + 1) l

/-- The boot ROM copies the KFW section of a slot into SRAM (R453), from its first byte on (DESIGN CHOICE, log 92): it fits below the ring of
the log. -/
def State.loadKfw (s : State) (slot : Nat) : State :=
  let l := s.ktl.sectBytes (slotAt slot) 1
  { s with
    ktl := { s.ktl with sram := tabOf 0 l ++ s.ktl.sram.filter (fun e => decide (l.length ≤ e.1)) }
    chip := { s.chip with sramErr := s.chip.sramErr.filter (fun e => decide (l.length ≤ e.1)) } }

/-- A byte of the Kettle's own memories (Table 18.1): boot ROM, SRAM with the ring of the log, OTP.  The rest of its map is BAR0, which
`Port.kettle` reaches. -/
def State.kettleByte (s : State) (a : Nat) : Option Byte :=
  if a < 0x10000 then some (Config.bootRom a)
  else if 0x20000000 ≤ a ∧ a < 0x20030000 then some (Tab.get (fun _ => 0#8) s.ktl.sram (a - 0x20000000))
  else if 0x20030000 ≤ a ∧ a < 0x20040000 then
    match s.chip.log.find? (fun e => decide (ringAt e.seq = (a - 0x20000000) / 16 * 16)) with
    | some e => some (e.bytes.getD (a % 16) 0#8)
    | none => some 0#8
  else if 0x30000000 ≤ a ∧ a < 0x30000400 then some (s.ktl.otp.byte (a - 0x30000000))
  else none

/-! ### The state of the Kettle -/

/-- Kettle firmware runs: it has started and does not restart. -/
def Chip.fwRuns (c : Chip) : Bool := c.rst.kettleUp && decide (c.kstate = 1 ∨ c.kstate = 2)

/-- The Kettle runs code that serves messages and keeps the log (R463, R464, R466, R468): firmware, or the ROM in Decaf. -/
def Chip.fwServes (c : Chip) : Bool := c.rst.kettleUp && decide (1 ≤ c.kstate ∧ c.kstate ≤ 3)

/-- An entry in the log (R462). -/
def State.log (s : State) (sev src code arg : Nat) : State := s.onChip (fun c => c.logAdd s.tb sev src code arg)

/-- A new boot record, shown in KTL.STAT. -/
def State.putRec (s : State) (active pending : Nat) : State :=
  { s with
    ktl := s.ktl.putRec active pending
    chip := (s.chip.setF KTL.STAT 27 27 active).setF KTL.STAT 26 25 pending }

/-! ### The boot ROM (R454) -/

/-- BOOT_CAUSE of a reset source (Tables 18.5 and 19.4). -/
def bootCause (src : Nat) : Nat :=
  match src with
  | 0 => 0
  | 1 => 4
  | 5 => 1
  | 7 => 3
  | 8 => 2
  | 9 => 5
  | _ => 6

/-- Decaf with a cause (R468): only PD0 and PD1 are powered, whatever the host has requested before. -/
def State.decaf (s : State) (cause : Nat) : State :=
  let was := (List.range 16).any (fun d => decide (2 ≤ d) && s.chip.powered d)
  ((s.powerChange Chip.onlyPd01).onChip (fun c =>
    ((c.when was (fun c => c.evt pgPwr 1)).setKstate 3).setF KTL.BOOT 27 24 cause)).log 3 1 4 cause

/-- One more try. -/
def State.tryAgain (s : State) : State := s.onChip (fun c => c.setF KTL.BOOT 1 0 (min 3 (c.bootTries + 1)))

/-- Step 7: the firmware of a slot starts.  It has loaded nothing yet, and nothing is left to load where the image has neither a STEEP nor a
LINE section (R453). -/
def State.startSlot (s : State) (slot : Nat) : State :=
  let s := s.tryAgain.loadKfw slot
  let b := slotAt slot
  let s := s.onKtl (fun k => { k with loaded := (k.sections b 2 ++ k.sections b 3).isEmpty })
  let s := s.onChip (fun c =>
    (((c.setKstate 1).setF KTL.STAT 24 24 slot).setN KTL.FW_VER (s.ktl.fle (b + 8) 4)).setF KTL.FW_SVN 8 0 (s.ktl.fle (b + 0xC) 2))
  s.log 0 1 1 (256 * slot + s.chip.bootTries)

/-- Step 6: the chosen slot, or the other one. -/
def State.chooseSlot (s : State) (slot : Nat) : State :=
  let v := s.ktl.imgCheck slot
  if v = 0 then s.startSlot slot
  else
    let s := (s.log 2 1 5 slot).tryAgain
    let w := s.ktl.imgCheck (1 - slot)
    if v = 5 ∧ w = 5 then s.decaf 3
    else if s.chip.bootTries = 3 then s.decaf 1
    else if w = 0 then s.startSlot (1 - slot)
    else s.decaf 2

/-- Step 4: the pending image has failed to start. -/
def State.dropPending (s : State) : State :=
  let r := s.ktl.bootRec
  if 1 ≤ s.chip.bootTries ∧ r.pending = s.chip.lastSlot + 1 then
    (s.putRec r.active 0).log 2 1 3 (s.chip.rf KTL.BOOT 31 28)
  else s

/-- Step 1: what OTP gives, identity, trims and the counter, and the cause of the reset. -/
def State.bootLoad (s : State) : State :=
  let r := s.ktl.bootRec
  (s.onKtl (fun k => { k with trims := k.otp.trims })).onChip (fun c =>
    let c := ((c.otpLoad s.ktl.otp).setN KTL.BOOT (2 ^ 28 * bootCause (c.rf RST.LAST 31 28) + c.rf KTL.BOOT 2 0)).setF KTL.STAT 23 23 0
    let c := (c.setF KTL.STAT 27 27 r.active).setF KTL.STAT 26 25 r.pending
    let c := (c.setF KTL.FW_SVN 24 16 s.ktl.counter).setF KTL.OTP_STAT 2 2 (b2n (decide (s.ktl.otp.keyHash1 ≠ 0)))
    (c.setF KTL.OTP_STAT 0 0 (b2n s.ktl.otp.ue)).setF KTL.OTP_STAT 1 1 (b2n s.ktl.otp.ce))

/-- The steps of R454 at the release of Kettle reset. -/
def State.boot (s : State) : State :=
  let s := s.bootLoad
  if s.ktl.otp.ue then s.decaf 4
  else if s.chip.rb KTL.BOOT 2 then (s.onChip (fun c => c.setF KTL.BOOT 2 2 0)).decaf 5
  else if 3 ≤ s.chip.bootTries then s.decaf 1
  else
    let s := s.dropPending
    let r := s.ktl.bootRec
    s.chooseSlot (if r.pending = 0 then r.active else r.pending - 1)

/-- The Kettle's reset is released (R477). -/
def State.kettleRelease (s : State) : State :=
  if !s.chip.held && !s.chip.rst.kettleUp && decide (s.chip.rst.releasedAt + 1000000 ≤ s.tb.up) then
    State.boot { s with chip := { s.chip with rst := { s.chip.rst with kettleUp := true, kettleAt := s.tb.up } } }
  else s

/-! ### The declaration (R456) -/

/-- The conditions of R456 that registers show. -/
def Chip.goodOk (c : Chip) : Bool :=
  c.rst.kettleUp && decide (c.kstate = 1) && decide (c.rn SENS.HI_STAT = 0 ∧ c.rn SENS.LO_STAT = 0) &&
  (!c.rb KTL.CFG 0 || c.rb KTL.STAT 23)

/-- The conditions of R456: the STEEP and LINE sections are loaded, too. -/
def State.goodOk (s : State) : Bool := s.ktl.loaded && s.chip.goodOk

/-- Program the rollback counter up to a security version, in the three copies. -/
def Kettle.raiseTo (k : Kettle) (svn : Nat) : Kettle :=
  { k with otp := { k.otp with roll := k.otp.roll.map (fun x => x ||| BitVec.ofNat 256 (2 ^ min svn 256 - 1)) } }

/-- Step 3: the counter rises to the image's SVN. -/
def State.raise (s : State) : State :=
  let svn := s.chip.rf KTL.FW_SVN 8 0
  if s.ktl.counter < svn then
    let k := s.ktl.raiseTo svn
    ({ s with ktl := k, chip := s.chip.setF KTL.FW_SVN 24 16 k.counter }).log 0 7 4 k.counter
  else s

/-- The start is declared good. -/
def State.good (s : State) : State :=
  let slot := s.chip.lastSlot
  let s := s.onChip (fun c => c.setF KTL.BOOT 1 0 0)
  let s := if s.ktl.bootRec.pending = slot + 1 then s.putRec slot 0 else s
  let s := s.raise
  (s.onChip (fun c => (c.evt pgKtl 0).setKstate 2)).log 0 1 2 slot

/-! ### Restarts (R457, R458) -/

/-- A cause that the manual does not number, from the free values. -/
def State.freeArg (s : State) : State × Nat :=
  (s.onChip (fun c => { c with free := c.free + 1 }), (Config.freeWord s.chip.free).toNat % 2 ^ 16)

/-- The Kettle core restarts alone. -/
def State.restart (s : State) : State :=
  let l := (s.ktl.restarts ++ [s.tb.up]).filter (fun t => decide (s.tb.up < t + 60000000000))
  let s := { s with ktl := { s.ktl with restarts := l, upd := none, inbox := [], outbox := [] } }
  let (s, arg) := s.freeArg
  let s := (s.onChip (fun c => ((c.setKstate 4).trouble KTL.KRESTARTS).evt pgKtl 1)).log 1 10 1 arg
  if 3 ≤ l.length then
    let (s, arg) := s.freeArg
    (s.onChip (fun c => (c.declareFault 4).evt pgKtl 2)).log 3 10 2 arg
  else s

/-- A trap: after the declaration the core restarts, before it the chip is reset (R457, R459). -/
def State.trap (s : State) : State :=
  if !s.chip.rst.kettleUp || decide (s.chip.kstate = 4) then s
  else if s.chip.kstate = 2 then s.restart else s.assertSrc 9

/-- The Kettle loads the entry `seq` of the ring from SRAM (R448): a single-bit error is corrected, written back and logged, whose ARG, the
cause, is free; a double-bit error traps the core, and the load is not made. -/
def State.sramLoad (s : State) (seq : Word) : State × Bool :=
  let errs := s.chip.sramErr.filter (fun e => decide (e.1 / 16 = ringAt seq / 16))
  if errs.isEmpty || (s.chip.log.find? (fun e => decide (e.seq = seq))).isNone then (s, true)
  else if errs.any (fun e => e.2) then (s.trap, false)
  else
    let s := s.onChip (fun c => { c with sramErr := c.sramErr.filter (fun e => decide (e.1 / 16 ≠ ringAt seq / 16)) })
    let (s, arg) := s.freeArg
    (s.log 1 10 3 arg, true)

/-! ### Commands -/

/-- The Kettle leaves reset and the boot ROM runs (R454, R477). -/
def execKettleResetRelease (s : State) : Res := .next s.kettleRelease

/-- A write of `KTL.CTRL` (R456, R469, R476): the reset of the same write comes last. -/
def State.writeKtlCtrl (s : State) (v : Word) : State :=
  let s := if bit v 0 then s.onChip (fun c => c.when (decide (c.kstate = 1)) (fun c => c.setF KTL.STAT 23 23 1)) else s
  let s := if bit v 2 then s.onChip (fun c => c.setF KTL.BOOT 2 2 1) else s
  if bit v 1 then s.assertSrc 7 else s

/-- Writing RESET (R476). -/
def execKtlCtrlReset (p : Port) (s : State) : Res := .next (s.gated p KTL.CTRL (fun s => s.writeKtlCtrl 2#32))

/-- Writing DECAF_REQ (R469). -/
def execDecafReq (p : Port) (s : State) : Res := .next (s.gated p KTL.CTRL (fun s => s.writeKtlCtrl 4#32))

/-- Writing CONFIRM (R456). -/
def execConfirm (p : Port) (s : State) : Res := .next (s.gated p KTL.CTRL (fun s => s.writeKtlCtrl 1#32))

/-- The firmware declares the start good (R456). -/
def execGood (s : State) : Res := .next (if s.goodOk then s.good else s)

/-- The start watchdog (R455). -/
def execWdogStart (s : State) : Res :=
  .next (if s.chip.rst.kettleUp && decide (s.chip.kstate ≤ 1 ∧ s.chip.rst.kettleAt + 10000000000 ≤ s.tb.up) then s.assertSrc 8 else s)

/-- The watchdog of a declared start expires (R457). -/
def execKettleWatchdog (s : State) : Res := .next (if s.chip.rst.kettleUp && decide (s.chip.kstate = 2) then s.restart else s)

/-- A trap: after the declaration the core restarts, before it the chip is reset (R457, R459). -/
def execTrap (s : State) : Res := .next s.trap

end Sys2Proof.Machine
end

