-- ==== Sys2Proof/Machine/Kettle.lean ====
section
/-!
DEFINITION. The Kettle's services: sensors (R460, R461), the log's readers, its persistent copy and its stream (R462 to R465), the
mailboxes (R427), the commands and image updates (R466, R467), and the end of a restart (R457).
-/

namespace Sys2Proof.Machine

/-! ### Sensors (R460, R461) -/

/-- The threshold register of sensor `k`. -/
def thrReg (k : Nat) : Nat := 0xC100 + 8 * k

/-- HI and LO of sensor `k` after a conversion `r`: the state so far, the new state. -/
def Chip.judgeHi (c : Chip) (k : Nat) (r : Int) : Bool :=
  let hi := signedN 16 (c.rf (thrReg k) 15 0)
  let hys : Int := c.rf (SENS.HYS k) 15 0
  if c.rb SENS.HI_STAT k then !decide (r < hi - hys) else decide (hi ≤ r)

def Chip.judgeLo (c : Chip) (k : Nat) (r : Int) : Bool :=
  let lo := signedN 16 (c.rf (thrReg k) 31 16)
  let hys : Int := c.rf (SENS.HYS k) 15 0
  if c.rb SENS.LO_STAT k then !decide (lo + hys ≤ r) else decide (r < lo)

/-- A status bit follows its judgement, with the event of an activation or of the return, and its log entry. -/
def Chip.sensBit (c : Chip) (tb : TimeBase) (reg k evt : Nat) (v : Bool) : Chip :=
  if v = c.rb reg k then c
  else
    let c := c.setF reg k k (b2n v)
    if v then (c.evt pgSens evt).logAdd tb 1 2 (evt + 1) k else (c.evt pgSens 2).logAdd tb 0 2 3 k

/-- A conversion of sensor `k` (R461). -/
def Chip.convert (c : Chip) (tb : TimeBase) (k : Nat) (r : Int) : Chip :=
  let v := BitVec.ofNat 32 ((wOf r).toNat % 2 ^ 16)
  let hi := c.judgeHi k r
  let lo := c.judgeLo k r
  let c := c.setReg (if k < 4 then SENS.TS k else SENS.VM (k - 4)) v
  let c := (c.sensBit tb SENS.HI_STAT k 0 hi).sensBit tb SENS.LO_STAT k 1 lo
  if k < 4 then
    let c := c.when (decide (signedN 16 (c.rf SENS.TMAX 15 0) < r)) (fun c => c.setReg SENS.TMAX v)
    c.when (decide (signedN 16 (c.rf SENS.TCRIT 15 0) ≤ r)) (fun c =>
      ((c.evt pgSens 3).logAdd tb 3 2 4 k).declareFault 3)
  else c

/-- A write of a threshold: one that leaves LO above HI is discarded and counted (Table 18.11). -/
def Chip.writeThr (c : Chip) (a : Nat) (v : Word) : Chip :=
  if signedN 16 (fld v 15 0) < signedN 16 (fld v 31 16) then c.errCount pgSens else c.setReg a v

/-- A write of TCRIT: values outside 800 to 1 160 are discarded. -/
def Chip.writeTcrit (c : Chip) (v : Word) : Chip :=
  if 800 ≤ fld v 15 0 ∧ fld v 15 0 ≤ 1160 then c.setN SENS.TCRIT (fld v 15 0) else c

/-! ### Readers of the log (R462 to R465) -/

/-- The entry of a SEQ, if the ring holds it. -/
def Chip.logFind (c : Chip) (seq : Word) : Option LogEnt := c.log.find? (fun e => decide (e.seq = seq))

/-- RD0 to RD3 take an entry, if there is one (R465). -/
def Chip.logLoad (c : Chip) (e : Option LogEnt) : Chip :=
  let l := match e with | some e => e.words | none => []
  (each (List.range 4) (fun w c => c.setReg (LOG.RD w) (l.getD w 0#32)) c).setN LOG.RD_STAT (b2n l.isEmpty)

/-- The Kettle loads the entry of RD_SEQ, unless the load traps it (R448, R465). -/
def State.logLoad (s : State) : State :=
  let v := s.chip.reg LOG.RD_SEQ
  let t := s.sramLoad v
  if t.2 then t.1.onChip (fun c => c.logLoad (s.chip.logFind v)) else t.1

/-- A write of RD_SEQ (R465). -/
def State.writeRdSeq (s : State) (v : Word) : State := (s.onChip (fun c => c.setReg LOG.RD_SEQ v)).logLoad

/-- What a read of RD3 does after it has returned (R465). -/
def State.rd3After (s : State) : State := (s.onChip (fun c => c.bump LOG.RD_SEQ)).logLoad

/-- Occurrences of a trouble counter, all at once. -/
def Chip.troubleAdd (c : Chip) (a n : Nat) : Chip :=
  let k := min n (0xFFFFFFFF - c.rn a)
  let b := pgErrcnt (pageBase a)
  let c := c.setN a (c.rn a + k)
  c.setN b (min 0xFFFFFFFF (c.rn b + k))

/-- The oldest SEQ in the ring. -/
def Chip.logOldest (c : Chip) : Word := match c.log.head? with | some e => e.seq | none => c.reg LOG.WR_SEQ

/-- SEQ `seq` lies before the ring: it has been overwritten. -/
def Chip.logGone (c : Chip) (seq : Word) : Bool :=
  decide ((c.reg LOG.WR_SEQ - c.logOldest).toNat < (c.reg LOG.WR_SEQ - seq).toNat)

/-- The entries of the ring from SEQ `seq` on: after a power-up SEQs may be missing among them (R463). -/
def Chip.logFrom (c : Chip) (seq : Word) : List LogEnt :=
  if c.logGone seq then c.log else c.log.filter (fun e => decide ((c.reg LOG.WR_SEQ - e.seq).toNat ≤ (c.reg LOG.WR_SEQ - seq).toNat))

/-- The first entry of the ring, from SEQ `persNext` on, of the severity that is copied to flash (R463). -/
def State.persFirst (s : State) : Option LogEnt :=
  (s.chip.logFrom s.ktl.persNext).find? (fun e => decide (s.chip.rf LOG.PERSIST 1 0 ≤ e.sev))

/-- The persistent ring takes an entry: its oldest sector of 256 is erased first where the entry begins a sector of the
full ring (R463). -/
def Kettle.persPut (k : Kettle) (e : LogEnt) : Kettle :=
  let full := decide (k.pers.length = 65536)
  { k with
    pers := (if full then k.pers.drop 256 else k.pers) ++ [e]
    persAt := if full then (k.persAt + 256) % 65536 else k.persAt
    persNext := e.seq + 1#32 }

/-- One entry is copied to flash, or the flash fails (R463). -/
def State.persist (s : State) (fail : Bool) : State :=
  match s.persFirst with
  | none => s
  | some e =>
    let t := s.sramLoad e.seq
    if !t.2 then t.1
    else if fail then t.1.onChip (fun c => (c.trouble LOG.FLASH_ERR).evt pgLog 2)
    else { t.1 with ktl := t.1.ktl.persPut e, chip := t.1.chip.setReg LOG.PERSIST_SEQ e.seq }

/-- The two words of an entry in SF3 (R464). -/
def Chip.logPush (c : Chip) (e : LogEnt) : Chip :=
  let w := e.words.map (fun x => x.toNat)
  c.sfPut 3 ((c.sf 3).fifo ++ [(BitVec.ofNat 64 (w.getD 0 0 + 2 ^ 32 * w.getD 1 0), 0),
    (BitVec.ofNat 64 (w.getD 2 0 + 2 ^ 32 * w.getD 3 0), 0)])

/-- A GAP entry (R464): its SEQ is not stated. -/
def State.gapEnt (s : State) (n : Nat) : LogEnt :=
  let run := s.chip.domOn 2
  ⟨Config.freeWord s.chip.free, if run then s.tb.sec.setWidth 32 else BitVec.ofNat 32 (s.tb.up / 1000000),
   if run then s.tb.ns else 0, 1, !run, 9, 1, min n 0xFFFF⟩

/-- The stream pushes its next entry, or the GAP entry for what has been overwritten (R464). -/
def State.streamPush (s : State) : State :=
  let c := s.chip
  if !(c.rb LOG.STREAM 0 && c.sfRoom 3 2 && c.fwServes) || decide (s.ktl.streamNext = c.reg LOG.WR_SEQ) then s
  else if c.logGone s.ktl.streamNext then
    let n := (c.logOldest - s.ktl.streamNext).toNat
    let g := s.gapEnt n
    { s with chip := Chip.troubleAdd { (c.logPush g) with free := c.free + 1 } LOG.LOST n
             ktl := { s.ktl with streamNext := c.logOldest } }
  else match (c.logFrom s.ktl.streamNext).head? with
    | some e =>
      let t := s.sramLoad e.seq
      if t.2 then { t.1 with chip := t.1.chip.logPush e, ktl := { t.1.ktl with streamNext := e.seq + 1#32 } } else t.1
    | none => { s with ktl := { s.ktl with streamNext := c.reg LOG.WR_SEQ } }

/-- Writing FROM_OLDEST (R464). -/
def State.fromOldest (s : State) : State := { s with ktl := { s.ktl with streamNext := s.chip.logOldest } }

/-- A write of LOG.STREAM. -/
def State.writeLogStream (s : State) (v : Word) : State :=
  let s := s.onChip (fun c => c.setF LOG.STREAM 0 0 (fld v 0 0))
  if bit v 1 then s.fromOldest else s

/-! ### Mailboxes (R427) -/

/-- Bytes of the message in mailbox `m` (R427). -/
def Chip.mbxBytes (c : Chip) (m : Nat) : List Byte :=
  ((List.range 64).flatMap (fun w => leBytes 4 (c.rn (HOSTIF.MB_IN_BUF (64 * m + w))))).take (c.rf (HOSTIF.MBX_IN m) 8 0)

/-- A write of MB0 or MB1 (R427). -/
def Chip.writeMbxIn (c : Chip) (m : Nat) (v : Word) : Chip :=
  let a := HOSTIF.MBX_IN m
  let busy := c.rb a 30
  let c := c.when (bit v 29) (fun c => c.w1c a (oneBit 29))
  if busy then c
  else
    let len := fld v 8 0
    let c := c.setF a 8 0 len
    if bit v 31 && decide (1 ≤ len ∧ len ≤ 256) then (c.setF a 31 31 1).setF a 30 30 1 else c

/-- A write to the buffer of MB0 or MB1: discarded while BUSY (R427). -/
def Chip.writeMbxBuf (c : Chip) (m a : Nat) (v : Word) : Chip := if c.rb (HOSTIF.MBX_IN m) 30 then c else c.setReg a v

/-- The message of mailbox `m` is complete (R427). -/
def Chip.mbxDone (c : Chip) (m result : Nat) : Chip :=
  let a := HOSTIF.MBX_IN m
  let c := ((c.setF a 31 31 0).setF a 30 30 0).setF a 23 16 result
  (c.raise a (oneBit 29)).evt pgHostif (16 + m)

/-- A reply enters its buffer, which is full (R427, R466). -/
def Chip.mbxReply (c : Chip) (m : Nat) (l : List Byte) : Chip :=
  let c := each (List.range 64) (fun w c =>
    c.setN (HOSTIF.MB_OUT_BUF (64 * m + w)) (ofLE ((List.range 4).map (fun i => l.getD (4 * w + i) 0#8)))) c
  let a := HOSTIF.MBX_OUT m
  ((c.setF a 8 0 l.length).raise a (oneBit 31)).evt pgHostif (18 + m)

/-- A completed message whose reply finds its buffer full waits; the others complete now (R466). -/
def State.mbxFinish (s : State) (m result : Nat) (reply : Option (List Byte)) : State :=
  match reply with
  | none => s.onChip (fun c => c.mbxDone m result)
  | some l =>
    if s.chip.rb (HOSTIF.MBX_OUT m) 31 then
      { s with ktl := { s.ktl with waiting := Tab.set (fun _ => none) s.ktl.waiting m (some (result, l)) } }
    else s.onChip (fun c => (c.mbxDone m result).mbxReply m l)

/-- A reply of mailbox `m` waits for its buffer. -/
def State.mbxWaits (s : State) (m : Nat) : Option (Nat × List Byte) := Tab.get (fun _ => none) s.ktl.waiting m

/-- Writing FULL on MB2 or MB3 (R427): the buffer is free, and a reply that waits for it enters. -/
def State.mbxFree (s : State) (m : Nat) (v : Word) : State :=
  if !bit v 31 then s
  else
    let s := s.onChip (fun c => c.w1c (HOSTIF.MBX_OUT m) (oneBit 31))
    match s.mbxWaits m with
    | some (r, l) =>
      if s.chip.rb (HOSTIF.MBX_OUT m) 31 then s
      else { s with
        chip := (s.chip.mbxDone m r).mbxReply m l
        ktl := { s.ktl with waiting := Tab.set (fun _ => none) s.ktl.waiting m none } }
    | none => s

/-! ### The management port (R84, R94 to R96) -/

/-- The descriptor of channel `k` in progress. -/
def Chip.dmaRun (c : Chip) (k : Nat) : Option DmaRun := Tab.get (fun _ => none) c.dma k

/-- Nanoseconds of a byte at a link speed: 1 10 Mb/s, 2 100 Mb/s, 3 1 000 Mb/s. -/
def mgByteNs (speed : Nat) : Nat := if speed = 1 then 800 else if speed = 2 then 80 else 8

/-- W of Table 3.5 on the management port. -/
def mgWindow (speed : Nat) : Nat := if speed = 1 then 400 else if speed = 2 then 40 else 8

/-- A frame starts now on the management port: its stamp carries TX_LAT (R84). -/
def Chip.mgStamp (c : Chip) (tb : TimeBase) : Word := tb.fast + BitVec.ofNat 32 (c.rf PTP.TX_LAT 15 0)

/-- Nanoseconds that a frame of `n` bytes takes on the management port: preamble, FCS and gap are 24 bytes. -/
def mgWire (n speed : Nat) : Nat := (max n 60 + 24) * mgByteNs speed

/-- The port is busy from now on with a frame of `n` bytes. -/
def Chip.mgBusy (c : Chip) (tb : TimeBase) (n speed : Nat) : Chip := { c with mgEnd := tb.up + mgWire n speed, mgSpeed := speed }

/-- A frame on the management port (R420): preamble and start-of-frame delimiter, the bytes padded to 60, and the FCS. -/
def mgWireBytes (l : List Byte) : List Byte :=
  let p := l ++ List.replicate (60 - l.length) 0#8
  List.replicate 7 0x55#8 ++ [0xD5#8] ++ p ++ leBytes 4 (crc32 p)

/-- A frame leaves on the management port. -/
def Chip.mgSend (c : Chip) (tb : TimeBase) (bytes : List Byte) (speed : Nat) : Chip :=
  (c.mgBusy tb bytes.length speed).emit (.mgFrame (c.mgStamp tb) (mgWireBytes bytes))

/-- The management port can run at a speed: 1 000 Mb/s needs VDDIO_H at 1.8 V (R487). -/
def Chip.mgSpeedOk (c : Chip) (speed : Nat) : Bool := decide (1 ≤ speed ∧ speed ≤ 3) && (decide (speed ≠ 3) || decide (c.bankLevel 6 = 1))

/-- LAUNCH_AT of the timed frame that waits. -/
def Chip.mgQueued (c : Chip) : Option Word :=
  match c.dmaRun 4 with
  | some r => if r.frame.isSome && bit r.desc.ctl 17 then some r.desc.aux else none
  | none => none

/-- No frame is on the management port. -/
def Chip.mgFree (c : Chip) (tb : TimeBase) : Bool := decide (c.mgEnd ≤ tb.up)

/-- The port may start an untimed frame of `n` bytes: it is free, and the frame ends, with its gap, before the earliest LAUNCH_AT
(R96); while a timed frame is due, and not yet gone or dropped, none starts. -/
def Chip.mgFits (c : Chip) (tb : TimeBase) (n speed : Nat) : Bool :=
  c.mgFree tb &&
  match c.mgQueued with
  | some at' => decide (mgWire n speed ≤ (at' - tb.fast).toNat ∧ (at' - tb.fast).toNat < 2 ^ 31)
  | none => true

/-- The port may start the reply `l`: Ethernet, IPv4 and UDP headers are 42 bytes. -/
def Chip.replyFits (c : Chip) (tb : TimeBase) (l : List Byte) : Bool := c.mgFits tb (42 + l.length) c.mgSpeed

/-- A reply to the datagram `f` leaves, or waits for the port (R96, R467). -/
def State.mgReply (s : State) (f l : List Byte) : State :=
  if s.ktl.outbox.isEmpty && s.chip.replyFits s.tb l then
    s.onChip (fun c => (c.mgBusy s.tb (42 + l.length) c.mgSpeed).emit (.reply f l))
  else { s with ktl := { s.ktl with outbox := s.ktl.outbox ++ [(f, l)] } }

/-- The reply that waits first leaves, if the port may start it. -/
def State.mgFlush (s : State) : State :=
  match s.ktl.outbox with
  | (f, l) :: q =>
    if s.chip.replyFits s.tb l then
      { s with
        chip := (s.chip.mgBusy s.tb (42 + l.length) s.chip.mgSpeed).emit (.reply f l)
        ktl := { s.ktl with outbox := q } }
    else s
  | [] => s

/-! ### Commands of messages (R466, R467) -/

/-- The commands of Table 18.8. -/
def knownCmd (k : Nat) : Bool := decide (k = 1 ∨ k = 2 ∨ (0x10 ≤ k ∧ k ≤ 0x16))

/-- The UDP payload of a datagram to the management port's command port (R467). -/
def udpPayload (port : Nat) (f : List Byte) : Option (List Byte) :=
  let ihl := 4 * ((f.getD 14 0#8).toNat % 16)
  let u := 14 + ihl
  if ofBE ((f.drop 12).take 2) = 0x0800 ∧ (f.getD 14 0#8).toNat / 16 = 4 ∧ 20 ≤ ihl ∧ f.getD 23 0#8 = 17#8 ∧
      ofBE ((f.drop (u + 2)).take 2) = port then
    some ((f.drop (u + 8)).take (ofBE ((f.drop (u + 4)).take 2) - 8))
  else none

/-- The message that waits at a place, if the Kettle serves it now (R466, R468). -/
def State.message (s : State) (via : Via) : Option (List Byte) :=
  match via with
  | .mbx m =>
    if decide (m < 2) && s.chip.rb (HOSTIF.MBX_IN m) 30 && s.chip.fwServes
        && (s.mbxWaits m).isNone then some (s.chip.mbxBytes m) else none
  | .mgmt => if s.chip.fwRuns then s.ktl.inbox.head? >>= udpPayload (s.chip.rf KTL.CFG 31 16) else none
  | .stream _ => none

/-- The message is answered: by its mailbox, or by a datagram to the sender with RESULT in byte 1 (R466, R467). -/
def State.answer (s : State) (via : Via) (msg : List Byte) (result : Nat) (data : Option (List Byte)) : State :=
  let hd := fun (b : Byte) => [msg.getD 0 0#8, b, msg.getD 2 0#8, msg.getD 3 0#8]
  match via with
  | .mbx m => s.mbxFinish m result (data.map (fun l => hd 0#8 ++ l))
  | .mgmt =>
    State.mgReply { s with ktl := { s.ktl with inbox := s.ktl.inbox.drop 1 } } (s.ktl.inbox.headD [])
      (hd (BitVec.ofNat 8 result) ++ data.getD [])
  | .stream _ => s

/-- Serve the message that waits, if it is the command `code`: its effect, its result and its reply.  An unknown command
is answered with BAD_CMD, a message without its header or its arguments with BAD_ARG. -/
def State.serve (s : State) (via : Via) (code need : Nat) (f : State → List Byte → State × Nat × Option (List Byte)) : State :=
  match s.message via with
  | none => s
  | some msg =>
    let k := (msg.getD 0 0#8).toNat
    if !knownCmd k then s.answer via msg 1 none
    else if k ≠ code then s
    else if msg.length < 4 + need then s.answer via msg 2 none
    else
      let r := f s msg
      -- a core that the command has trapped (R448) answers nothing
      if r.1.chip.fwServes then r.1.answer via msg r.2.1 r.2.2 else r.1

/-- A number among the arguments. -/
def argN (msg : List Byte) (o n : Nat) : Nat := ofLE ((msg.drop o).take n)

/-- The data of the INFO reply (R466); its field widths are the model's. -/
def State.infoData (s : State) : List Byte :=
  let c := s.chip
  leBytes 4 (c.rn CHIP.CHIP_ID) ++ leBytes 8 (c.rn KTL.UNIT_ID_LO + 2 ^ 32 * c.rn KTL.UNIT_ID_HI) ++ leBytes 4 (c.rn KTL.STAT) ++
  leBytes 4 (c.rn KTL.BOOT) ++ leBytes 4 (c.rn KTL.FW_VER) ++ leBytes 4 (c.rf KTL.FW_SVN 8 0) ++ leBytes 4 s.ktl.counter

/-- LOG_READ: entries from a SEQ on, each loaded from SRAM; missing entries read 0. -/
def State.logData (s : State) (seq : Word) : Nat → State × List Byte
  | 0 => (s, [])
  | n + 1 =>
    let b := match s.chip.logFind seq with
      | some e => e.bytes
      | none => List.replicate 16 0#8
    let t := s.sramLoad seq
    let r := if t.2 then t.1.logData (seq + 1#32) n else (t.1, [])
    (r.1, b ++ r.2)

/-- The source that a message stands for in an update: 0 for messages. -/
def viaSource (via : Via) : Nat := match via with | .stream n => n + 1 | _ => 0

/-- The slot may not be erased now (R467): the one running, or in Decaf the slot of ACTIVE while PENDING is none. -/
def State.slotBusy (s : State) (slot : Nat) : Bool :=
  let r := s.ktl.bootRec
  if s.chip.kstate = 3 then decide (r.pending = 0 ∧ slot = r.active) else decide (slot = s.chip.lastSlot)

/-- IMG_BEGIN (R467). -/
def State.imgBegin (s : State) (fail : Bool) (msg : List Byte) : State × Nat × Option (List Byte) :=
  let slot := argN msg 4 1
  let src := argN msg 5 1
  let total := argN msg 8 4
  let other := match s.ktl.upd with | some u => decide (u.source ≠ src) | none => false
  if 1 < slot ∨ 2 < src ∨ total < 512 ∨ 2097152 < total then (s, 2, none)
  else if other then (s, 3, none)
  else if s.slotBusy slot then (s, 7, none)
  else
    let r := s.ktl.bootRec
    let s := if r.pending = slot + 1 then s.putRec r.active 0 else s
    let k := s.ktl.eraseSlot slot
    let s := { s with ktl := { k with upd := some ⟨slot, src, total, 0⟩, accepted := k.accepted.filter (fun x => decide (x ≠ slot)) } }
    let s := s.log 0 7 1 slot
    if fail then ({ s with ktl := { s.ktl with upd := none } }, 6, none) else (s, 0, none)

/-- Image bytes enter the slot in order (R467). -/
def State.imgBytes (s : State) (u : Upd) (l : List Byte) : State :=
  { s with ktl := { (s.ktl.fput (slotAt u.slot + u.got) l) with upd := some { u with got := u.got + l.length } } }

/-- IMG_DATA (R467). -/
def State.imgData (s : State) (fail : Bool) (msg : List Byte) : State × Nat × Option (List Byte) :=
  match s.ktl.upd with
  | none => (s, 7, none)
  | some u =>
    let l := msg.drop 8
    if u.source ≠ 0 then (s, 3, none)
    else if 248 < l.length ∨ argN msg 4 4 ≠ u.got ∨ u.total < u.got + l.length then (s, 2, none)
    else if fail then (s, 6, none)
    else (s.imgBytes u l, 0, none)

/-- A word of the stream brings 8 bytes of the image, as many as are still wanted (R467). -/
def State.imgWord (s : State) (n : Nat) : State :=
  match s.ktl.upd with
  | none => s
  | some u =>
    if u.source = n + 1 ∧ u.got < u.total ∧ s.chip.fwServes ∧ s.chip.en (pgSf n) ∧ !s.chip.rb (SF.SF_CFG n) 0 then
      match s.chip.sfPop s.tb n with
      | some (w, _, c) => State.imgBytes { s with chip := c } u ((leBytes 8 w.toNat).take (u.total - u.got))
      | none => s
    else s

/-- IMG_END (R467). -/
def State.imgEnd (s : State) (fail : Bool) : State × Nat × Option (List Byte) :=
  match s.ktl.upd with
  | none => (s, 7, none)
  | some u =>
    let r := if u.got ≠ u.total then 2 else if fail then 6 else s.ktl.imgCheck u.slot
    let s := { s with ktl := { s.ktl with upd := none } }
    if r = 0 then
      let s := { s with ktl := { s.ktl with accepted := s.ktl.accepted ++ [u.slot] } }
      ((s.onChip (fun c => c.evt pgKtl 3)).log 0 7 2 u.slot, 0, none)
    else ((s.onChip (fun c => c.evt pgKtl 4)).log 2 7 3 r, r, none)

/-- SET_PENDING (R467); a boot record that the flash fails to take leaves the copy in force as it is (R451). -/
def State.setPending (s : State) (fail : Bool) (msg : List Byte) : State × Nat × Option (List Byte) :=
  let slot := argN msg 4 1
  if 1 < slot then (s, 2, none)
  else if !s.ktl.accepted.contains slot then (s, 7, none)
  else if fail then (s, 6, none)
  else (s.putRec s.ktl.bootRec.active (slot + 1), 0, none)

/-- KEY_PROG (R467). -/
def State.keyProg (s : State) (msg : List Byte) : State × Nat × Option (List Byte) :=
  if s.ktl.otp.keyHash1 ≠ 0 then (s, 7, none)
  else
    let h := ofBE ((msg.drop 4).take 32)
    ({ s with ktl := { s.ktl with otp := { s.ktl.otp with keyHash1 := h } }, chip := s.chip.setF KTL.OTP_STAT 2 2 (b2n (decide (h ≠ 0))) }, 0, none)

/-! ### Commands -/

/-- Writing GO on MB0 or MB1 (R427). -/
def execMbxGo (p : Port) (m len : Nat) (s : State) : Res :=
  .next (s.onChip (fun c => c.gated p (HOSTIF.MBX_IN m) (fun c => c.writeMbxIn m (oneBit 31 ||| BitVec.ofNat 32 (len % 512)))))

/-- Writing FULL on MB2 or MB3 (R427); `m` is 0 for MB2. -/
def execMbxFullClear (p : Port) (m : Nat) (s : State) : Res :=
  .next (s.gated p (HOSTIF.MBX_OUT m) (fun s => s.mbxFree m (oneBit 31)))

/-- INFO (Table 18.8). -/
def execInfo (via : Via) (s : State) : Res := .next (s.serve via 1 0 (fun s _ => (s, 0, some s.infoData)))

/-- LOG_READ (Table 18.8). -/
def execLogRead (via : Via) (s : State) : Res :=
  .next (s.serve via 2 5 (fun s msg =>
    let n := argN msg 8 1
    if 1 ≤ n ∧ n ≤ 15 then
      let r := s.logData (BitVec.ofNat 32 (argN msg 4 4)) n
      (r.1, 0, some (leBytes 4 n ++ r.2))
    else (s, 2, none)))

/-- IMG_BEGIN (R467); `fail` says that the flash fails. -/
def execImgBegin (via : Via) (fail : Bool) (s : State) : Res := .next (s.serve via 0x10 8 (fun s msg => s.imgBegin fail msg))

/-- IMG_DATA, or a word of the stream that brings image bytes (R467). -/
def execImgData (via : Via) (fail : Bool) (s : State) : Res :=
  .next (match via with
    | .stream n => s.imgWord n
    | _ => s.serve via 0x11 4 (fun s msg => s.imgData fail msg))

/-- IMG_END (R467). -/
def execImgEnd (via : Via) (fail : Bool) (s : State) : Res := .next (s.serve via 0x12 0 (fun s _ => s.imgEnd fail))

/-- SET_PENDING (R467); `fail` says that the flash fails. -/
def execSetPending (via : Via) (s : State) (fail : Bool := false) : Res := .next (s.serve via 0x13 1 (fun s msg => s.setPending fail msg))

/-- CLEAR_TRIES (R454). -/
def execClearTries (via : Via) (s : State) : Res :=
  .next (s.serve via 0x14 0 (fun s _ => (s.onChip (fun c => c.setF KTL.BOOT 1 0 0), 0, none)))

/-- RESET (R476): the message is answered, then the chip is reset. -/
def execResetCommand (via : Via) (s : State) : Res :=
  .next (match s.message via with
    | some msg =>
      let t := s.serve via 0x15 0 (fun s _ => (s, 0, none))
      if msg.getD 0 0#8 = 0x15#8 ∧ 4 ≤ msg.length then t.assertSrc 7 else t
    | none => s)

/-- KEY_PROG (R467). -/
def execKeyProg (via : Via) (s : State) : Res := .next (s.serve via 0x16 32 (fun s msg => s.keyProg msg))

/-- A conversion of sensor `k` (R461). -/
def execSensorConversion (k : Nat) (r : Int) (s : State) : Res := .next (s.onChip (fun c => c.convert s.tb k r))

/-- An entry is copied to the persistent log (R463); `fail` says that the flash fails. -/
def execLogPersist (fail : Bool) (s : State) : Res := .next (if s.chip.fwServes then s.persist fail else s)

/-- The stream pushes an entry (R464). -/
def execLogStreamPush (s : State) : Res := .next s.streamPush

/-- Writing FROM_OLDEST (R464), with EN as it is written. -/
def execFromOldest (p : Port) (en : Bool) (s : State) : Res :=
  .next (s.gated p LOG.STREAM (fun s => s.writeLogStream (BitVec.ofNat 32 (2 + b2n en))))

/-- A write of RD_SEQ (R465). -/
def execRdSeqWrite (p : Port) (v : Word) (s : State) : Res :=
  .next (s.gated p LOG.RD_SEQ (fun s => s.writeRdSeq v))

/-- A Kettle restart completes (R457): the ROM has reloaded the KFW section of the active slot, and messages in progress complete with
STATE. -/
def execKettleRestartDone (s : State) : Res :=
  .next (if s.chip.rst.kettleUp && decide (s.chip.kstate = 4) then
    let s := (s.loadKfw s.ktl.bootRec.active).onChip (fun c => each (below 2 (fun m => c.rb (HOSTIF.MBX_IN m) 30)) (fun m c => c.mbxDone m 7) (c.setKstate 2))
    { s with ktl := { s.ktl with waiting := [] } }
  else s)

end Sys2Proof.Machine
end

