-- ==== Sys2Proof/Machine/Dma.lean ====
section
/-!
DEFINITION. The PCIe port's DMA channels (R418 to R421), timed frames and frames of the management port (R84, R94 to R96), and the PTP
page (R97 to R99).
-/

namespace Sys2Proof.Machine

/-! ### Channels -/

/-- The longest memory write that the function accepts or sends, and the longest read request that it issues, in bytes (Table 16.1). -/
def maxPayload : Nat := 256
def maxReadRequest : Nat := 512

/-- EN of channel `k`. -/
def Chip.dmaEn (c : Chip) (k : Nat) : Bool := c.rb (HOSTIF.DMA_CFG k) 31

/-- Descriptors in the ring of channel `k`. -/
def Chip.ringSize (c : Chip) (k : Nat) : Nat := 2 ^ c.rf (HOSTIF.DMA_CFG k) 3 0

def Chip.setRun (c : Chip) (k : Nat) (r : Option DmaRun) : Chip := { c with dma := Tab.set (fun _ => none) c.dma k r }

/-- An occurrence of the ERR counter of channel `k` (R421, R428). -/
def Chip.dmaErr (c : Chip) (k : Nat) : Chip := (c.trouble (HOSTIF.ERR k)).evt pgHostif (8 + k)

/-- Address in host memory of the descriptor at HEAD (R418). -/
def Chip.descAt (c : Chip) (k : Nat) : Nat := c.pair (HOSTIF.RING_LO k) (HOSTIF.RING_HI k) + 16 * c.rf (HOSTIF.HEAD k) 11 0

/-- The descriptor in progress is written back, its STATUS byte last, and HEAD advances (R418, Table 16.3). -/
def Chip.writeBack (c : Chip) (k : Nat) (r : DmaRun) (status : Nat) (aux : Word) : Chip :=
  let head := c.rf (HOSTIF.HEAD k) 11 0
  let at' := c.descAt k
  let c := ((c.setRun k none).emit (.writeBack k (at' + 12) aux)).emit (.status k (at' + 11) status)
  let c := (c.setN (HOSTIF.HEAD k) ((head + 1) % c.ringSize k)).bump (HOSTIF.DESC_DONE k)
  let c := c.when (bit r.desc.ctl 16) (fun c => c.evt pgHostif k)
  c.when (decide (2 < status)) (fun c => c.dmaErr k)

/-- Bytes of a request of the function: device control chooses 128 times a power of two, up to the limits of Table 16.1 (log 81). -/
def Chip.payMax (c : Chip) : Nat := min maxPayload (128 * 2 ^ fld c.pcie.devctl 7 5)
def Chip.readMax (c : Chip) : Nat := min maxReadRequest (128 * 2 ^ fld c.pcie.devctl 14 12)

/-- Words go to host memory in requests of the payload allowed; the first argument bounds their number. -/
def Chip.hostPut (c : Chip) (k at' : Nat) : Nat → List DWord → Chip
  | 0, _ => c
  | n + 1, l =>
    if l.isEmpty then c
    else
      let m := c.payMax / 8
      (c.emit (.hostWrite k at' (l.take m))).hostPut k (at' + 8 * m) n (l.drop m)

/-- `len` bytes are asked of host memory in requests of the size allowed; the first argument bounds their number. -/
def Chip.hostAsk (c : Chip) (k at' : Nat) : Nat → Nat → Chip
  | 0, _ => c
  | n + 1, len =>
    if len = 0 then c
    else (c.emit (.hostRead k at' (min len c.readMax))).hostAsk k (at' + c.readMax) n (len - c.readMax)

/-- An error completion or a poisoned one shows in the error status registers of the function, in bits that the manual does not name:
they are a free value (Table 16.1). -/
def Chip.pcieErr (c : Chip) : Chip :=
  { c with free := c.free + 1, pcie := { c.pcie with aerUnc := c.pcie.aerUnc ||| Config.freeWord c.free } }

/-- A write-back with the words moved; an MG_TX descriptor whose frame was not sent keeps its LAUNCH_AT. -/
def Chip.wordsBack (c : Chip) (k : Nat) (r : DmaRun) (status : Nat) : Chip :=
  c.writeBack k r status (if k = 4 then r.desc.aux else BitVec.ofNat 32 r.moved)

/-- Push words into an inbound FIFO (R419). -/
def Chip.dmaPush (c : Chip) (n : Nat) : List DWord → Chip
  | [] => c
  | w :: l => (c.sfPush n w).dmaPush n l

/-- Pop up to `k` words from an outbound FIFO (R419): the words, and whether an uncorrectable one was met. -/
def Chip.dmaPop (c : Chip) (tb : TimeBase) (n : Nat) : Nat → Chip × List DWord × Bool
  | 0 => (c, [], false)
  | k + 1 =>
    match c.sfPop tb n with
    | none => (c, [], false)
    | some (w, ue, d) =>
      if ue then (d, [], true)
      else
        let r := d.dmaPop tb n k
        (r.1, w :: r.2.1, r.2.2)

/-- Words that the descriptor still wants. -/
def DmaRun.left (r : DmaRun) : Nat := fld r.desc.ctl 15 0 - r.moved

/-- An inbound channel moves the words that host memory has given and CREDIT admits. -/
def Chip.dmaIn (c : Chip) (k : Nat) (r : DmaRun) (words : List DWord) (err : Bool) : Chip :=
  if err then ((c.hostAsk k (r.desc.addr + 8 * r.moved) 1 (8 * r.left)).pcieErr).wordsBack k r 4
  else
    let n := if c.en (pgSf k) then min (min words.length r.left) (c.sfDepth k - c.sfFill k) else 0
    let c := c.hostAsk k (r.desc.addr + 8 * r.moved) n (8 * n)
    let r := { r with moved := r.moved + n }
    let c := c.dmaPush k (words.take n)
    if r.left = 0 then c.wordsBack k r 1 else c.setRun k (some r)

/-- An outbound channel moves the words that the FIFO holds. -/
def Chip.dmaOut (c : Chip) (tb : TimeBase) (k : Nat) (r : DmaRun) (err : Bool) : Chip :=
  if err then c.pcieErr.wordsBack k r 4
  else
    let p := c.dmaPop tb k r.left
    let n := p.2.1.length
    let c := p.1.when (decide (0 < n)) (fun c => c.hostPut k (r.desc.addr + 8 * r.moved) n p.2.1)
    let r := { r with moved := r.moved + n }
    if p.2.2 then c.wordsBack k r 5
    else if r.left = 0 then c.wordsBack k r 1
    else c.setRun k (some { r with empty := if 0 < n then some (tb.up, c.reg (SF.WORDS k)) else r.empty })

/-! ### The management port -/

/-- A timed frame is dropped as late (R95, R420). -/
def Chip.mgLate (c : Chip) (r : DmaRun) : Chip := (c.trouble HOSTIF.MG_LAUNCH_LATE).writeBack 4 r 3 r.desc.aux

/-- MG_TX takes a descriptor whose frame host memory has given (R420).  A link that the bank's supply does not admit is no link (R487). -/
def Chip.mgTake (c : Chip) (tb : TimeBase) (r : DmaRun) (frame : List Byte) (err : Bool) (speed : Nat) : Chip :=
  let n := fld r.desc.ctl 10 0
  let c := c.hostAsk 4 r.desc.addr (if err then 1 else n) n
  if err then c.pcieErr.writeBack 4 r 4 r.desc.aux
  else if !c.mgSpeedOk speed then c.writeBack 4 r 7 r.desc.aux
  else
    let f := padTo n frame
    if bit r.desc.ctl 17 then
      let d := (r.desc.aux - tb.fast).toNat
      if d < 2000 ∨ 2 ^ 31 ≤ d then c.mgLate r else c.setRun 4 (some { r with frame := some (f, speed) })
    else if c.mgFree tb then (c.mgSend tb f speed).writeBack 4 r 1 (c.mgStamp tb)
    else c.setRun 4 (some { r with frame := some (f, speed) })

/-- The timed frame launches in its window once the port is free, or is dropped after it (R94, R95); an untimed one leaves as soon as the
port is free. -/
def Chip.mgLaunch (c : Chip) (tb : TimeBase) : Chip :=
  match c.dmaRun 4 with
  | some r =>
    match r.frame with
    | some (f, speed) =>
      let d := (tb.fast - r.desc.aux).toNat
      let send := if c.mgFree tb then (c.mgSend tb f speed).writeBack 4 r 1 (c.mgStamp tb) else c
      if !bit r.desc.ctl 17 || decide (d < mgWindow speed) then send
      else if d < 2 ^ 31 then c.mgLate r
      else c
    | none => c
  | none => c

/-! ### Descriptors and registers -/

/-- A field of the descriptor lies outside its range (Table 16.3). -/
def descBad (k : Nat) (d : Desc) : Bool :=
  if k = 4 then decide (fld d.ctl 10 0 < 60 ∨ 1514 < fld d.ctl 10 0 ∨ fld d.ctl 23 18 ≠ 0)
  else decide (fld d.ctl 15 0 = 0 ∨ d.addr % 8 ≠ 0 ∨ fld d.ctl 23 17 ≠ 0)

/-- Channel `k` goes on with a descriptor: the one in progress, or a new one. -/
def Chip.dmaStep (c : Chip) (tb : TimeBase) (k : Nat) (d : Desc) (words : List DWord) (frame : List Byte) (err : Bool)
    (speed : Nat) : Chip :=
  let r := (c.dmaRun k).getD ⟨d, 0, none, none⟩
  let new := (c.dmaRun k).isNone
  let c := c.when new (fun c => c.emit (.hostRead k (c.descAt k) 16))
  if new && descBad k d then c.wordsBack k r 6
  else if k = 4 then (if r.frame.isSome then c else c.mgTake tb r frame err speed)
  else if k < 2 then c.dmaIn k r words err
  else c.dmaOut tb k r err

/-- Channel `k` may process a descriptor: it is enabled, the link serves it, and descriptors are given (R412, R418). -/
def Chip.dmaReady (c : Chip) (k : Nat) : Bool :=
  c.live && c.domOn 1 && decide (k < 5) && c.dmaEn k && c.rb HOSTIF.LINK 0 && !c.pcie.d3hot &&
  decide (c.rf (HOSTIF.HEAD k) 11 0 ≠ c.rf (HOSTIF.TAIL k) 11 0)

/-- The channel stops and writes its descriptor back with ABORT (R421). -/
def Chip.dmaAbort (c : Chip) (k : Nat) : Chip :=
  match c.dmaRun k with
  | some r => c.wordsBack k r 8
  | none => c

/-- A write of DMAc_CFG (R421): its fields are judged under the EN it leaves. -/
def Chip.writeDmaCfg (c : Chip) (k : Nat) (v : Word) : Chip :=
  let a := HOSTIF.DMA_CFG k
  let store := fun c : Chip => ((c.setF a 31 31 (fld v 31 31)).setF a 19 4 (fld v 19 4)).setF a 3 0 (fld v 3 0)
  if !bit v 31 then store (c.when (c.dmaEn k) (fun c => c.dmaAbort k))
  else if c.dmaEn k then (if fld v 3 0 ≠ c.rf a 3 0 then c.dmaErr k else c.setF a 19 4 (fld v 19 4))
  else if 4 ≤ fld v 3 0 ∧ fld v 3 0 ≤ 12 ∧ c.rf (HOSTIF.RING_LO k) 5 0 = 0 then store c
  else c.dmaErr k

/-- A write of the ring base (R421). -/
def Chip.writeRing (c : Chip) (k : Nat) (lo hi : Word) : Chip :=
  if c.dmaEn k then c.dmaErr k else (c.setReg (HOSTIF.RING_LO k) lo).setReg (HOSTIF.RING_HI k) hi

/-- A write of TAIL (R421). -/
def Chip.writeTail (c : Chip) (k : Nat) (v : Word) : Chip :=
  if c.ringSize k ≤ fld v 11 0 then c.dmaErr k else c.setN (HOSTIF.TAIL k) (fld v 11 0)

/-- SHORT is due on channel `k` (R419). -/
def Chip.shortDue (c : Chip) (tb : TimeBase) (k : Nat) (r : DmaRun) : Bool :=
  let idle := c.rf (HOSTIF.DMA_CFG k) 19 4
  decide (idle ≠ 0 ∧ 0 < r.moved ∧ c.sfFill k = 0) &&
  (match r.empty with
   | some (t, w) => decide (t + 1000 * idle ≤ tb.up ∧ w = c.reg (SF.WORDS k))
   | none => false)

/-! ### PTP (R97 to R99) -/

/-- A discarded write of the PTP page is counted (R99). -/
def Chip.ptpRef (c : Chip) : Chip := c.errCount pgPtp

/-- A write of PTP_CTRL (R99). -/
def Chip.writePtpCtrl (c : Chip) (v : Word) : Chip :=
  let a := PTP.PTP_CTRL
  let on := c.rb a 31
  let same := decide (fld v 9 8 = c.rf a 9 8 ∧ fld v 4 4 = c.rf a 4 4 ∧ fld v 0 0 = c.rf a 0 0)
  if fld v 9 8 = 3 ∨ (on ∧ !same) then c.ptpRef
  else
    let c := (((c.setF a 31 31 (fld v 31 31)).setF a 9 8 (fld v 9 8)).setF a 4 4 (fld v 4 4)).setF a 0 0 (fld v 0 0)
    if bit v 31 then c else c.setN PTP.PTP_STAT 2

/-- A write of DOMAIN, PRIO, SYNC_LOG or ANN_LOG (R99). -/
def Chip.writePtpField (c : Chip) (a : Nat) (v : Word) : Chip :=
  let n := signedN 8 (fld v 7 0)
  let ok := if a = PTP.SYNC_LOG then decide (-4 ≤ n ∧ n ≤ 1) else if a = PTP.ANN_LOG then decide (0 ≤ n ∧ n ≤ 3) else true
  if c.rb PTP.PTP_CTRL 31 || !ok then c.ptpRef
  else c.setReg a (v &&& maskOf (fldsOf a) (fun k => decide (k = .rw)))

/-- What the PTP engine reports after a message: port state, offset and delay. -/
def Chip.ptpReport (c : Chip) (st : Nat) (ofs : Int) (delay : Nat) : Chip :=
  ((c.setN PTP.PTP_STAT (st % 16)).setI PTP.OFFSET (satI 32 ofs)).setN PTP.MEAN_DELAY (satN 32 delay)

/-- The PTP message of a frame, by the transport: after EtherType 0x88F7, or in a datagram to port 319 or 320 (Table 3.6). -/
def ptpMessage (udp : Bool) (f : List Byte) : Option (List Byte) :=
  if udp then
    match udpPayload 319 f with
    | some m => some m
    | none => udpPayload 320 f
  else if ofBE ((f.drop 12).take 2) = 0x88F7 then some (f.drop 14)
  else none

/-- The length of a message of each type without a TLV behind its body (log 79). -/
def ptpLength (ty : Nat) : Nat :=
  match ty with
  | 2 | 3 | 9 | 0xA => 54
  | 0xB => 64
  | _ => 44

/-- A frame is addressed to a group: at its MAC, and in a datagram at its IP address (Table 3.6). -/
def ptpMulticast (udp : Bool) (f : List Byte) : Bool :=
  (f.getD 0 0#8).getLsbD 0 && (!udp || decide ((f.getD 30 0#8).toNat / 16 = 14))

/-- What a message that the chip sends keeps to (Tables 3.6, 3.7): a group address, no TLV, two steps, the intervals of the page, and in an
Announce the UTC offset and the priorities of the page. -/
def Chip.ptpSent (c : Chip) (f m : List Byte) : Bool :=
  let at' := fun i => (m.getD i 0#8).toNat
  let ty := at' 0 % 16
  let interval := signedN 8 (at' 33)
  ptpMulticast (c.rb PTP.PTP_CTRL 0) f && decide (ofBE ((m.drop 2).take 2) = ptpLength ty) &&
  (match ty with
    | 0 => (at' 6).testBit 1 && decide (interval = signedN 8 (c.rf PTP.SYNC_LOG 7 0))
    | 0xB => decide (interval = signedN 8 (c.rf PTP.ANN_LOG 7 0) ∧ ofBE ((m.drop 44).take 2) = c.rf PTP.UTC_OFS 15 0 ∧
        at' 47 = c.rf PTP.PRIO 15 8 ∧ at' 52 = c.rf PTP.PRIO 7 0)
    | _ => true)

/-- A frame holds a PTP message of the options of Table 3.6 under the PTP page: transport, domain, delay mechanism, role, message intervals,
and what a sent one keeps to; no signalling and no management message.  Where the fields lie is IEEE 1588-2019's (PRESUMED, log 79). -/
def Chip.ptpOk (c : Chip) (sent : Bool) (f : List Byte) : Bool :=
  match ptpMessage (c.rb PTP.PTP_CTRL 0) f with
  | none => false
  | some m =>
    let at' := fun i => (m.getD i 0#8).toNat
    let ty := at' 0 % 16
    let interval := signedN 8 (at' 33)
    let master := decide (ty = 0 ∨ ty = 8 ∨ ty = 9 ∨ ty = 0xB)
    let role := c.rf PTP.PTP_CTRL 9 8
    decide (34 ≤ m.length ∧ at' 1 % 16 = 2 ∧ at' 4 = c.rf PTP.DOMAIN 6 0) &&
    (match ty with
      | 1 | 9 => !c.rb PTP.PTP_CTRL 4
      | 2 | 3 | 0xA => c.rb PTP.PTP_CTRL 4
      | 0 => decide (-4 ≤ interval ∧ interval ≤ 1)
      | 0xB => decide (0 ≤ interval ∧ interval ≤ 3)
      | 8 => true
      | _ => false) &&
    (if sent then c.ptpSent f m && !(master && decide (role = 2)) && !(decide (ty = 1) && decide (role = 1)) else true)

/-- The servo acts on a reported offset (R98): it steps the time by SET while the tick is stopped and the offset exceeds 1 µs; otherwise it
slews and corrects the rate, by amounts that are not stated: they are free values (log 80). -/
def State.servo (s : State) (ofs : Int) : State :=
  let t := (((s.tb.sec.toNat * 1000000000 + s.tb.ns : Nat) : Int) - ofs).toNat
  if !s.chip.tg.running && decide (1000 < ofs.natAbs) then
    (s.onChip (fun c => (c.setN TIME.SET_NS (t % 1000000000)).setPair TIME.SET_SEC_LO TIME.SET_SEC_HI (t / 1000000000 % 2 ^ 48))).timeSet .kettle false
  else
    let k := s.chip.free
    let rate : Int := (Config.freeWord (k + 1)).toNat % 8589935 - 4294967
    ((s.onChip (fun c => { c with free := k + 2 })).writeSlew .kettle (Config.freeWord k)).writeAddend .kettle (wOf rate)

/-- A report of the PTP engine takes effect; the servo acts while the port is a slave. -/
def State.ptpTake (s : State) (st : Nat) (ofs : Int) (delay : Nat) : State :=
  let s := s.onChip (fun c => c.ptpReport st ofs delay)
  if s.chip.servoOn && decide (st % 16 = 7 ∨ st % 16 = 8) then s.servo ofs else s

/-- A frame arrives on the management port (R84, R420, R467). -/
def State.mgReceive (s : State) (bytes : List Byte) (stamp : Word) (report : Option (Nat × Int × Nat)) : State :=
  if !(s.chip.live && s.chip.domOn 1) then s
  else
    let st := stamp + BitVec.ofNat 32 (s.chip.rf PTP.RX_LAT 15 0)
    let cmd := s.chip.fwRuns && (udpPayload (s.chip.rf KTL.CFG 31 16) bytes).isSome
    let s := { s with ktl := { s.ktl with
      mgLast := some (bytes, st), inbox := if cmd then s.ktl.inbox ++ [bytes] else s.ktl.inbox } }
    match report with
    | some (p, o, d) =>
      if s.chip.fwRuns && s.chip.domOn 2 && s.chip.rb PTP.PTP_CTRL 31 && s.chip.ptpOk false bytes then s.ptpTake p o d else s
    | none => s

/-! ### Commands -/

/-- Writing EN = 1 (R421). -/
def execDmaEnable (p : Port) (k : Nat) (v : Word) (s : State) : Res :=
  .next (s.onChip (fun c => c.gated p (HOSTIF.DMA_CFG k) (fun c => c.writeDmaCfg k (v ||| oneBit 31))))

/-- Writing EN = 0 (R421). -/
def execDmaDisable (p : Port) (k : Nat) (v : Word) (s : State) : Res :=
  .next (s.onChip (fun c => c.gated p (HOSTIF.DMA_CFG k) (fun c => c.writeDmaCfg k (v &&& ~~~(oneBit 31)))))

/-- A write of TAIL (R418, R421). -/
def execTailWrite (p : Port) (k : Nat) (v : Word) (s : State) : Res :=
  .next (s.onChip (fun c => c.gated p (HOSTIF.TAIL k) (fun c => c.writeTail k v)))

/-- A channel processes a descriptor (R418 to R420): what the descriptor holds, the words or the frame that host memory
gives, a PCIe error met, and the speed of the management link. -/
def execDmaDescriptor (k : Nat) (d : Desc) (words : List DWord) (frame : List Byte) (err : Bool) (speed : Nat) (s : State) : Res :=
  .next (s.onChip (fun c => c.when (c.dmaReady k) (fun c => c.dmaStep s.tb k d words frame err speed)))

/-- An outbound descriptor completes early (R419). -/
def execShort (k : Nat) (s : State) : Res :=
  .next (s.onChip (fun c => match c.dmaRun k with
    | some r => c.when (c.dmaReady k && decide (k = 2 ∨ k = 3) && c.shortDue s.tb k r) (fun c => c.wordsBack k r 2)
    | none => c))

/-- A timed frame launches (R94), or what the port held back for it (R96). -/
def execTimedFrameLaunch (s : State) : Res :=
  .next (s.onChip (fun c => c.when (c.dmaReady 4) (fun c => c.mgLaunch s.tb))).mgFlush

/-- A frame arrives on the management port, with its stamp at the balls and what the PTP engine makes of it (R84). -/
def execMgFrameReceive (bytes : List Byte) (stamp : Word) (report : Option (Nat × Int × Nat)) (s : State) : Res :=
  .next (s.mgReceive bytes stamp report)

/-- A write of PTP_CTRL (R99). -/
def execPtpCtrlWrite (p : Port) (v : Word) (s : State) : Res :=
  .next (s.onChip (fun c => c.gated p PTP.PTP_CTRL (fun c => c.writePtpCtrl v)))

/-- The PTP engine sends a message (R97), at a speed of the link, once the port may start it (R96). -/
def execPtpMessageSend (bytes : List Byte) (speed : Nat) (report : Option (Nat × Int × Nat)) (s : State) : Res :=
  .next (if s.chip.fwRuns && s.chip.domOn 2 && s.chip.rb PTP.PTP_CTRL 31 && s.chip.ptpOk true bytes && s.chip.mgSpeedOk speed &&
      s.chip.mgFits s.tb bytes.length speed then
    let s := s.onChip (fun c => c.mgSend s.tb bytes speed)
    match report with
    | some (a, o, d) => s.ptpTake a o d
    | none => s
  else s)

end Sys2Proof.Machine
end

