-- ==== Sys2Proof/Machine/Irq.lean ====
section
/-!
DEFINITION. Interrupt sources, vectors and pins (R430 to R437), and the control of the performance counters (R442).
-/

namespace Sys2Proof.Machine

/-! ### Sources (Table 17.1) -/

/-- Requesting bits of the page at base `b`: PG_EVT_RAW AND PG_EVT_EN (R58). -/
def Chip.evtReq (c : Chip) (b : Nat) : Nat := (c.reg (pgEvtRaw b) &&& c.reg (pgEvtEn b)).toNat

/-- Some requesting bit of a page stands in a mask. -/
def Chip.evtIn (c : Chip) (b m : Nat) : Bool := decide (Nat.land (c.evtReq b) m ≠ 0)

/-- Any requesting bit of a page. -/
def Chip.evtAny (c : Chip) (b : Nat) : Bool := decide (c.evtReq b ≠ 0)

/-- The axes whose map in force names segment `g`, as far as their pages can request. -/
def Chip.axesOf (c : Chip) (g : Nat) : Bool :=
  (List.range 256).any (fun a => c.evtAny (pgAxis a) && decide (c.rf (AXIS.MAP a) 27 24 = g))

/-- An assigned page bit of source `n` is 1 with its enable (R430, Table 17.1). -/
def Chip.assigned (c : Chip) (n : Nat) : Bool :=
  if n < 8 then c.evtIn pgTick (2 ^ n)
  else if n < 24 then c.evtAny (pgSeg (n - 8)) || c.axesOf (n - 8)
  else if n < 28 then (List.range 8).any (fun i => c.evtAny (pgLp (8 * (n - 24) + i)))
  else if n = 28 then c.evtIn pgStby (0xE0000000 + 0x101)
  else if n = 29 then c.evtIn pgStby 0x20E
  else if n = 30 then c.evtIn pgStby 0x50
  else if n = 31 then c.evtIn pgStby 0xA0
  else if n < 48 then c.evtAny (pgCu (n - 32))
  else if n < 52 then c.evtAny (pgSf (n - 48)) || c.evtIn pgHostif (2 ^ (n - 48) + 2 ^ (n - 40))
  else if n < 58 then c.evtAny (pgEp (n - 52))
  else if n = 58 then decide (c.reg EVX.LEVT_LO &&& c.reg EVX.LEN_LO ≠ 0#32) || c.evtAny pgEvx
  else if n = 59 then decide (c.reg EVX.LEVT_HI &&& c.reg EVX.LEN_HI ≠ 0#32)
  else if n < 76 then c.evtAny (pgLf (n - 60))
  else if n < 84 then c.evtAny (pgPot (n - 76)) || (List.range 8).any (fun i => c.evtAny (pgLeaf (8 * (n - 76) + i)))
  else if n = 84 then c.evtAny pgTray
  else if n = 85 then c.evtAny pgChip || c.evtIn pgTick 0xFFFFFF00 || c.evtAny pgTime || c.evtAny pgPtp
  else if n = 86 then (List.range 32).any (fun g => c.evtAny (pgSeq g))
  else if n = 87 then c.evtIn pgHostif (0xE0000000 + 0x701010) || c.evtAny pgIrq
  else if n < 92 then c.evtIn pgHostif (2 ^ (n - 72))
  else if n = 92 then c.evtAny pgSens
  else if n = 93 then c.evtAny pgPwr
  else if n = 94 then c.evtAny pgClk || c.evtAny pgRst
  else if n = 95 then c.evtAny pgKtl || c.evtAny pgLog
  else false

/-- Source `n` is requested (R430); in Decaf only some can be (R433). -/
def Chip.requested (c : Chip) (n : Nat) : Bool :=
  (decide (c.kstate ≠ 3) || decide ((48 ≤ n ∧ n ≤ 51) ∨ (87 ≤ n ∧ n ≤ 95))) && c.assigned n

/-- Source `n` is pending (R434). -/
def Chip.pending (c : Chip) (n : Nat) : Bool := c.rb (IRQ.EN (n / 32)) (n % 32) && c.requested n

/-- The request of vector `v` (R434). -/
def Chip.vecReq (c : Chip) (v : Nat) : Bool :=
  (List.range 96).any (fun n => c.rb (IRQ.MAP n) 15 && decide (c.rf (IRQ.MAP n) 4 0 = v) && c.pending n)

/-- INTkn is driven low (R436). -/
def Chip.intPin (c : Chip) (k : Nat) : Bool :=
  c.domOn 1 && c.live &&
  (List.range 96).any (fun n => c.rb (IRQ.MAP n) 31 && decide (c.rf (IRQ.MAP n) 25 24 = k) && c.pending n)

/-- 32 truth values as a word. -/
def wordBits (f : Nat → Bool) : Word := BitVec.ofNat 32 ((List.range 32).foldl (fun n i => n + 2 ^ i * b2n (f i)) 0)

/-! ### Messages (R435) -/

/-- Sending is allowed by the link and the function. -/
def Chip.msixOn (c : Chip) : Bool := c.rb HOSTIF.LINK 0 && c.pcie.msixEn && !c.pcie.d3hot

/-- Vector `v` is masked by itself or by the function. -/
def Chip.vecMasked (c : Chip) (v : Nat) : Bool := c.pcie.funcMask || c.rb (HOSTIF.MSIX_TABLE (4 * v + 3)) 0

/-- A vector with a request sends its message, or marks it pending while it is masked (R435). -/
def Chip.msixSend (c : Chip) (tb : TimeBase) (v : Nat) : Chip :=
  if !c.live || decide (32 ≤ v) || !c.vecReq v || c.rb IRQ.INSERV v || !c.msixOn then c
  else if c.vecMasked v then c.setF HOSTIF.PBA0 v v 1
  else
    let c := ((c.setF HOSTIF.PBA0 v v 0).setF IRQ.INSERV v v 1).bump IRQ.MSGS
    (c.emit (.msix v (c.pair (HOSTIF.MSIX_TABLE (4 * v)) (HOSTIF.MSIX_TABLE (4 * v + 1))) (c.reg (HOSTIF.MSIX_TABLE (4 * v + 2))))).perf 0x96 1

/-- End of service of vectors (R435). -/
def Chip.eoi (c : Chip) (v : Word) : Chip := c.setReg IRQ.INSERV (c.reg IRQ.INSERV &&& ~~~v)

/-- The pending bits of vectors that are not masked clear (R435). -/
def Chip.unmask (c : Chip) : Chip :=
  c.setReg HOSTIF.PBA0 (c.reg HOSTIF.PBA0 &&& wordBits (fun v => c.vecMasked v))

/-- A write to the MSI-X table. -/
def Chip.writeMsix (c : Chip) (a : Nat) (v : Word) : Chip := (c.setReg a v).unmask

/-- The links of Table 16.1, by speed (1 for 2.5, 2 for 5.0, 3 for 8.0 GT/s) and lanes. -/
def linkWidths : List (Nat × Nat) := [(1, 1), (1, 2), (2, 1), (2, 2), (3, 1), (3, 2)]

/-- The PCIe link comes up (R428, R435): it needs its supply and its PLL, and it is one of Table 16.1. -/
def Chip.pcieUp (c : Chip) (speed width : Nat) : Chip :=
  if !c.live || !c.domOn 1 || c.rst.lost.contains 0 || c.rst.unlocked.contains 2 || !linkWidths.contains (speed, width) then c
  else
    let was := c.rb HOSTIF.LINK 0
    (c.setN HOSTIF.LINK (2 ^ 28 * (speed % 16) + 2 ^ 24 * (width % 16) + 1)).when (!was) (fun c => c.evt pgHostif 21)

/-- A register of which the bits of `m` are given and the others are free. -/
def cfgPart (free m v : Word) : Option Word := some ((free &&& ~~~m) ||| (v &&& m))

/-- The configuration space as far as Table 16.1 gives it: the identity; one function; BAR0, 32 MiB of 32-bit memory that is not
prefetchable, and neither BAR1 to BAR5 nor an expansion ROM; no interrupt pin; D0 and D3hot; MSI-X with 32 vectors, whose table and PBA
lie in the HOSTIF page; the payload size, no function-level reset, the links, no ASPM; error reporting.  `none` is a register of PCI
Express's own, whose value the manual does not give (the places of the registers are PCI Express's, log 81). -/
def Chip.cfgSpace (c : Chip) (free : Word) : Nat → Option Word
  | 0x00 => some (BitVec.ofNat 32 (2 ^ 16 * c.rf CHIP.CHIP_ID 31 16 + 0x1E73))
  | 0x04 => cfgPart free 0x0010FFFF#32 (0x00100000#32 ||| c.pcie.command)
  | 0x08 => some (BitVec.ofNat 32 (0x08800000 + c.rf CHIP.CHIP_ID 7 0))
  | 0x0C => some (free &&& 0xFF00FFFF#32)
  | 0x10 => some c.pcie.bar0
  | 0x14 => some 0#32
  | 0x18 => some 0#32
  | 0x1C => some 0#32
  | 0x20 => some 0#32
  | 0x24 => some 0#32
  | 0x30 => some 0#32
  | 0x34 => cfgPart free 0x000000FF#32 0x40#32
  | 0x3C => some (free &&& 0x000000FF#32)
  | 0x40 => cfgPart free 0x0600FFFF#32 0x5001#32
  | 0x44 => cfgPart free 0x00000003#32 (if c.pcie.d3hot then 3#32 else 0#32)
  | 0x50 => some (BitVec.ofNat 32 (0x001F7011 + 2 ^ 30 * b2n c.pcie.funcMask + 2 ^ 31 * b2n c.pcie.msixEn))
  | 0x54 => some 0x8800#32
  | 0x58 => some 0x8A00#32
  | 0x70 => cfgPart free 0x00FFFFFF#32 0x00020010#32
  | 0x74 => cfgPart free 0x10000007#32 1#32
  | 0x78 => cfgPart free 0x0000FFFF#32 c.pcie.devctl
  | 0x7C => cfgPart free 0x00000FFF#32 0x23#32
  | 0x80 => cfgPart free 0x03FF0000#32 (BitVec.ofNat 32 (2 ^ 16 * c.rf HOSTIF.LINK 31 28 + 2 ^ 20 * c.rf HOSTIF.LINK 27 24))
  | 0x100 => some 0x00020001#32
  | 0x104 => some c.pcie.aerUnc
  | 0x110 => some c.pcie.aerCor
  | _ => none

/-- A write of a configuration register that no form of its own names: device control, and the error status registers, whose bits clear
where 1 is written; no other one has an effect that the manual gives. -/
def Pcie.other (p : Pcie) (r : Nat) (v : Word) : Pcie :=
  match r with
  | 0x78 => { p with devctl := v &&& 0x0000FFFF#32 }
  | 0x104 => { p with aerUnc := p.aerUnc &&& ~~~v }
  | 0x110 => { p with aerCor := p.aerCor &&& ~~~v }
  | _ => p

/-- A configuration request is completed (R410): a read, the MSI-X control, the power state, the command register's memory-space
and bus-master bits, and the base of BAR0. -/
def Chip.config (c : Chip) (r : CfgReq) : Chip :=
  if !c.live || !c.rb HOSTIF.LINK 0 then c
  else match r with
    | .read r => Chip.emit { c with free := c.free + 1 } (.completion [(c.cfgSpace (Config.freeWord c.free) r).getD (Config.freeWord c.free)])
    | .msix en mask => Chip.unmask { c with pcie := { c.pcie with msixEn := en, funcMask := mask } }
    | .power d3 => { c with pcie := { c.pcie with d3hot := d3 } }
    | .command v => { c with pcie := { c.pcie with command := v &&& 6#32 } }
    | .bar0 v => { c with pcie := { c.pcie with bar0 := v &&& 0xFE000000#32 } }
    | .other r v => { c with pcie := c.pcie.other r v }

/-! ### Performance counters (R442) -/

/-- The counters of Leaf `n` clear. -/
def Chip.leafPerfClr (c : Chip) (n : Nat) : Chip :=
  each (List.range 4) (fun k c => c.setPair (LEAF.PCNT_LO n k) (LEAF.PCNT_HI n k) 0) c

/-- Every chip and Leaf counter clears. -/
def Chip.perfClr (c : Chip) : Chip :=
  each (List.range 64) (fun n c => c.leafPerfClr n)
    (each (List.range 16) (fun k c => c.setPair (CHIP.CCNT_LO k) (CHIP.CCNT_HI k) 0) c)

/-- A write of LEAF.PCTL. -/
def Chip.writeLeafPctl (c : Chip) (n : Nat) (v : Word) : Chip :=
  (c.when (bit v 1) (fun c => c.leafPerfClr n)).setF (LEAF.PCTL n) 0 0 (fld v 0 0)

/-- A write of CHIP.PCTL. -/
def Chip.writeChipPctl (c : Chip) (v : Word) : Chip :=
  (c.when (bit v 1) Chip.perfClr).setF CHIP.PCTL 0 0 (fld v 0 0)

/-! ### Commands -/

/-- Writing EOI (R435). -/
def execEoi (p : Port) (v : Word) (s : State) : Res := .next (s.onChip (fun c => c.gated p IRQ.EOI (fun c => c.eoi v)))

/-- A vector sends its message (R435). -/
def execMsixMessage (v : Nat) (s : State) : Res := .next (s.onChip (fun c => c.msixSend s.tb v))

/-- Writing LEAF.PCTL.CLR (R442), with FREEZE as it is written. -/
def execLeafPctlClr (p : Port) (n : Nat) (freeze : Bool) (s : State) : Res :=
  .next (s.onChip (fun c => c.gated p (LEAF.PCTL n) (fun c => c.writeLeafPctl n (2#32 ||| b2w freeze))))

/-- Writing CHIP.PCTL.CLR (R442), with FREEZE as it is written. -/
def execChipPctlClr (p : Port) (freeze : Bool) (s : State) : Res :=
  .next (s.onChip (fun c => c.gated p CHIP.PCTL (fun c => c.writeChipPctl (2#32 ||| b2w freeze))))

/-- A write of FREEZE of a Leaf, or of the chip (R442). -/
def execFreeze (p : Port) (leaf : Option Nat) (freeze : Bool) (s : State) : Res :=
  .next (s.onChip (fun c => match leaf with
    | some n => c.gated p (LEAF.PCTL n) (fun c => c.writeLeafPctl n (b2w freeze))
    | none => c.gated p CHIP.PCTL (fun c => c.writeChipPctl (b2w freeze))))

/-- The PCIe data link comes up (R435). -/
def execPcieLinkUp (speed width : Nat) (s : State) : Res := .next (s.onChip (fun c => c.pcieUp speed width))

/-- A configuration request (R410). -/
def execPcieConfigRequest (r : CfgReq) (s : State) : Res := .next (s.onChip (fun c => c.config r))

end Sys2Proof.Machine
end

