-- ==== Sys2Proof/Machine/Bus.lean ====
section
/-!
DEFINITION. Register accesses: what a read returns and does, what a write does, and how an address is judged (R47 to R54,
R59, R128, R371, R387, R411, R422, R423, R427, R444), for the host ports, the Kettle and the COMMIT sinks.
-/

namespace Sys2Proof.Machine

/-! ### What a register shows -/

/-- Place a field. -/
def atBit (lo v : Nat) : Nat := v * 2 ^ lo

/-- Block-specific bits of PG_STAT, [31:16], at their places. -/
def Chip.statBlock (c : Chip) (type n : Nat) : Nat :=
  match type with
  | 0x0B =>
    let t := c.stby
    atBit 28 t.sstate + atBit 24 t.peerSstate + atBit 23 (b2n t.paired) + atBit 22 (b2n t.sl0) + atBit 21 (b2n t.sl1) +
      atBit 20 (b2n t.pos2) + atBit 16 t.refuse
  | 0x10 =>
    atBit 30 (c.pot n).state + atBit 24 (c.pot n).qcause +
      atBit 16 (below 8 (fun i => decide ((c.leaf (8 * n + i)).state = 2))).length
  | 0x11 =>
    let l := c.leaf n
    atBit 29 l.state + atBit 28 (b2n l.bankB) + atBit 27 (b2n l.cup.isSome) + atBit 26 (b2n (l.slow.isSome && !l.bankB)) +
      atBit 20 l.qcause
  | 0x12 =>
    atBit 31 (b2n (c.segRun n)) + atBit 30 (b2n (c.hasLink (2 * n))) + atBit 29 (b2n (c.hasLink (2 * n + 1))) +
      atBit 28 (b2n (c.seg n).splitLast)
  | 0x13 =>
    let role := c.rf (LP.LP_CFG n) 5 4
    atBit 29 (c.lp n).state + atBit 28 (if role = 0 then n % 2 else role - 1) + atBit 27 (c.rf (LP.LP_CFG n) 8 8) +
      atBit 24 (c.lp n).lq
  | 0x14 =>
    let l := c.lf n
    atBit 31 (b2n l.z) + atBit 30 (b2n l.b) + atBit 29 (b2n l.a) + atBit 28 (b2n l.down)
  | 0x15 => atBit 30 (Tab.get (fun _ => 0) c.vsense n)
  | 0x16 => atBit 29 (c.cu n).state
  | 0x17 => atBit 31 (c.rf (SF.SF_STAT n) 0 0) + atBit 30 (c.rf (SF.SF_STAT n) 1 1)
  | 0x18 => atBit 28 (c.seqState n)
  | 0x19 =>
    atBit 30 (c.rf (AXIS.LMODE n) 1 0) + atBit 28 (c.rf (AXIS.LMODE n) 5 4) + atBit 24 (c.loadLE (c.axBlock n + 0x208) 1 % 16)
  | _ => 0

/-- PG_STAT (Table 2.8). -/
def Chip.pgStat (c : Chip) (p : PageAt) (b : Nat) : Word :=
  BitVec.ofNat 32 (c.statBlock p.page.type p.inst + atBit 2 (b2n (c.locked b)) + atBit 1 (b2n (c.settling.contains b)) + b2n (c.en b))

/-- Groups with a group unit that waits, and groups of which some page has staged writes (`CHIP.COMMIT_STAT`, R73): units of
other kinds do not show (R71). -/
def Chip.commitStat (c : Chip) : Word :=
  let cap := below 16 (fun g => c.cm.units.any (fun u => decide (u.kind = .group g)))
  let stg := below 16 (fun g => c.cm.staged.any (fun e => decide (c.cgrp (pageBase e.1) = g)))
  BitVec.ofNat 32 (cap.foldl (fun m g => m + 2 ^ g) 0 + atBit 16 (stg.foldl (fun m g => m + 2 ^ g) 0))

/-- TICK_STAT (R88).  While the tick is stopped no set is in force (R89), and CP_IDLE is judged against the PERIOD that TICK.NOW still shows
(DESIGN CHOICE, log 93: R88 does not say). -/
def Chip.tickStat (c : Chip) : Word :=
  let idle := below 8 (fun k => c.rb (TICK.CP k) 31 && decide (c.period ≤ c.rf (TICK.CP k) 17 0))
  BitVec.ofNat 32 (atBit 31 (b2n c.tg.running) + atBit 16 c.tg.mode + idle.foldl (fun m k => m + 2 ^ k) 0)

/-- Registers that show the time base and the tick generator. -/
def State.timeView (s : State) (a : Nat) : Option Word :=
  if a = TIME.NS then some (BitVec.ofNat 32 s.tb.ns)
  else if a = TIME.SEC_LO then some (s.tb.sec.setWidth 32)
  else if a = TIME.SEC_HI then some (BitVec.ofNat 32 (s.tb.sec.toNat / 2 ^ 32))
  else if a = TIME.FAST_NS then some s.tb.fast
  else if a = TIME.ADDEND_NOW then some (wOf s.tb.addendNow)
  else if a = TIME.SLEW_LEFT then some (wOf s.tb.slewLeft)
  else if !s.chip.tg.running && decide (a = TIME.SNAP_TICK_LO ∨ a = TIME.SNAP_TICK_HI ∨ a = TIME.SNAP_OFS) then some 0#32
  else none

/-- Registers of the TICK page that show the tick generator. -/
def State.tickView (s : State) (a : Nat) : Option Word :=
  let c := s.chip
  if a = TICK.TICK_STAT then some c.tickStat
  else if a = TICK.TICK_NO_LO then some (BitVec.ofNat 32 c.tickNo)
  else if a = TICK.TICK_NO_HI then some (BitVec.ofNat 32 (c.tickNo / 2 ^ 32))
  else if a = TICK.T0_FAST then some c.tg.t0Fast
  else if a = TICK.OFS_NOW then some (BitVec.ofNat 32 (if c.tg.running then c.ofs s.tb % 2 ^ 18 else 0))
  else if a = TICK.START_TENURE then some (BitVec.ofNat 32 c.startTenure)
  else none

/-- CLK.LOCK (R479): REFCLK is present, and the PLLs that are locked. -/
def Chip.lockView (c : Chip) : Word :=
  BitVec.ofNat 32 (atBit 8 (b2n (!c.rst.held.contains 3)) + (below 5 (fun k => c.pllLocked k)).foldl (fun m k => m + 2 ^ k) 0)

/-- Registers that show a state computed from others, by page type.  DBG_DATA under a selection that does not exist reads 0 (DESIGN CHOICE,
log 93: R133 does not say). -/
def State.computed (s : State) (p : PageAt) (a : Nat) : Option Word :=
  let c := s.chip
  let n := p.inst
  match p.page.type with
  | 0x01 => if a = CHIP.COMMIT_STAT then some c.commitStat else none
  | 0x02 => s.tickView a
  | 0x03 => s.timeView a
  | 0x05 => if a = PWR.DOM_BUSY then some (wordBits (fun d => decide (d < 16) && c.domBusy d)) else none
  | 0x07 => if a = CLK.LOCK then some c.lockView else none
  | 0x08 =>
    if p.off < 0x4C ∧ 0x40 ≤ p.off then some (wordBits (fun i => c.requested (32 * ((p.off - 0x40) / 4) + i)))
    else if p.off < 0x6C ∧ 0x60 ≤ p.off then some (wordBits (fun i => c.pending (32 * ((p.off - 0x60) / 4) + i)))
    else if a = IRQ.PIN_STAT then some (wordBits (fun k => decide (k < 4) && c.intPin k))
    else none
  | 0x10 =>
    if a = POT.QLEN n then
      let t := (c.takeable n).length
      some (putFld (putFld (c.reg a) 7 0 t) 15 8 ((c.pot n).queue.length - t))
    else none
  | 0x11 =>
    if a = LEAF.DBG_PC n then some (BitVec.ofNat 32 (c.leaf n).f.pc)
    else if a = LEAF.DBG_DATA n then
      let d := c.reg (LEAF.DBG_SEL n)
      let k := if c.dbgBankB n then (c.leaf n).b else (c.leaf n).f
      some (if dbgExists (fld d 7 5) (fld d 4 0) then k.dbgGet (fld d 7 5) (fld d 4 0) (c.ctrlReg s.tb n) else 0#32)
    else none
  | 0x17 =>
    if a = SF.FILL n then some (BitVec.ofNat 32 (c.sf n).fifo.length)
    else if a = SF.CREDIT n then some (BitVec.ofNat 32 (if sfInbound n then c.sfDepth n - c.sfFill n else 0))
    else none
  | _ => none

/-- A header register (Table 2.4). -/
def Chip.headerView (c : Chip) (p : PageAt) (a : Nat) : Word :=
  let b := pageBase a
  match p.off with
  | 0x08 => putFld (c.reg a) 1 1 (b2n (c.settling.contains b))
  | 0x0C => c.pgStat p b
  | 0x1C => BitVec.ofNat 32 (atBit 2 (b2n (c.hasCaptured b)) + atBit 1 (b2n (c.hasStaged b)))
  | _ => c.reg a

/-- What a register shows: while a soft reset settles, every field that is not RWC reads its reset value (R57). -/
def State.view (s : State) (p : PageAt) (a : Nat) : Word :=
  if p.off < 0x40 then s.chip.headerView p a
  else if s.chip.settling.contains (pageBase a) then (s.chip.reg a &&& softMask p) ||| (s.chip.resetOf a &&& ~~~softMask p)
  else (s.computed p a).getD (s.chip.reg a)

/-! ### Pairs (R51) -/

/-- The low word of a writable pair: the high word follows it. -/
def pairWritable (type off : Nat) : Bool :=
  match type with
  | 0x01 => decide (0x104 ≤ off ∧ off < 0x200 ∧ off % 0x10 = 4)
  | 0x02 => decide (off = 0x4C ∨ off = 0x84)
  | 0x03 => decide (off = 0x68)
  | 0x09 => decide (0x100 ≤ off ∧ off < 0x1A0 ∧ off % 0x20 = 0)
  | 0x11 => decide (0x104 ≤ off ∧ off < 0x140 ∧ off % 0x10 = 4)
  | _ => false

/-- The low word of a pair that is read only. -/
def pairShown (type off : Nat) : Bool :=
  match type with
  | 0x02 => decide (off = 0xC4)
  | 0x03 => decide (off = 0x44 ∨ off = 0x84 ∨ off = 0x90)
  | 0x0B => decide (off = 0x5C)
  | 0x0C => decide (off = 0x58)
  | 0x12 => decide (off = 0x338)
  | 0x19 => decide (off = 0x320)
  | _ => false

/-- The low word of a pair under R51. -/
def pairLow (type off : Nat) : Bool := pairWritable type off || pairShown type off

/-- The high word of a pair under R51. -/
def pairHigh (type off : Nat) : Bool := decide (4 ≤ off) && pairLow type (off - 4)

/-- The high word that a port has latched. -/
def Chip.latched (c : Chip) (p : Port) (a : Nat) : Option Word := Tab.get (fun _ => none) (c.port p).shadow a

/-- A latched word is used by the next read of it. -/
def Chip.unlatch (c : Chip) (p : Port) (a : Nat) : Chip :=
  c.modPort p (fun t => { t with shadow := Tab.set (fun _ => none) t.shadow a none })

/-- A read of NS latches both words of the seconds for the port (Table 3.1). -/
def Chip.latchSeconds (c : Chip) (p : Port) (tb : TimeBase) : Chip :=
  (c.latchHigh p TIME.SEC_LO (tb.sec.setWidth 32)).latchHigh p TIME.SEC_HI (BitVec.ofNat 32 (tb.sec.toNat / 2 ^ 32))

/-! ### Reads -/

/-- Fields that a read clears: RC fields, and trouble counters of a page with ERR_RC = 1 (R49, R59). -/
def Chip.rcMask (c : Chip) (p : PageAt) (b : Nat) : Word :=
  maskOf (fldsAt p) (fun k => decide (k = .rc) || (decide (k = .tc) && c.rb (pgCtrl b) 5))

/-- What a read of a register does to it (R49).  A lowest or a most "since the last read" starts again at what holds at the
read: LQ_LOWEST of a port in service at its LQ (R336), PEAK of a Pot at the cups takeable then (Table 6.11). -/
def Chip.readClear (c : Chip) (p : PageAt) (a : Nat) : Chip :=
  let m := c.rcMask p (pageBase a)
  if m = 0#32 then c
  else
    let again := fun (c : Chip) =>
      if a = POT.QLEN p.inst ∧ p.page.type = 0x10 then c.potPeak p.inst
      else if a = LP.LQ_LOWEST p.inst ∧ p.page.type = 0x13 ∧ c.hasLink p.inst = true then
        c.setF (LP.LQ_LOWEST p.inst) 2 0 (min (c.lp p.inst).lq (c.rf (LP.LQ_LOWEST p.inst) 2 0))
      else c
    again <| c.setReg a ((c.reg a &&& ~~~m) ||| ((if p.off < 0x40 then 0#32 else regReset a) &&& m))

/-- A read of a register that its page lets through.  A latched word is what a high word reads, and what SEC_LO reads after a
read of NS, which latches both words of the seconds (R51, Table 3.1). -/
def State.readReg (s : State) (p : Port) (q : PageAt) (a : Nat) : State × Word :=
  let c := s.chip
  if q.page.type = 0x17 ∧ q.off = 0x50 then
    ({ s with chip := (c.dataLoRead s.tb p q.inst).1 }, (c.dataLoRead s.tb p q.inst).2)
  else if q.page.type = 0x17 ∧ q.off = 0x54 then (s, c.dataHiRead p q.inst)
  else if q.page.type = 0x0E ∧ q.off = 0x54 then (s.rd3After, s.view q a)
  else if a = TIME.NS then (s.onChip (fun c => c.latchSeconds p s.tb), s.view q a)
  else if pairLow q.page.type q.off && (decide (a ≠ TIME.SEC_LO) || (c.latched p a).isNone) then
    match pageAt (a + 4) with
    | some h => ({ s with chip := c.latchHigh p (a + 4) (s.view h (a + 4)) }, s.view q a)
    | none => (s, s.view q a)
  else if pairHigh q.page.type q.off || decide (a = TIME.SEC_LO) then
    match c.latched p a with
    | some w => ({ s with chip := c.unlatch p a }, w)
    | none => (s, s.view q a)
  else ({ s with chip := c.readClear q a }, s.view q a)

/-- An access to a page or window whose domain is off, counted for the host ports (R411). -/
def Chip.domainOff (c : Chip) (p : Port) : Chip := if p.isBus then c.trouble HOSTIF.DOMAIN_OFF else c

/-- An access to an unmapped address (R54). -/
def Chip.unmapped (c : Chip) : Chip := (c.trouble HOSTIF.UNMAPPED).evt pgHostif 22

/-- A read in the Caddy window, at byte offset `o` (R371, R372).  A record of the signature ring that it reaches counts as read
(R255). -/
def Chip.caddyRead (c : Chip) (p : Port) (o : Nat) : Chip × Word :=
  let a := caddyMem o
  let pg := c.sigPages
  let c := { c with sigUnread := c.sigUnread.filter (fun x =>
    !decide (pg.1 * 0x1000 + x ≤ o ∧ o < pg.1 * 0x1000 + x + 0x400)) }
  match (if o % 8 = 4 then c.latched p a else none) with
  | some w => (c.unlatch p a, w)
  | none =>
    let r := c.caddyCheck o
    let v := fun k : Nat => if r.2 then 0#32 else BitVec.ofNat 32 (c.loadLE k 4)
    if o % 8 = 0 then (r.1.latchHigh p (a + 4) (v (a + 4)), v a) else (r.1, v a)

/-- The Pot of a byte of the debug window. -/
def dbgPot (a : Nat) : Nat :=
  if a < 0x1200000 then (a - 0x1000000) / 0x40000
  else if a < 0x1400000 then (a - 0x1200000) / 0x40000
  else (a - 0x1400000) / 0x80000

/-- An address of the debug window that a Pot of the part has. -/
def Chip.dbgHere (c : Chip) (a : Nat) : Bool := decide (a < 0x1800000) && decide (dbgPot a < c.nPots)

/-- Where an address leads. -/
inductive Zone where
  | page (q : PageAt)
  | tray (o : Nat)
  | caddy (o : Nat)
  | debug
  | unmapped
  deriving DecidableEq, Repr

/-- The map of BAR0 (Tables 2.2 and 2.3); the reserved region of the debug window behaves as unmapped (R127). -/
def zoneOf (a : Nat) : Zone :=
  match pageAt a with
  | some q => .page q
  | none =>
    if 0x200000 ≤ a ∧ a < 0x300000 then .tray (a - 0x200000)
    else if 0x400000 ≤ a ∧ a < 0xC00000 then .caddy (a - 0x400000)
    else if 0x1000000 ≤ a ∧ a < 0x1800000 then .debug
    else .unmapped

/-- The domain that an access to an address needs, if that domain is off and the access counts under R411. -/
def Chip.offFor (c : Chip) (z : Zone) (a : Nat) : Bool :=
  match z with
  | .page q => !c.absent q.page.type q.inst && !c.domOn (pageDomain q.page.type)
  | .tray _ => !c.domOn 2
  | .debug => c.dbgHere a && !c.domOn (4 + dbgPot a)
  | _ => false

/-- A 32-bit read that reaches a page or window whose domain is on. -/
def State.readOn (s : State) (p : Port) (z : Zone) (a : Nat) : State × Word :=
  let c := s.chip
  match z with
  | .page q => if c.absent q.page.type q.inst then (s, 0#32) else s.readReg p q a
  | .tray o => (s, c.trayWord o)
  | .caddy o => if c.domOn 3 then ({ s with chip := (c.caddyRead p o).1 }, (c.caddyRead p o).2) else (s, 0#32)
  | .debug => if c.dbgHere a then ({ s with chip := (c.dbgRead s.tb a).1 }, (c.dbgRead s.tb a).2) else (s, 0#32)
  | .unmapped => ({ s with chip := c.unmapped }, 0#32)

/-- A 32-bit read of a port at a word address: what it does and what it returns.  A read that covers no byte of a register
does nothing to it. -/
def State.read (s : State) (p : Port) (be a : Nat) : State × Word :=
  if !s.chip.reach p then (s, 0#32)
  else if s.chip.offFor (zoneOf a) a then ({ s with chip := s.chip.domainOff p }, 0#32)
  else if be = 0 ∧ zoneOf a ≠ .unmapped then (s, 0#32)
  else s.readOn p (zoneOf a) a

/-- A read whose value the port keeps. -/
def State.readFor (s : State) (p : Port) (a : Nat) : State :=
  { (s.read p 15 a).1 with chip := (s.read p 15 a).1.chip.reply p (s.read p 15 a).2 }

/-! ### Writes -/

/-- The low word of a writable pair is held for the port (R51). -/
def Chip.holdLow (c : Chip) (p : Port) (a : Nat) (v : Word) : Chip := c.modPort p (fun t => { t with held := some (a, v) })

/-- A register takes the RW fields of a value. -/
def Chip.setRw (c : Chip) (a : Nat) (v : Word) : Chip :=
  let rw := maskOf (fldsOf a) (fun k => decide (k = .rw))
  c.setReg a ((c.reg a &&& ~~~rw) ||| (v &&& rw))

/-- Both halves of a writable pair are stored (R51). -/
def Chip.storePair (c : Chip) (q : PageAt) (a : Nat) (lo hi : Word) : Chip :=
  match q.page.type with
  | 0x02 => if q.off = 0x50 then c.writeTickNo (lo.toNat + 2 ^ 32 * hi.toNat) else (c.setRw (a - 4) lo).setRw a hi
  | 0x09 => c.writeRing ((q.off - 0x100) / 0x20) lo hi
  | _ => (c.setRw (a - 4) lo).setRw a hi

/-- A write of the high word of a writable pair (R51). -/
def Chip.writeHigh (c : Chip) (p : Port) (q : PageAt) (a : Nat) (v : Word) : Chip :=
  match (c.port p).held with
  | some (b, lo) =>
    if b + 4 = a then (c.modPort p (fun t => { t with held := none })).storePair q a lo v
    else c.trouble HOSTIF.PARTIAL_WR
  | none => c.trouble HOSTIF.PARTIAL_WR

/-- A write to a header register but PG_CTRL (Table 2.4). -/
def Chip.writeHeader (c : Chip) (tb : TimeBase) (p : Port) (off a : Nat) (v : Word) : Chip :=
  let b := pageBase a
  match off with
  | 0x18 => c.writeEvtSet b v
  | 0x1C => if bit v 0 then c.captureGroup tb (c.dueNow tb) (c.cgrp b) else c
  | 0x20 => c.writeErrcnt b
  | 0x24 => c.writeLock b v
  | _ => c.writeCodes tb a v

/-- Writes to the HOSTIF page with effects of their own. -/
def Chip.writeHostif (c : Chip) (tb : TimeBase) (p : Port) (off a : Nat) (v : Word) : Chip :=
  if 0x100 ≤ off ∧ off < 0x1A0 ∧ off % 0x20 = 8 then c.writeDmaCfg ((off - 0x100) / 0x20) v
  else if 0x100 ≤ off ∧ off < 0x1A0 ∧ off % 0x20 = 0x10 then c.writeTail ((off - 0x100) / 0x20) v
  else if off = 0x200 ∨ off = 0x210 then c.writeMbxIn ((off - 0x200) / 0x10) v
  else if 0x400 ≤ off ∧ off < 0x600 then c.writeMbxBuf ((off - 0x400) / 0x100) a v
  else if 0x800 ≤ off ∧ off < 0xA00 then c.writeMsix a v
  else c.writeCodes tb a v

/-- Writes to a SEG page with effects of their own. -/
def Chip.writeSeg (c : Chip) (tb : TimeBase) (p : Port) (g off a : Nat) (v : Word) : Chip :=
  if off = 0xC0 then c.writeMbxTx g v
  else if 0x200 ≤ off ∧ off < 0x300 then c.writeSched g ((off - 0x200) / 0x20) a v
  else if 0x300 ≤ off ∧ off < 0x320 then c.writeSched g ((off - 0x300) / 4) a v
  else if 0x800 ≤ off ∧ off < 0xC00 then (if c.mbxBusy g then c else c.setReg a v)
  else c.writeCodes tb a v

/-- Writes to the TICK page with effects of their own. -/
def Chip.writeTick (c : Chip) (tb : TimeBase) (p : Port) (off a : Nat) (v : Word) : Chip :=
  if off = 0x40 then c.writeTickCtrl tb v
  else if off = 0x80 then c.writeMcCtrl tb v
  else if 0x100 ≤ off ∧ off < 0x200 then c.writeMode ((off - 0x100) / 0x20) (off % 0x20 / 4) v
  else c.writeCodes tb a v

/-- Writes to an LF, CU or SF page with effects of their own. -/
def Chip.writeCapture (c : Chip) (tb : TimeBase) (p : Port) (type n off a : Nat) (v : Word) : Chip :=
  match type, off with
  | 0x14, 0x54 => c.writeLfCtrl tb n v
  | 0x14, 0x80 => c.writeCmp tb n v
  | 0x14, 0x88 => c.writeCmpCtrl tb n v
  | 0x16, 0x60 => c.writeCuCtrl tb n v
  | 0x16, 0x78 => c.cuMark n v
  | 0x17, 0x50 => c.dataLoWrite p n v
  | 0x17, 0x54 => c.dataHiWrite p n v
  | 0x17, 0x5C => c.writeSfCtrl n v
  | _, _ =>
    if type = 0x16 ∧ off < 0x60 then c.cuConfig n a v
    else if type = 0x17 ∧ (off = 0x40 ∨ off = 0x44) then c.writeSfCfg n a v
    else c.writeCodes tb a v

/-- Writes to the single-instance pages with effects of their own. -/
def Chip.writeSingle (c : Chip) (tb : TimeBase) (p : Port) (type off a : Nat) (v : Word) : Chip :=
  match type, off with
  | 0x01, 0x48 => c.commitMask tb (fld v 15 0)
  | 0x01, 0x200 => c.writeChipPctl v
  | 0x03, 0x60 => c.writeSlewRate v
  | 0x03, 0x74 => c.writeMark tb
  | 0x04, 0x40 => c.writePtpCtrl v
  | 0x04, 0x44 | 0x04, 0x48 | 0x04, 0x54 | 0x04, 0x58 => c.writePtpField a v
  | 0x08, 0x70 => c.eoi v
  | 0x0A, 0x48 => c.writeTrayHold v
  | 0x0B, 0x40 => c.writeStbyCfg v
  | 0x0B, 0x44 => c.writeReclaimQuiet v
  | 0x0B, 0x4C => c.writeStbyCtrl v
  | 0x0D, 0x1A0 => c.writeTcrit v
  | _, _ =>
    if type = 0x0D ∧ 0x100 ≤ off ∧ off < 0x1A0 ∧ off % 8 = 0 then c.writeThr a v else c.writeCodes tb a v

/-- A write to a register of a page, at offset 0x040 or above, whose effect is on the chip: its own where it has one,
otherwise what its access codes say. -/
def Chip.writeBlock (c : Chip) (tb : TimeBase) (p : Port) (q : PageAt) (a : Nat) (v : Word) : Chip :=
  let n := q.inst
  if pairWritable q.page.type q.off then c.holdLow p a v
  else if decide (4 ≤ q.off) && pairWritable q.page.type (q.off - 4) then c.writeHigh p q a v
  else match q.page.type, q.off with
    | 0x10, 0x40 => c.writePctrl tb n v
    | 0x11, 0x40 => c.writeLctrl tb n v
    | 0x11, 0x80 => c.writeDbgPc n v
    | 0x11, 0x88 => c.writeDbgData n v
    | 0x11, 0x140 => c.writeLeafPctl n v
    | 0x13, 0x48 => if bit v 0 then c.cableGo n else c
    | 0x15, 0xA8 => c.chRelease tb n (fld v 7 0)
    | 0x19, 0x54 => if bit v 31 then c.addUnit tb (.fsClear n) (c.dueNow tb) [] else c
    | 0x02, off => c.writeTick tb p off a v
    | 0x09, off => c.writeHostif tb p off a v
    | 0x12, off => c.writeSeg tb p n off a v
    | 0x14, off | 0x16, off | 0x17, off => c.writeCapture tb p q.page.type n off a v
    | type, off => c.writeSingle tb p type off a v

/-- What a soft reset does to a block beside its registers (R57): the block starts afresh, and what its registers show returns to its reset
value with them.  RUN at its reset value asks for the stop of a tick that runs and cancels a start, as a write of 0 does; PAIR_EN at its
reset value unpairs; a cable test ends without a result; the time goes on (DESIGN CHOICE, log 18). -/
def State.blockReset (s : State) (type n : Nat) : State :=
  let c := s.chip
  match type with
  | 0x02 =>
    let c := c.runStop 0
    { s with chip := c.when c.noTick (fun c => c.modTg (fun t => { t with tickNo := 0#64, t0Fast := 0#32, mode := 0 })) }
  | 0x03 => { s with tb := { s.tb with addendNow := 0, slewLeft := 0 } }
  | 0x0B => { s with chip := (c.setPaired false).modStby (fun t => { t with sl0 := false, sl1 := false, refuse := 0 }) }
  | 0x13 => { s with chip := c.when (decide ((c.lp n).state = 6)) (fun c => c.modLp n (fun l => { l with state := 1 })) }
  | 0x09 => { s with chip := { c with dma := [] }, ktl := { s.ktl with waiting := [] } }
  | 0x0A => { s with chip := c.traySoft }
  | 0x11 => { s with chip := c.modLeaf n (fun l => { l with f := { l.f with pc := 0 } }) }
  | 0x12 => { s with chip := c.modSeg n (fun _ => Seg.reset) }
  | 0x14 => { s with chip := (c.modLf n (fun l => { Lf.reset with a := l.a, b := l.b, z := l.z })).setSrc s.tb (0x38 + n) false }
  | 0x16 => { s with chip := c.modCu n (fun _ => Cu.reset) }
  | 0x17 => { s with chip := (c.modSf n (fun _ => Sf.reset)).sfIdle n }
  | 0x18 => { s with chip := c.modGrp n (fun _ => Grp.reset) }
  | _ => s

/-- A write of PG_CTRL.  A soft reset of the PWR page requests the reset value of DOM_REQ, as the Kettle can. -/
def State.writeCtrlAt (s : State) (p : Port) (q : PageAt) (a : Nat) (v : Word) : State :=
  let b := pageBase a
  let ok := bit v 1 && s.chip.srstOk b
  let req := s.chip.reg PWR.DOM_REQ
  let s := s.onChip (fun c => c.writeCtrl s.tb b v)
  if !ok then s
  else if q.page.type = 0x05 then
    (s.onChip (fun c => c.setReg PWR.DOM_REQ req)).powerChange (fun c => c.writeDomReq s.tb .kettle 3#32)
  else s.blockReset q.page.type q.inst

/-- A write that has passed the gate of its page. -/
def State.writeAt (s : State) (p : Port) (q : PageAt) (a : Nat) (v : Word) : State :=
  match q.page.type, q.off with
  | _, 0x08 => s.writeCtrlAt p q a v
  | 0x03, 0x50 => s.writeAddend p v
  | 0x03, 0x58 => s.writeSlew p v
  | 0x03, 0x70 => s.writeTimeCtrl p v
  | 0x05, 0x40 => s.powerChange (fun c => c.writeDomReq s.tb p v)
  | 0x09, 0x220 => s.mbxFree 0 v
  | 0x09, 0x230 => s.mbxFree 1 v
  | 0x0C, 0x48 => s.writeKtlCtrl v
  | 0x0E, 0x44 => s.writeRdSeq v
  | 0x0E, 0x60 => s.writeLogStream v
  | _, off =>
    if off < 0x40 then s.onChip (fun c => c.writeHeader s.tb p off a v)
    else s.onChip (fun c => c.writeBlock s.tb p q a v)

/-- A 32-bit write of a port at a word address, with its byte enables (R48, R54, R411, R423).  A partial write into the debug window counts in
PARTIAL_WR alone: the event of a refused debug access is for writes that R128 judges (DESIGN CHOICE, log 93: the manual does not say). -/
def State.write (s : State) (p : Port) (be a : Nat) (v : Word) : State :=
  let c := s.chip
  let z := zoneOf a
  if !c.reach p then s
  else if z = .unmapped then { s with chip := c.unmapped }
  else if be ≠ 15 then
    match z with
    -- the page still refuses it as it refuses any other write (R61)
    | .page q => if c.absent q.page.type q.inst then s else { s with chip := (c.gate p a).1.trouble HOSTIF.PARTIAL_WR }
    | _ => { s with chip := (c.trouble HOSTIF.PARTIAL_WR).when (c.offFor z a) (fun c => c.domainOff p) }
  else match z with
    | .page q => s.gated p a (fun s => s.writeAt p q a v)
    | .tray _ => { s with chip := if c.domOn 2 then c.trouble HOSTIF.TRAY_WR_REF else c.domainOff p }
    | .caddy o => { s with chip := c.caddyWrite o v }
    -- a Pot that is off refuses the write as well (R128)
    | .debug => { s with chip := if c.dbgHere a then (c.when (c.offFor z a) (fun c => c.domainOff p)).dbgWrite a v else c }
    | .unmapped => s

/-! ### Commands -/

/-- A register write of a port (R49). -/
def execRegisterWrite (p : Port) (a : Nat) (v : Word) (s : State) : Res := .next (s.write p 15 (a / 4 * 4) v)

/-- A register has a field with an access code. -/
def hasField (a : Nat) (k : Access) : Bool := (fldsOf a).any (fun f => decide (f.acc = k))

/-- A write to an RWC register (R63, R71). -/
def execRwcWrite (p : Port) (a : Nat) (v : Word) (s : State) : Res := .next (if hasField a .rwc then s.write p 15 a v else s)

/-- A write to a W1C register (R432). -/
def execW1cWrite (p : Port) (a : Nat) (v : Word) (s : State) : Res := .next (if hasField a .w1c then s.write p 15 a v else s)

/-- An access to an unmapped address, a write of `v` or a read (R54). -/
def execUnmappedAccess (p : Port) (a : Nat) (w : Option Word) (s : State) : Res :=
  .next (if zoneOf (a / 4 * 4) = .unmapped then
    match w with
    | some v => s.write p 15 (a / 4 * 4) v
    | none => s.readFor p (a / 4 * 4)
  else s)

/-- A read of a register that a read clears (R49, R59). -/
def execRcRead (p : Port) (a : Nat) (s : State) : Res := .next (s.readFor p (a / 4 * 4))

/-- An address is that of the low word of a pair, or of NS, whose read latches the seconds (Table 3.1). -/
def isPairLow (a : Nat) : Bool :=
  decide (a = TIME.NS) || (match pageAt a with | some q => pairLow q.page.type q.off | none => false)
/-- An address is that of the low word of a writable pair. -/
def isPairWritable (a : Nat) : Bool := match pageAt a with | some q => pairWritable q.page.type q.off | none => false

/-- A read of the low word of a pair (R51). -/
def execPairLowRead (p : Port) (a : Nat) (s : State) : Res := .next (if isPairLow a then s.readFor p a else s)

/-- A write of the low word of a writable pair (R51). -/
def execPairLowWrite (p : Port) (a : Nat) (v : Word) (s : State) : Res :=
  .next (if isPairWritable a then s.write p 15 a v else s)

/-- A write of the high word of a writable pair (R51). -/
def execPairHighWrite (p : Port) (a : Nat) (v : Word) (s : State) : Res :=
  .next (if decide (4 ≤ a) && isPairWritable (a - 4) then s.write p 15 a v else s)

/-- A write of PG_CTRL with SRST = 1 to the page at `b` (R57). -/
def execSrst (p : Port) (b : Nat) (v : Word) (s : State) : Res := .next (s.write p 15 (pgCtrl (pageBase b)) (v ||| 2#32))

/-- A read of DATA_LO (R387). -/
def execDataLoRead (p : Port) (n : Nat) (s : State) : Res := .next (s.readFor p (SF.DATA_LO n))

/-- A write into Leaf or Pot memory through the debug window (R128). -/
def execDebugWindowWrite (p : Port) (a : Nat) (v : Word) (s : State) : Res :=
  .next (if zoneOf (a / 4 * 4) = .debug then s.write p 15 (a / 4 * 4) v else s)

/-- A read through the debug window (R128). -/
def execDebugWindowRead (p : Port) (a : Nat) (s : State) : Res :=
  .next (if zoneOf (a / 4 * 4) = .debug then s.readFor p (a / 4 * 4) else s)

/-- A write to the Caddy window, at byte offset `o` (R371). -/
def execCaddyWindowWrite (p : Port) (o : Nat) (v : Word) (s : State) : Res :=
  .next (if o < 0x800000 then s.write p 15 (0x400000 + o / 4 * 4) v else s)

/-- A read of RD3 (R465). -/
def execRd3Read (p : Port) (s : State) : Res := .next (s.readFor p (LOG.RD 3))

/-- A read of the LO word of a performance counter: of counter `k` of a Leaf, or of the chip (R444). -/
def execPcntLoRead (p : Port) (leaf : Option Nat) (k : Nat) (s : State) : Res :=
  .next (match leaf with
    | some n => s.readFor p (LEAF.PCNT_LO n k)
    | none => s.readFor p (CHIP.CCNT_LO k))

/-- A WRITE of the command stream (Table 14.7), or a halt on a bad address (R393). -/
def State.streamWrite (s : State) (n : Nat) : State :=
  match (s.chip.sf n).fifo with
  | (w, e) :: _ =>
    if s.chip.sinkReady n && decide (e ≠ 2 ∧ w.toNat / 2 ^ 60 = 1) then
      match s.chip.sfPop s.tb n with
      | some (v, _, d) =>
        let a := v.toNat / 2 ^ 32 % 2 ^ 25 / 4 * 4
        let bad := match zoneOf a with | .unmapped => true | .page q => decide (q.page.type = 0x17) | _ => false
        if bad then { s with chip := d.sinkHalt n 2 }
        else { s with chip := d }.write (sinkPort n) 15 a (BitVec.ofNat 32 v.toNat)
      | none => s
    else s
  | [] => s

/-- The sink of FIFO `n` executes a WRITE (R391, R393). -/
def execStreamWrite (n : Nat) (s : State) : Res := .next (s.streamWrite n)

end Sys2Proof.Machine
end

