-- ==== Sys2Proof/Machine/HostPorts.lean ====
section
/-!
DEFINITION. The two host ports: PCIe memory requests and the loss of the link (R411, R412), and the transactions of the
quad-SPI slave port (R413 to R417).
-/

namespace Sys2Proof.Machine

/-! ### PCIe -/

/-- The function takes memory requests: the chip is out of reset, the link is up, and the function is in D0. -/
def Chip.pcieOk (c : Chip) : Bool := c.reach .pcie && c.rb HOSTIF.LINK 0 && !c.pcie.d3hot

/-- Reads of consecutive words, with their byte enables, in ascending order (R411). -/
def State.readRun (s : State) (p : Port) : Nat → List Nat → State × List Word
  | _, [] => (s, [])
  | a, be :: l =>
    let r := s.read p be a
    let t := r.1.readRun p (a + 4) l
    (t.1, r.2 :: t.2)

/-- Writes of consecutive words in ascending order (R411, R416). -/
def State.writeRun (s : State) (p : Port) : Nat → List (Nat × Word) → State
  | _, [] => s
  | a, (be, v) :: l => (s.write p be a v).writeRun p (a + 4) l

/-- An inbound memory request at a BAR0 offset (R411); a write carries at most the payload of Table 16.1. -/
def State.pcieRequest (s : State) (r : PcieReq) : State :=
  if !s.chip.pcieOk then s
  else match r with
    | .read a be =>
      let t := s.readRun .pcie (a / 4 * 4) be
      t.1.onChip (fun c => c.emit (.completion t.2))
    | .write a ws => if maxPayload < 4 * ws.length then s else s.writeRun .pcie (a / 4 * 4) ws

/-! ### Quad-SPI -/

/-- The commands of Table 16.2. -/
inductive QspiOp where
  | read | qread | write | qwrite | status | id
  deriving DecidableEq, Repr

/-- The opcodes of Table 16.2 (R413). -/
def qspiOp : Byte → Option QspiOp
  | 0x03#8 => some .read
  | 0xEB#8 => some .qread
  | 0x02#8 => some .write
  | 0x38#8 => some .qwrite
  | 0x05#8 => some .status
  | 0x9F#8 => some .id
  | _ => none

/-- An address that R414 allows. -/
def qspiAddr (a : Nat) : Bool := decide (a < 2 ^ 25 ∧ a % 4 = 0)

/-- A transaction that R414 refuses: an opcode that Table 16.2 does not have, or an address that R414 does not allow. -/
def qspiBad (op : Byte) (a : Nat) : Bool :=
  match qspiOp op with
  | none => true
  | some .status => false
  | some .id => false
  | some _ => !qspiAddr a

/-- A refused transaction, in which the chip drives `n` bytes (R414). -/
def Chip.qspiRefuse (c : Chip) (n : Nat) : Chip :=
  if c.reach .qspi then
    ((Chip.trouble { c with qspiErr := true } HOSTIF.QSPI_ERR).evt pgHostif 20).when (decide (0 < n))
      (fun c => c.emit (.qspi (List.replicate n 0#8)))
  else c

/-- Words from an address to the end of BAR0. -/
def qspiRoom (a : Nat) : Nat := (2 ^ 25 - a) / 4

/-- The bytes of the words that a read delivers: before each, wait bytes, whose number the manual bounds by a time and leaves
open, and a ready byte (R415). -/
def qspiBytes (free : Nat) : List Word → List Byte
  | [] => []
  | w :: l =>
    List.replicate ((Config.freeWord free).toNat % 64) 0#8 ++ (0xA5#8 :: leBytes 4 w.toNat) ++ qspiBytes (free + 1) l

/-- The words that a read accesses (R415): the first is issued at the end of the address, where the transaction gets so far, and each later
one at the end of the last byte of the word before it, so one more than it delivers; words beyond the end of BAR0 make no access (R414). -/
def qspiIssues (a issued delivered : Nat) : Nat := min (if delivered = 0 then min issued 1 else delivered + 1) (qspiRoom a)

/-- A read transaction that delivers `delivered` words before HS_CSn rises; without any, `issued` = 0 says that it ends within its
address.  A turnaround byte precedes them (R415), and a word that is delivered tells that earlier writes have been accepted (R52).  A refused one drives 0x00 throughout. -/
def State.qspiRead (s : State) (a issued delivered : Nat) : State :=
  if !s.chip.reach .qspi then s
  else if !qspiAddr a then s.onChip (fun c => c.qspiRefuse (1 + 5 * delivered))
  else
    let t := s.readRun .qspi a (List.replicate (qspiIssues a issued delivered) 15)
    t.1.onChip (fun c => Chip.emit { c with free := c.free + delivered, qspiWip := c.qspiWip && decide (delivered = 0) } (.qspi (0#8 :: qspiBytes c.free (t.2.take delivered))))

/-- A write transaction: whole words, and then `tail` bytes, 0 to 3, of a last one, which is discarded as a partial write
(R48, R416). -/
def State.qspiWrite (s : State) (a : Nat) (words : List Word) (tail : Nat) : State :=
  if !s.chip.reach .qspi then s
  else if !qspiAddr a then s.onChip (fun c => c.qspiRefuse 0)
  else
    let room := qspiRoom a
    let s := (s.writeRun .qspi a ((words.take room).map (fun w => (15, w)))).onChip (fun c =>
      if (words.take room).isEmpty then c else { c with qspiWip := true })
    if 0 < tail ∧ words.length < room then s.write .qspi (2 ^ tail - 1) (a + 4 * words.length) 0#32 else s

/-- The status byte (R417), sent `n` times until HS_CSn rises (R413).  How long a written word waits for its acceptance is not stated: after a
write the number of leading bytes that show WIP is a free value (DESIGN CHOICE, log 46). -/
def Chip.qspiStatus (c : Chip) (n : Nat) : Chip :=
  if c.reach .qspi then
    let late := if c.qspiWip then (Config.freeWord c.free).toNat % (n + 1) else 0
    let v := atBit 1 (b2n c.qspiErr) + atBit 2 (b2n (decide (c.kstate = 3)))
    Chip.emit { c with qspiErr := false, qspiWip := c.qspiWip && decide (late = n), free := c.free + b2n c.qspiWip }
      (.qspi ((List.range n).map (fun k => BitVec.ofNat 8 (v + b2n (decide (k < late))))))
  else c

/-- CHIP_ID as 4 bytes, and a byte of 0 (R413). -/
def Chip.qspiId (c : Chip) : Chip :=
  if c.reach .qspi then c.emit (.qspi (leBytes 4 (c.rn CHIP.CHIP_ID) ++ [0#8])) else c

/-- What a transaction carries after its opcode: the address, the words it accesses and delivers, the words and the bytes of a last one that
it writes, and the bytes driven by STATUS or by a refused transaction. -/
structure QspiBody where
  addr : Nat := 0
  issued : Nat := 0
  delivered : Nat := 0
  words : List Word := []
  tail : Nat := 0
  bytes : Nat := 0
  deriving DecidableEq, Repr

/-- A transaction: its opcode selects the command (R413, Table 16.2), and R414 refuses what the table does not have. -/
def State.qspi (s : State) (op : Byte) (x : QspiBody) : State :=
  match qspiOp op with
  | some .read => s.qspiRead x.addr x.issued x.delivered
  | some .qread => s.qspiRead x.addr x.issued x.delivered
  | some .write => s.qspiWrite x.addr x.words x.tail
  | some .qwrite => s.qspiWrite x.addr x.words x.tail
  | some .status => s.onChip (fun c => c.qspiStatus x.bytes)
  | some .id => s.onChip Chip.qspiId
  | none => s.onChip (fun c => c.qspiRefuse x.bytes)

/-! ### Commands -/

/-- An inbound PCIe memory request (R411). -/
def execPcieMemoryRequest (r : PcieReq) (s : State) : Res := .next (s.pcieRequest r)

/-- A hot reset, or a loss of the link (R412). -/
def execHotReset (down : Bool) (s : State) : Res :=
  .next (s.onChip (fun c => if down then c.pcieDown else c.pcieLoss))

/-- READ (R415). -/
def execQspiRead (a issued delivered : Nat) (s : State) : Res := .next (s.qspi 0x03#8 ⟨a, issued, delivered, [], 0, 0⟩)

/-- QREAD: as READ, over four lines (R413, R415). -/
def execQread (a issued delivered : Nat) (s : State) : Res := .next (s.qspi 0xEB#8 ⟨a, issued, delivered, [], 0, 0⟩)

/-- WRITE (R416). -/
def execQspiWrite (a : Nat) (words : List Word) (tail : Nat) (s : State) : Res := .next (s.qspi 0x02#8 ⟨a, 0, 0, words, tail, 0⟩)

/-- QWRITE: as WRITE, over four lines (R413, R416). -/
def execQwrite (a : Nat) (words : List Word) (tail : Nat) (s : State) : Res := .next (s.qspi 0x38#8 ⟨a, 0, 0, words, tail, 0⟩)

/-- STATUS (R417). -/
def execQspiStatus (s : State) (n : Nat := 1) : Res := .next (s.qspi 0x05#8 ⟨0, 0, 0, [], 0, n⟩)

/-- ID (R413). -/
def execQspiId (s : State) : Res := .next (s.qspi 0x9F#8 ⟨0, 0, 0, [], 0, 0⟩)

/-- A transaction with a bad address or an opcode that Table 16.2 does not have, in which the chip drives `n` bytes (R414): one
that R414 does not refuse is no such transaction. -/
def execQspiErr (s : State) (op : Byte := 0#8) (a n : Nat := 0) : Res :=
  .next (if qspiBad op a then (if (qspiOp op).isNone then s.qspi op ⟨a, 0, 0, [], 0, n⟩ else s.onChip (fun c => c.qspiRefuse n)) else s)

end Sys2Proof.Machine
end

