-- ==== Sys2Proof/Machine/Clock.lean ====
section
/-!
DEFINITION. One period of the 1.0 GHz clock, which the machine takes in two steps when no command waits.  The first advances the time
base (R75) once the counters have counted the period that ends (R441), ends what holds for one clock period and queues the T0, the stop of
the tick or GUARD_OPEN if its instant has come (R65, R67).  The second queues the other commands whose instants have come.  A read that the sender queues between
the two returns what stood before the hardware updates of its nanosecond (R52).  Only instants that the manual fixes to the clock
period come from here; what it bounds by a maximum comes from the sender.
-/

namespace Sys2Proof.Machine

/-- The core runs: PD2 is on and no reset is held (R471, R476). -/
def Chip.coreRuns (c : Chip) : Bool := c.domOn 2 && !c.held

/-- A set that waits since the last period takes effect (R80). -/
def TimeBase.loadSet (t : TimeBase) : TimeBase :=
  match t.setDue with
  | some (sec, ns) => { t with sec := sec, ns := ns, setDue := none }
  | none => t

/-- The time base after a clock period: it advances while the core runs (R75); the nanoseconds since power-up count on. -/
def State.clockTime (s : State) : TimeBase :=
  if s.chip.coreRuns then { (s.tb.advance s.chip.slewS).loadSet with up := s.tb.up + 1, half := true }
  else { s.tb with cycle := s.tb.cycle + 1, up := s.tb.up + 1, half := true }

/-- Why a Leaf in RUN issues no bundle in a cycle, as its stall event of Table 17.5, from the state of its own code (R445). -/
def Leaf.idleNow (l : Leaf) : Bool := l.cup.isNone && l.slow.isNone

/-- The code of the standard image runs on a Leaf: its bundles are not stated. -/
def Leaf.stdNow (l : Leaf) : Bool :=
  match l.cup with
  | some r => r.std && !l.bankB
  | none => l.slow.isSome && l.slowStd

/-- The slots of a cycle that issued nothing are front-starved for the stalls 6 and 7, back-starved for 5 and 8 (R445). -/
def Chip.stallSlots (c : Chip) (n stall slots : Nat) : Chip :=
  ((c.perfLeaf n 0x04 1).perfLeaf n stall 1).perfLeaf n (if stall = 6 ∨ stall = 7 then 0x22 else 0x23) slots

/-- A cycle of the standard image's code (R445): whether it issues a bundle, how the slots of that retire, and why it stalls is not stated, and
a free value says it (log 33). -/
def Chip.stdCycle (c : Chip) (n : Nat) : Chip :=
  let v := (Config.freeWord c.free).toNat
  let c := { c with free := c.free + 1 }
  if v % 5 = 4 then ((c.perfLeaf n 0x03 1).perfLeaf n 0x20 (v / 8 % 3)).perfLeaf n 0x21 (2 - v / 8 % 3)
  else (c.stallSlots n (5 + v % 5) 2).perfLeaf n 0x19 (if v % 5 = 3 then v / 8 % 5 else 0)

/-- A cycle of a Leaf in RUN (R445): each issue slot that its instructions have not classified takes its class from why nothing was issued.
After the end of a cup up to 4 entries of its buffer are released in a cycle (R124). -/
def Chip.runCycle (c : Chip) (n : Nat) : Chip :=
  let l := c.leaf n
  let rest := 2 - (Tab.get (fun _ => 0) c.evNow (perfKey 0x20 (some n)) + Tab.get (fun _ => 0) c.evNow (perfKey 0x21 (some n)))
  if l.idleNow then (c.perfLeaf n 0x09 1).perfLeaf n 0x22 rest
  else if l.stdNow then c.stdCycle n
  else if rest = 0 then c
  else
    let k := match l.cup with | some r => if r.ended then min 4 (l.wbufDw.length - l.rel) else 0 | none => 0
    let c := if l.issued then c.perfLeaf n (if l.stall = 6 ∨ l.stall = 7 then 0x22 else 0x23) rest else c.stallSlots n l.stall rest
    (c.perfLeaf n 0x19 k).when (decide (k ≠ 0)) (fun c => c.modLeaf n (fun l => { l with rel := l.rel + k }))

/-- Per-cycle events of a Leaf that is not OFF (Table 17.5): CYCLES, RUN_CYCLES, INCUP, INSLOW and the classes of its slots. -/
def Chip.leafCycle (c : Chip) (n : Nat) : Chip :=
  let l := c.leaf n
  let run := decide (l.state = 2)
  let c := (c.perfLeaf n 0x01 1).perfLeaf n 0x02 (b2n run)
  let c := (c.perfLeaf n 0x0A (b2n (run && l.cup.isSome))).perfLeaf n 0x0B (b2n (run && l.bankB))
  let c := if run then c.runCycle n else c
  c.when l.issued (fun c => c.modLeaf n (fun l => { l with issued := false }))

/-- Per-cycle events of the chip (Table 17.6), CORE_CYCLES wherever the counters are powered and out of reset, LEAVES_RUN, LEAVES_INCUP and
TAKEABLE; those of the Leaves; and the counting of the cycle that ends, by the offset at which it began (R441, R443). -/
def Chip.cyclePerf (c : Chip) (tb : TimeBase) : Chip :=
  let leaves := c.leaves.map (fun e => e.2)
  let run := (leaves.filter (fun l => decide (l.state = 2))).length
  let inCup := (leaves.filter (fun l => decide (l.state = 2) && l.cup.isSome)).length
  let take := (List.range 8).any (fun p => !(c.takeable p).isEmpty)
  let on := (c.leaves.filter (fun e => decide (e.2.state ≠ 0))).map (fun e => e.1)
  let c := ((c.perf 0x80 1).perf 0x8B run).perf 0x8C inCup
  let c := c.perf 0x8D (b2n take)
  (on.foldl (fun (c : Chip) n => c.leafCycle n) c).countCycle tb

/-- The end of a clock period, where PD1, which holds the chip's counters, is on and out of reset. -/
def Chip.periodEnd (c : Chip) (tb : TimeBase) : Chip :=
  if c.domOn 1 && c.live then c.cyclePerf tb else { c with evNow := [], evLast := [] }

/-- What a clock period does to the chip beside the commands that fall due. -/
def Chip.clockChip (c : Chip) (tb : TimeBase) : Chip :=
  let c := { c with fresh := [] }
  if !c.coreRuns then c
  else
    let c := c.modTg (fun t => if c.lstate = 1 then { t with quietNs := t.quietNs + 1 } else t)
    let c := c.modStby (fun t => if t.paired then { t with quietNs := t.quietNs + 1 } else t)
    c.endPulses tb

/-! ### Commands that fall due -/

/-- A command, if its instant has come. -/
def due (p : Bool) (i : Instr) : List Instr := if p then [i] else []

/-- Commands of the time base. -/
def TimeBase.dues (tb : TimeBase) : List Instr := due tb.wrapDue .wrap ++ due tb.slewDue .slewDone

/-- Cycle points whose offset has been reached (R92). -/
def Chip.duesPoints (c : Chip) (tb : TimeBase) : List Instr :=
  if c.tg.running then (below 8 (fun k => c.tg.cpArmed.contains k && decide (c.rf (TICK.CP k) 17 0 ≤ c.ofs tb))).map .cyclePoint else []

/-- A T0 with what stands at a T0 of the line (R91, R321), or the stop of the tick (R90).  A cycle point whose offset the last step of
the time base has passed over with the end of its tick fires first (R92); captures of the window that ends at GUARD_OPEN are closed before a
command of that instant is taken (R65). -/
def Chip.duesT0 (c : Chip) (tb : TimeBase) : List Instr :=
  due (c.tg.running && !c.tg.guarded && decide (c.guardOpen ≤ c.ofs tb)) .guardOpen ++
  (if c.tickOver tb then c.duesPoints tb else []) ++
  if (c.startDue tb).isSome || (c.tickOver tb && !c.tg.stopReq) then
    [.t0, .listenEnd, .coldstartEnd] ++ (below 2 (fun n => (c.sf n).wait.isSome)).map .waitTickDone
  else due (c.tickOver tb && c.tg.stopReq) .tickStop

/-- Instants of a tick on the whole chip; a cycle point at the publication of the Tray fires after it (R93). -/
def Chip.duesTick (c : Chip) (tb : TimeBase) : List Instr :=
  if !c.tg.running then []
  else
    let o := c.ofs tb
    due (c.tg.change.isSome && decide (c.gatherOfs ≤ o + 2 ∧ o < c.gatherOfs)) .mcDecision ++
    due (decide (c.lstate = 2) && !c.tg.coldSent && decide (c.gatherOfs ≤ o)) .coldstartLaunch ++
    due (!c.tg.poured && decide (c.pourClose ≤ o)) .pourClose ++
    due (c.trayDue tb) .trayPublish ++
    c.duesPoints tb ++
    due (decide (c.lstate = 1 ∧ c.tg.lineLeft = 0 ∧ 2100000000 ≤ c.tg.quietNs)) .extendedListenEnd

/-- Instants of a segment's tick or cycle (R20 to R24, R284, R299, R307, R314, R326). -/
def Chip.duesSeg (c : Chip) (tb : TimeBase) (g : Nat) : List Instr :=
  let s := c.seg g
  let o := c.segOfs tb g
  let svc := decide (c.segSvc g ≤ o)
  if !c.delayParty g then []
  else
    due (c.headOn g && !s.launched && decide (c.gatherOfs ≤ o) && c.inTick tb g 0) (.gatherLaunch g) ++
    due (match s.copyA, s.copyB with
      | none, some b => c.headOn g && b.ok && s.aBad.isNone && decide (512 ≤ (tb.fast - b.fin).toNat)
      | _, _ => false) (.aCopyTimeout g) ++
    due (c.headOn g && !s.returned && !s.missed && decide (c.segLate g ≤ o) && c.returnReady tb g && c.inTick tb g 1) (.gatherReturn g) ++
    due (c.headOn g && !s.returned && !s.missed && decide (c.segLate g ≤ o) && s.useA.isNone && s.useB.isNone && c.inTick tb g 1) (.gatherMiss g) ++
    due (svc && c.compares && !c.stby.compared.contains g) (.pourCompare (2 * g) ⟨[], false, 0#32⟩) ++
    due (c.headOn g && decide (s.slots < c.svcCount ∧ c.segSvc g + s.slots * c.segSlot g ≤ o)) (.serviceSlotOpen g) ++
    due (c.headOn g && !s.modeSent && svc && c.isBeacon g && !s.mca) (.modeBeacon g) ++
    due (c.headOn g && !s.modeSent && svc && s.mca) (.modeAnnounce g) ++
    due (svc && c.isDelay1 g && !c.roundSkipped g && !s.dlyOn) (.delayReqSend g) ++
    due (svc && c.isDelay2 g && !c.roundSkipped g && !s.dlyReqs.isEmpty) (.delayRespSend g) ++
    (below 17 (fun k => c.headOn g && c.admitted g k && decide (c.rf (SEG.ADMIT_CFG g) 7 0 ≤ (c.node g k).missRun))).map (.nodeLost g)

/-- Instants of the pins, of local feedback and of the FAST base (R226, R374, R398 to R400). -/
def Chip.duesPins (c : Chip) (tb : TimeBase) : List Instr :=
  (below 16 (fun n => match (c.lf n).pulseEnd with | some t => decide (t ≤ tb.cycle) | none => false)).map .comparePulseEnd ++
  (below 48 (fun n => c.pinLive n && c.chatterOver tb n)).map .chatterAutoRelease ++
  (below 48 (fun n => c.pinLive n && c.pinDue tb n)).map .pulseAccept ++
  (below 48 (fun n => c.pinLive n && c.stuckBy n tb.ext)).map .stuck ++
  due ((List.range 16).any (fun n => c.rb (CU.RATE n) 31 && c.cuDue tb n)) .fastObservation

/-- Instants of the core. -/
def Chip.duesCore (c : Chip) (tb : TimeBase) : List Instr :=
  tb.dues ++ (below 32 (c.serviceDue tb)).map .inserv ++ c.duesTick tb ++ c.enSegs.flatMap (c.duesSeg tb) ++ c.duesPins tb ++
    (below 64 (fun n => c.cupOverdue tb n)).map .cupOverrun ++
    due (c.linkUpStby && decide (tb.up % 1000000 = 0)) .helloSend ++
    due (c.stby.paired && decide ((if c.tg.running then 2 * c.period else 2000000) ≤ c.stby.quietNs)) .standbyLinkDown

/-- Instants of the host side, the Kettle and the resets (R94, R419, R455, R477, R479). -/
def State.duesHost (s : State) : List Instr :=
  let c := s.chip
  (below 4 (fun k => match c.dmaRun k with | some r => c.shortDue s.tb k r | none => false)).map .short ++
  due ((match c.dmaRun 4 with
      | some r => r.frame.isSome && (if bit r.desc.ctl 17 then decide ((s.tb.fast - r.desc.aux).toNat < 2 ^ 31) else c.mgFree s.tb)
      | none => false) ||
    (match s.ktl.outbox with | e :: _ => c.replyFits s.tb e.2 | [] => false)) .timedFrameLaunch ++
  due (!c.held && !c.rst.kettleUp && decide (c.rst.releasedAt + 1000000 ≤ s.tb.up)) .kettleResetRelease ++
  due (c.rst.kettleUp && decide (c.kstate ≤ 1 ∧ c.rst.kettleAt + 10000000000 ≤ s.tb.up)) .wdogStart ++
  due (c.rb CLK.HOLDOVER 0 && decide (c.rst.holdAt + 10000000 ≤ s.tb.up)) .holdoverTimeout

/-- The commands whose instants have come, but for the T0. -/
def State.dues (s : State) : List Instr :=
  (if s.chip.coreRuns then s.chip.duesCore s.tb else []) ++ s.duesHost

/-- The first half of a clock period: the counters count the period that ends, the time base advances and the T0 falls due. -/
def State.clockBegin (s : State) : State :=
  let s := { s with tb := s.clockTime, chip := (s.chip.periodEnd s.tb).clockChip s.clockTime }
  { s with pending := if s.chip.coreRuns then s.chip.duesT0 s.tb else [] }

/-- Kettle firmware is about to load its image's sections (R453, R456): no domain that is requested has a transition left, and PD2, which holds
what they load, is on (DESIGN CHOICE, log 92). -/
def State.fwReady (s : State) : Bool :=
  let c := s.chip
  c.rst.kettleUp && decide (c.kstate = 1) && !s.ktl.loaded && c.rst.ramp.isNone && c.rst.filling.isEmpty && c.domOn 2 &&
    (List.range 16).all (fun d => !c.domReq d || c.domOn d)

/-- The commands by which firmware loads the STEEP section into the program memory and image data of every Pot and then applies the LINE
section (R453). -/
def State.fwLoad (s : State) : List Instr :=
  let b := slotAt s.chip.lastSlot
  let steep := if (s.ktl.sections b 2).isEmpty then [] else Config.steepLoad (s.ktl.sectBytes b 2)
  let line := if (s.ktl.sections b 3).isEmpty then [] else Config.lineLoad (s.ktl.sectBytes b 3)
  steep.flatMap (fun e => (List.range s.chip.nPots).map (fun p =>
    .debugWindowWrite .kettle (if e.1 < 0x40000 then progMem p e.1 else potMem p (e.1 % 0x80000)) e.2)) ++
  line.map (fun e => .registerWrite .kettle e.1 e.2)

/-- Levels on the inputs of local feedback that the filter has held back are taken (R212), and a TICK that waited for them goes (R347). -/
def Chip.settleAll (c : Chip) (tb : TimeBase) : Chip :=
  let c := each (List.range 16) (fun n c => c.lfSettle tb n) c
  if c.stby.tickOwed && !c.lfOwes then c.tickSend else c

/-- The second half of a clock period: the inputs of local feedback, and the other updates of the period fall due. -/
def State.clockEnd (s : State) : State :=
  let s := { s with
    tb := { s.tb with half := false }
    chip := if s.chip.coreRuns then s.chip.settleAll s.tb else s.chip }
  if s.fwReady then { s with pending := s.dues ++ s.fwLoad, ktl := { s.ktl with loaded := true } }
  else { s with pending := s.dues }

/-- Half a clock period, taken while no command waits. -/
def State.clock (s : State) : State := if s.tb.half then s.clockEnd else s.clockBegin

end Sys2Proof.Machine
end

