-- ==== Sys2Proof/Machine/Dispatch.lean ====
section
/-! DEFINITION. The meaning of a command: one arm for each constructor. -/

namespace Sys2Proof.Machine

def exec (i : Instr) (s : State) : Host.Outcome State Fault Refusal :=
  match i with
  | .registerWrite p a v => Sys2Proof.Machine.execRegisterWrite p a v s
  | .unmappedAccess p a w => Sys2Proof.Machine.execUnmappedAccess p a w s
  | .rcRead p a => Sys2Proof.Machine.execRcRead p a s
  | .pairLowRead p a => Sys2Proof.Machine.execPairLowRead p a s
  | .pairLowWrite p a v => Sys2Proof.Machine.execPairLowWrite p a v s
  | .pairHighWrite p a v => Sys2Proof.Machine.execPairHighWrite p a v s
  | .rwcWrite p a v => Sys2Proof.Machine.execRwcWrite p a v s
  | .commit p m => Sys2Proof.Machine.execCommit p m s
  | .pgCommitGo p b => Sys2Proof.Machine.execPgCommitGo p b s
  | .srst p b v => Sys2Proof.Machine.execSrst p b v s
  | .srstSettle b => Sys2Proof.Machine.execSrstSettle b s
  | .pgLockWrite p b v => Sys2Proof.Machine.execPgLockWrite p b v s
  | .pgEvtSetWrite p b v => Sys2Proof.Machine.execPgEvtSetWrite p b v s
  | .w1cWrite p a v => Sys2Proof.Machine.execW1cWrite p a v s
  | .addendWrite p v => Sys2Proof.Machine.execAddendWrite p v s
  | .slewWrite p v => Sys2Proof.Machine.execSlewWrite p v s
  | .slewDone => Sys2Proof.Machine.execSlewDone s
  | .timeSet p v => Sys2Proof.Machine.execTimeSet p v s
  | .snap p v => Sys2Proof.Machine.execSnap p v s
  | .srcWrite p v => Sys2Proof.Machine.execSrcWrite p v s
  | .mark p => Sys2Proof.Machine.execMark p s
  | .wrap => Sys2Proof.Machine.execWrap s
  | .runStart p mode => Sys2Proof.Machine.execRunStart p mode s
  | .runStop p mode => Sys2Proof.Machine.execRunStop p mode s
  | .tickStop => Sys2Proof.Machine.execTickStop s
  | .tickNoWrite p v => Sys2Proof.Machine.execTickNoWrite p v s
  | .modeSetWrite p m j v => Sys2Proof.Machine.execModeSetWrite p m j v s
  | .t0 => Sys2Proof.Machine.execT0 s
  | .openDoors g => Sys2Proof.Machine.execOpen g s
  | .closeDoors g => Sys2Proof.Machine.execClose g s
  | .isolate g => Sys2Proof.Machine.execIsolate g s
  | .restore g => Sys2Proof.Machine.execRestore g s
  | .seqReset g => Sys2Proof.Machine.execSeqReset g s
  | .learnReset g => Sys2Proof.Machine.execLearnReset g s
  | .cyclePoint k => Sys2Proof.Machine.execCyclePoint k s
  | .gatherLaunch g => Sys2Proof.Machine.execGatherLaunch g s
  | .gatherCopyReceive port copyB f => Sys2Proof.Machine.execGatherCopyReceive port copyB f s
  | .aCopyTimeout g => Sys2Proof.Machine.execACopyTimeout g s
  | .gatherReturn g => Sys2Proof.Machine.execGatherReturn g s
  | .gatherMiss g => Sys2Proof.Machine.execGatherMiss g s
  | .cupAssign p => Sys2Proof.Machine.execCupAssign p s
  | .stealGrant => Sys2Proof.Machine.execStealGrant s
  | .cupEntry n std => Sys2Proof.Machine.execCupEntry n std s
  | .cupCompletion n => Sys2Proof.Machine.execCupCompletion n s
  | .cupOverrun n => Sys2Proof.Machine.execCupOverrun n s
  | .pourLaunch g => Sys2Proof.Machine.execPourLaunch g s
  | .pourClose => Sys2Proof.Machine.execPourClose s
  | .trayPublish => Sys2Proof.Machine.execTrayPublish s
  | .serviceSlotOpen g => Sys2Proof.Machine.execServiceSlotOpen g s
  | .modeBeacon g => Sys2Proof.Machine.execModeBeacon g s
  | .modeAnnounce g => Sys2Proof.Machine.execModeAnnounce g s
  | .mcDecision => Sys2Proof.Machine.execMcDecision s
  | .guardOpen => Sys2Proof.Machine.execGuardOpen s
  | .idleUnitApply => Sys2Proof.Machine.execIdleUnitApply s
  | .lctrlQuar p n => Sys2Proof.Machine.execLctrlQuar p n s
  | .quarIn n cause => Sys2Proof.Machine.execQuarIn n cause s
  | .lctrlRelease p n => Sys2Proof.Machine.execLctrlRelease p n s
  | .leafReleaseDone n => Sys2Proof.Machine.execLeafReleaseDone n s
  | .leafFillDone n => Sys2Proof.Machine.execLeafFillDone n s
  | .step p n => Sys2Proof.Machine.execStep p n s
  | .dbgPcWrite p n v => Sys2Proof.Machine.execDbgPcWrite p n v s
  | .dbgDataWrite p n v => Sys2Proof.Machine.execDbgDataWrite p n v s
  | .debugWindowWrite p a v => Sys2Proof.Machine.execDebugWindowWrite p a v s
  | .debugWindowRead p a => Sys2Proof.Machine.execDebugWindowRead p a s
  | .icMiss n bundle perr => Sys2Proof.Machine.execIcMiss n bundle perr s
  | .pctrlQuar p n v => Sys2Proof.Machine.execPctrlQuar p n v s
  | .pctrlRelease p n v => Sys2Proof.Machine.execPctrlRelease p n v s
  | .potReleaseDone n => Sys2Proof.Machine.execPotReleaseDone n s
  | .potFillDone p => Sys2Proof.Machine.execPotFillDone p s
  | .slowCupStart n std => Sys2Proof.Machine.execSlowCupStart n std s
  | .add n gd gs gt last => Sys2Proof.Machine.execAdd n gd gs gt last s
  | .sub n gd gs gt last => Sys2Proof.Machine.execSub n gd gs gt last s
  | .adds n gd gs gt last => Sys2Proof.Machine.execAdds n gd gs gt last s
  | .subs n gd gs gt last => Sys2Proof.Machine.execSubs n gd gs gt last s
  | .and n gd gs gt last => Sys2Proof.Machine.execAnd n gd gs gt last s
  | .or n gd gs gt last => Sys2Proof.Machine.execOr n gd gs gt last s
  | .xor n gd gs gt last => Sys2Proof.Machine.execXor n gd gs gt last s
  | .sll n gd gs gt last => Sys2Proof.Machine.execSll n gd gs gt last s
  | .srl n gd gs gt last => Sys2Proof.Machine.execSrl n gd gs gt last s
  | .sra n gd gs gt last => Sys2Proof.Machine.execSra n gd gs gt last s
  | .slli n gd gs sh last => Sys2Proof.Machine.execSlli n gd gs sh last s
  | .srli n gd gs sh last => Sys2Proof.Machine.execSrli n gd gs sh last s
  | .srai n gd gs sh last => Sys2Proof.Machine.execSrai n gd gs sh last s
  | .slt n gd gs gt last => Sys2Proof.Machine.execSlt n gd gs gt last s
  | .sltu n gd gs gt last => Sys2Proof.Machine.execSltu n gd gs gt last s
  | .abss n gd gs last => Sys2Proof.Machine.execAbss n gd gs last s
  | .negs n gd gs last => Sys2Proof.Machine.execNegs n gd gs last s
  | .nrm n gd gs last => Sys2Proof.Machine.execNrm n gd gs last s
  | .seln n gd gs gt last => Sys2Proof.Machine.execSeln n gd gs gt last s
  | .selz n gd gs gt last => Sys2Proof.Machine.execSelz n gd gs gt last s
  | .sllsi n gd gs sh last => Sys2Proof.Machine.execSllsi n gd gs sh last s
  | .mfc n gd r last => Sys2Proof.Machine.execMfc n gd r last s
  | .mtc n r gs last => Sys2Proof.Machine.execMtc n r gs last s
  | .ga n ad gs last => Sys2Proof.Machine.execGa n ad gs last s
  | .ag n gd as last => Sys2Proof.Machine.execAg n gd as last s
  | .jr n gs last => Sys2Proof.Machine.execJr n gs last s
  | .addi n gd gs k last => Sys2Proof.Machine.execAddi n gd gs k last s
  | .addsi n gd gs k last => Sys2Proof.Machine.execAddsi n gd gs k last s
  | .andi n gd gs k last => Sys2Proof.Machine.execAndi n gd gs k last s
  | .ori n gd gs k last => Sys2Proof.Machine.execOri n gd gs k last s
  | .xori n gd gs k last => Sys2Proof.Machine.execXori n gd gs k last s
  | .lui n gd k last => Sys2Proof.Machine.execLui n gd k last s
  | .slti n gd gs k last => Sys2Proof.Machine.execSlti n gd gs k last s
  | .sltui n gd gs k last => Sys2Proof.Machine.execSltui n gd gs k last s
  | .aadd n ad as k last => Sys2Proof.Machine.execAadd n ad as k last s
  | .ainc n ad k last => Sys2Proof.Machine.execAinc n ad k last s
  | .ldb n g a post k last => Sys2Proof.Machine.execLdb n g a post k last s
  | .ldbu n g a post k last => Sys2Proof.Machine.execLdbu n g a post k last s
  | .ldh n g a post k last => Sys2Proof.Machine.execLdh n g a post k last s
  | .ldhu n g a post k last => Sys2Proof.Machine.execLdhu n g a post k last s
  | .ldw n g a post k last => Sys2Proof.Machine.execLdw n g a post k last s
  | .ldd n g a post k last => Sys2Proof.Machine.execLdd n g a post k last s
  | .ldc n g acc a post k last => Sys2Proof.Machine.execLdc n g acc a post k last s
  | .stb n g a post k last => Sys2Proof.Machine.execStb n g a post k last s
  | .sth n g a post k last => Sys2Proof.Machine.execSth n g a post k last s
  | .stw n g a post k last => Sys2Proof.Machine.execStw n g a post k last s
  | .std n g a post k last => Sys2Proof.Machine.execStd n g a post k last s
  | .stsh n g a post k sh last => Sys2Proof.Machine.execStsh n g a post k sh last s
  | .b n target last => Sys2Proof.Machine.execB n target last s
  | .jal n gd target last => Sys2Proof.Machine.execJal n gd target last s
  | .beq n gs gt disp last => Sys2Proof.Machine.execBeq n gs gt disp last s
  | .bne n gs gt disp last => Sys2Proof.Machine.execBne n gs gt disp last s
  | .blt n gs gt disp last => Sys2Proof.Machine.execBlt n gs gt disp last s
  | .bge n gs gt disp last => Sys2Proof.Machine.execBge n gs gt disp last s
  | .bltu n gs gt disp last => Sys2Proof.Machine.execBltu n gs gt disp last s
  | .bgeu n gs gt disp last => Sys2Proof.Machine.execBgeu n gs gt disp last s
  | .dbnz n gs disp last => Sys2Proof.Machine.execDbnz n gs disp last s
  | .endCup n last => Sys2Proof.Machine.execEnd n last s
  | .nop n last => Sys2Proof.Machine.execNop n last s
  | .reservedOpcode n slotY last => Sys2Proof.Machine.execReservedOpcode n slotY last s
  | .mul n acc gs gt last => Sys2Proof.Machine.execMul n acc gs gt last s
  | .mac n acc gs gt last => Sys2Proof.Machine.execMac n acc gs gt last s
  | .mac2 n acc gp gq last => Sys2Proof.Machine.execMac2 n acc gp gq last s
  | .mac2s n acc gp gq last => Sys2Proof.Machine.execMac2s n acc gp gq last s
  | .clr n acc last => Sys2Proof.Machine.execClr n acc last s
  | .ext n gd acc last => Sys2Proof.Machine.execExt n gd acc last s
  | .exts n gd acc sh last => Sys2Proof.Machine.execExts n gd acc sh last s
  | .rdacc n gd acc part last => Sys2Proof.Machine.execRdacc n gd acc part last s
  | .wracc n acc gs t last => Sys2Proof.Machine.execWracc n acc gs t last s
  | .wraccp n acc gp t last => Sys2Proof.Machine.execWraccp n acc gp t last s
  | .smax n acc gs last => Sys2Proof.Machine.execSmax n acc gs last s
  | .smin n acc gs last => Sys2Proof.Machine.execSmin n acc gs last s
  | .max n gd gs gt last => Sys2Proof.Machine.execMax n gd gs gt last s
  | .min n gd gs gt last => Sys2Proof.Machine.execMin n gd gs gt last s
  | .clamp n gd gs gq last => Sys2Proof.Machine.execClamp n gd gs gq last s
  | .satn n gd gs w last => Sys2Proof.Machine.execSatn n gd gs w last s
  | .fsClear p a => Sys2Proof.Machine.execFsClear p a s
  | .countedEdge n a b => Sys2Proof.Machine.execCountedEdge n a b s
  | .errQuad n a b => Sys2Proof.Machine.execErrQuad n a b s
  | .comparePulseEnd n => Sys2Proof.Machine.execComparePulseEnd n s
  | .idx n z => Sys2Proof.Machine.execIdx n z s
  | .zclrArm p n v => Sys2Proof.Machine.execZclrArm p n v s
  | .cmpWrite p n v => Sys2Proof.Machine.execCmpWrite p n v s
  | .cmpEnable p n v => Sys2Proof.Machine.execCmpEnable p n v s
  | .padTransition n pad => Sys2Proof.Machine.execPadTransition n pad s
  | .pulseAccept n => Sys2Proof.Machine.execPulseAccept n s
  | .chatterAutoRelease n => Sys2Proof.Machine.execChatterAutoRelease n s
  | .chRelease p b v => Sys2Proof.Machine.execChRelease p b v s
  | .stuck n => Sys2Proof.Machine.execStuck n s
  | .arm p n v => Sys2Proof.Machine.execArm p n v s
  | .stop p n v => Sys2Proof.Machine.execStop p n v s
  | .clear p n v => Sys2Proof.Machine.execClear p n v s
  | .force p n v => Sys2Proof.Machine.execForce p n v s
  | .rewind p n v => Sys2Proof.Machine.execRewind p n v s
  | .markWrite p n m => Sys2Proof.Machine.execMarkWrite p n m s
  | .drainBlock => Sys2Proof.Machine.execDrainBlock s
  | .caddyWindowWrite p o v => Sys2Proof.Machine.execCaddyWindowWrite p o v s
  | .caddyFillDone => Sys2Proof.Machine.execCaddyFillDone s
  | .dataLoWrite p n v => Sys2Proof.Machine.execDataLoWrite p n v s
  | .dataHiWrite p n v => Sys2Proof.Machine.execDataHiWrite p n v s
  | .dataLoRead p n => Sys2Proof.Machine.execDataLoRead p n s
  | .flush p n => Sys2Proof.Machine.execFlush p n s
  | .resume p n => Sys2Proof.Machine.execResume p n s
  | .streamNop n => Sys2Proof.Machine.execStreamNop n s
  | .streamWrite n => Sys2Proof.Machine.execStreamWrite n s
  | .streamCommit n => Sys2Proof.Machine.execStreamCommit n s
  | .waitTick n => Sys2Proof.Machine.execWaitTick n s
  | .waitTickDone n => Sys2Proof.Machine.execWaitTickDone n s
  | .streamReservedOp n => Sys2Proof.Machine.execStreamReservedOp n s
  | .dmaEnable p k v => Sys2Proof.Machine.execDmaEnable p k v s
  | .dmaDisable p k v => Sys2Proof.Machine.execDmaDisable p k v s
  | .tailWrite p k v => Sys2Proof.Machine.execTailWrite p k v s
  | .dmaDescriptor k d words frame err speed => Sys2Proof.Machine.execDmaDescriptor k d words frame err speed s
  | .short k => Sys2Proof.Machine.execShort k s
  | .timedFrameLaunch => Sys2Proof.Machine.execTimedFrameLaunch s
  | .mgFrameReceive bytes stamp report => Sys2Proof.Machine.execMgFrameReceive bytes stamp report s
  | .ptpCtrlWrite p v => Sys2Proof.Machine.execPtpCtrlWrite p v s
  | .trayHold p => Sys2Proof.Machine.execTrayHold p s
  | .trayHoldRelease p => Sys2Proof.Machine.execTrayHoldRelease p s
  | .mbxGo p m len => Sys2Proof.Machine.execMbxGo p m len s
  | .mbxFullClear p m => Sys2Proof.Machine.execMbxFullClear p m s
  | .info via => Sys2Proof.Machine.execInfo via s
  | .logRead via => Sys2Proof.Machine.execLogRead via s
  | .imgBegin via fail => Sys2Proof.Machine.execImgBegin via fail s
  | .imgData via fail => Sys2Proof.Machine.execImgData via fail s
  | .imgEnd via fail => Sys2Proof.Machine.execImgEnd via fail s
  | .setPending via fail => Sys2Proof.Machine.execSetPending via s fail
  | .clearTries via => Sys2Proof.Machine.execClearTries via s
  | .resetCommand via => Sys2Proof.Machine.execResetCommand via s
  | .keyProg via => Sys2Proof.Machine.execKeyProg via s
  | .ktlCtrlReset p => Sys2Proof.Machine.execKtlCtrlReset p s
  | .decafReq p => Sys2Proof.Machine.execDecafReq p s
  | .confirm p => Sys2Proof.Machine.execConfirm p s
  | .good => Sys2Proof.Machine.execGood s
  | .wdogStart => Sys2Proof.Machine.execWdogStart s
  | .kettleWatchdog => Sys2Proof.Machine.execKettleWatchdog s
  | .trap => Sys2Proof.Machine.execTrap s
  | .sensorConversion k r => Sys2Proof.Machine.execSensorConversion k r s
  | .logPersist fail => Sys2Proof.Machine.execLogPersist fail s
  | .logStreamPush => Sys2Proof.Machine.execLogStreamPush s
  | .fromOldest p en => Sys2Proof.Machine.execFromOldest p en s
  | .rdSeqWrite p v => Sys2Proof.Machine.execRdSeqWrite p v s
  | .rd3Read p => Sys2Proof.Machine.execRd3Read p s
  | .domReqWrite p v => Sys2Proof.Machine.execDomReqWrite p v s
  | .domainTransitionDone => Sys2Proof.Machine.execDomainTransitionDone s
  | .por => Sys2Proof.Machine.execPor s
  | .borCore => Sys2Proof.Machine.execBorCore s
  | .therm => Sys2Proof.Machine.execTherm s
  | .refclkLoss => Sys2Proof.Machine.execRefclkLoss s
  | .pllUnlock k => Sys2Proof.Machine.execPllUnlock k s
  | .holdoverTimeout => Sys2Proof.Machine.execHoldoverTimeout s
  | .pllRelock k => Sys2Proof.Machine.execPllRelock k s
  | .pin => Sys2Proof.Machine.execPin s
  | .chiprst => Sys2Proof.Machine.execChiprst s
  | .resetRelease k => Sys2Proof.Machine.execResetRelease k s
  | .kettleResetRelease => Sys2Proof.Machine.execKettleResetRelease s
  | .supplyLoss k present => Sys2Proof.Machine.execSupplyLoss k present s
  | .up n => Sys2Proof.Machine.execUp n s
  | .inserv n => Sys2Proof.Machine.execInserv n s
  | .down n cut => Sys2Proof.Machine.execDown n cut s
  | .lqUpdate n m corr unc sym => Sys2Proof.Machine.execLqUpdate n m corr unc sym s
  | .cableGo p n => Sys2Proof.Machine.execCableGo p n s
  | .cableDone n result dist => Sys2Proof.Machine.execCableDone n result dist s
  | .rxOther n long sof => Sys2Proof.Machine.execRxOther n long s sof
  | .frameForward port f => Sys2Proof.Machine.execFrameForward port f s
  | .pourCompare port f => Sys2Proof.Machine.execPourCompare port f s
  | .serviceFrameReceive port f => Sys2Proof.Machine.execServiceFrameReceive port f s
  | .uplinkChunk port f => Sys2Proof.Machine.execUplinkChunk port f s
  | .desc port f => Sys2Proof.Machine.execDesc port f s
  | .npbAck port f => Sys2Proof.Machine.execNpbAck port f s
  | .nodeLost g k => Sys2Proof.Machine.execNodeLost g k s
  | .mbxTxGo p g v => Sys2Proof.Machine.execMbxTxGo p g v s
  | .mbxTxAbort p g v => Sys2Proof.Machine.execMbxTxAbort p g v s
  | .mbxRxFree p g => Sys2Proof.Machine.execMbxRxFree p g s
  | .mbxTimeout g => Sys2Proof.Machine.execMbxTimeout g s
  | .mbxRxTimeout g => Sys2Proof.Machine.execMbxRxTimeout g s
  | .delayReqSend g => Sys2Proof.Machine.execDelayReqSend g s
  | .delayReqReceive port f => Sys2Proof.Machine.execDelayReqReceive port f s
  | .delayRespSend g => Sys2Proof.Machine.execDelayRespSend g s
  | .delayRespReceive port f => Sys2Proof.Machine.execDelayRespReceive port f s
  | .mcGo p target ann => Sys2Proof.Machine.execMcGo p target ann s
  | .mcAbort p target ann => Sys2Proof.Machine.execMcAbort p target ann s
  | .listenEnd => Sys2Proof.Machine.execListenEnd s
  | .coldstartLaunch => Sys2Proof.Machine.execColdstartLaunch s
  | .coldstartEnd => Sys2Proof.Machine.execColdstartEnd s
  | .coldstartReceive port f => Sys2Proof.Machine.execColdstartReceive port f s
  | .extendedListenEnd => Sys2Proof.Machine.execExtendedListenEnd s
  | .helloSend => Sys2Proof.Machine.execHelloSend s
  | .hello x part rev id role lstate sstate => Sys2Proof.Machine.execHello x part rev id role lstate sstate s
  | .sealMsg x m ok => Sys2Proof.Machine.execSeal x m ok s
  | .tickMessage x no role id samples => Sys2Proof.Machine.execTickMessage x no role id samples s
  | .relay x ok g miss srcB recs crc => Sys2Proof.Machine.execRelay x ok g miss srcB recs s crc
  | .report x g mism digests => Sys2Proof.Machine.execReport x g mism digests s
  | .verdict a => Sys2Proof.Machine.execVerdict a s
  | .entry x e => Sys2Proof.Machine.execEntry x e s
  | .claim x h recl => Sys2Proof.Machine.execClaim x h recl s
  | .catchMsg x l => Sys2Proof.Machine.execCatch x l s
  | .catchSend l => Sys2Proof.Machine.execCatchSend l s
  | .standbyLinkDown => Sys2Proof.Machine.execStandbyLinkDown s
  | .takeover => Sys2Proof.Machine.execTakeover s
  | .handover p => Sys2Proof.Machine.execHandover p s
  | .rejoin p => Sys2Proof.Machine.execRejoin p s
  | .roleWrite p v => Sys2Proof.Machine.execRoleWrite p v s
  | .deposed port f => Sys2Proof.Machine.execDeposed port f s
  | .oldTenure port f => Sys2Proof.Machine.execOldTenure port f s
  | .pcieMemoryRequest r => Sys2Proof.Machine.execPcieMemoryRequest r s
  | .hotReset down => Sys2Proof.Machine.execHotReset down s
  | .qspiRead a issued delivered => Sys2Proof.Machine.execQspiRead a issued delivered s
  | .qread a issued delivered => Sys2Proof.Machine.execQread a issued delivered s
  | .qspiWrite a words tail => Sys2Proof.Machine.execQspiWrite a words tail s
  | .qwrite a words tail => Sys2Proof.Machine.execQwrite a words tail s
  | .qspiStatus n => Sys2Proof.Machine.execQspiStatus s n
  | .qspiId => Sys2Proof.Machine.execQspiId s
  | .qspiErr op a n => Sys2Proof.Machine.execQspiErr s op a n
  | .eoi p v => Sys2Proof.Machine.execEoi p v s
  | .msixMessage v => Sys2Proof.Machine.execMsixMessage v s
  | .leafPctlClr p n freeze => Sys2Proof.Machine.execLeafPctlClr p n freeze s
  | .chipPctlClr p freeze => Sys2Proof.Machine.execChipPctlClr p freeze s
  | .freeze p leaf freeze => Sys2Proof.Machine.execFreeze p leaf freeze s
  | .pcntLoRead p leaf k => Sys2Proof.Machine.execPcntLoRead p leaf k s
  | .bankSupplyChange b v => Sys2Proof.Machine.execBankSupplyChange b v s
  | .fastObservation => Sys2Proof.Machine.execFastObservation s
  | .pcieLinkUp speed width => Sys2Proof.Machine.execPcieLinkUp speed width s
  | .pcieConfigRequest r => Sys2Proof.Machine.execPcieConfigRequest r s
  | .slLaneLock lane locked => Sys2Proof.Machine.execSlLaneLock lane locked s
  | .ptpMessageSend bytes speed report => Sys2Proof.Machine.execPtpMessageSend bytes speed report s
  | .kettleRestartDone => Sys2Proof.Machine.execKettleRestartDone s

end Sys2Proof.Machine
end

