-- ==== Sys2Proof/Machine/Step.lean ====
section
/-! DEFINITION. One step: the command at the front of the queue, or half a clock period while the queue is empty. -/

namespace Sys2Proof.Machine

/-- The machine's step: the front command on the state with the rest of the queue; half a clock period on an empty queue. -/
def step (s : State) : Host.Outcome State Fault Refusal :=
  match s.pending with
  | [] => .next s.clock
  | i :: l => exec i { s with pending := l }

/-- The state with the command that a table word spells at the front of its queue; no row of the table gives bits, so that no
word spells one. -/
def State.withFetchWord (s : State) (nbits w : Nat) : State :=
  match decodeTableWord nbits w with
  | some i => { s with pending := i :: s.pending }
  | none => s

end Sys2Proof.Machine
end

