-- ==== Sys2Proof/Safety.lean ====
section
/-!
DEFINITION. The words in which claims are stated: when a register access reaches its register, what an effect may change,
and the invariants that every step keeps.
-/

namespace Sys2Proof.Machine

/-! ### Accesses that reach their register -/

/-- A write of a port to the register at `a` reaches it, and the gate of its page leaves no trace (R5, R57, R61, R411). -/
abbrev Reaches (s : State) (p : Port) (a : Nat) : Prop := s.chip.gate p a = (s.chip, true)

/-- A read of a port at the word address `a` finds a register page that is present and whose domain is on. -/
abbrev Reads (s : State) (p : Port) (q : PageAt) (a : Nat) : Prop :=
  pageAt a = some q ∧ s.chip.reach p = true ∧ s.chip.absent q.page.type q.inst = false ∧
    s.chip.domOn (pageDomain q.page.type) = true

/-- A write that a page turns away where it stands locked: to every register but `PG_LOCK` and `PG_EVT_RAW` (R61). -/
def LocksOut (c : Chip) (p : Port) (a : Nat) : Bool :=
  p.isHost && c.locked (pageBase a) && decide (a % 0x1000 ≠ 0x24 ∧ a % 0x1000 ≠ 0x10)

/-! ### What an effect may change -/

/-- Of the chip nothing differs but registers, with the marks that R432 keeps beside them and the events of this clock period that the
performance counters will count (R441); and of the registers only those of the list. -/
def OnlyRegs (l : List Nat) (c d : Chip) : Prop :=
  d = { c with regs := d.regs, fresh := d.fresh, evNow := d.evNow } ∧ ∀ a, a ∉ l → d.reg a = c.reg a

/-- Of the machine nothing differs but such registers. -/
def RegsOf (l : List Nat) (s t : State) : Prop := t = { s with chip := t.chip } ∧ OnlyRegs l s.chip t.chip

/-- The counts of the performance counters and what lies beside them on their pages (Tables 17.3 and 17.4). -/
def perfReg (a : Nat) : Bool :=
  decide ((0x100 ≤ a ∧ a < 0x200) ∨ (0x20000 ≤ a ∧ a < 0x60000 ∧ 0x100 ≤ a % 0x1000 ∧ a % 0x1000 < 0x140))

/-- The values of this period's events stand in their canonical form, and a chip event of Table 17.6 under no Leaf (R441). -/
def EventsWf (c : Chip) : Prop :=
  Tab.wf (fun _ => 0) c.evNow = true ∧ ∀ e ∈ c.evNow, 0x80 ≤ e.1 / 65 → e.1 % 65 = 64

/-- Two chips are alike but for the events of this clock period that the performance counters will count at its end (R441). -/
def AlikeButPerf (c d : Chip) : Prop := d = { c with evNow := d.evNow }

/-- The machine `t` is `s` with Leaf `n` as `l`, but for events that the performance counters will count: no memory, no other Leaf, no
register of the map, no queue differs. -/
def LeafNow (s t : State) (n : Nat) (l : Leaf) : Prop :=
  t = { s with chip := t.chip } ∧ AlikeButPerf (s.chip.setLeaf n l) t.chip

/-- An instruction of slot Y (`y`) or slot X completes on Leaf `n`.  Where the open bundle has no instruction for that slot, the machine
is `s` with the Leaf as `l` and the slot taken, and where the instruction ends its bundle the bundle then closes; where it has one, the
command is none of that bundle's and changes nothing (R100). -/
def Issues (s : State) (n : Nat) (y : Bool) (i : Bool → Instr) (l : Leaf) : Prop :=
  ((s.chip.leaf n).used y = false → ∃ t, exec (i false) s = .next t ∧ LeafNow s t n (l.use y) ∧
    exec (i true) s = .next (t.onChip (fun c => c.closeBundle n))) ∧
  ((s.chip.leaf n).used y = true → ∀ last, exec (i last) s = .next s)

/-- R108 in naturals: what a post-increment by `inc` makes of an address register `ak` under the modulo register `amod`.  LEN and BASE have their
low two bits cleared, a LEN that would pass 0x10000 is clipped there, LEN 0 leaves the plain sum, and one correction is made by the low 16 bits of
the sum. -/
def stepMod (ak amod : Nat) (inc : Int) : Nat :=
  let base := amod % 2 ^ 16 - amod % 4
  let len := min (amod / 2 ^ 16 - amod / 2 ^ 16 % 4) (0x10000 - base)
  let n := ((ak + inc) % 2 ^ 32).toNat
  if len = 0 then n
  else if base + len ≤ n % 2 ^ 16 then n - len
  else if n % 2 ^ 16 < base then (n + len) % 2 ^ 32
  else n

/-- The address of a memory operand: the register itself for a post-increment, else the sum with the offset modulo 2^32 (R142). -/
def addrOf (l : Leaf) (a : Nat) (post : Bool) (k : Int) : Nat :=
  if post then (l.rdA a).toNat else (((l.rdA a).toNat + k) % 2 ^ 32).toNat

/-- The address register after the access of a post-increment (R108, R142). -/
def stepped (l : Leaf) (a : Nat) (post : Bool) (k : Int) : Leaf :=
  if post then l.putA a (BitVec.ofNat 32 (stepMod (l.rdA a).toNat (l.rdAmod a).toNat k)) else l

/-- The Pot whose shared data memory a Leaf address of Leaf `n` names, with the address in the debug window (Tables 4.4 and 4.5). -/
def potOf (n a : Nat) : Option (Nat × Nat) :=
  if 0x80000 ≤ a ∧ a < 0x100000 then some (n / 8, 0x1400000 + n / 8 * 0x80000 + (a - 0x80000))
  else if 0x1000000 ≤ a ∧ a < 0x1400000 then some ((a - 0x1000000) / 0x80000, 0x1400000 + (a - 0x1000000))
  else none

/-- The access faults of R123: an address outside Table 4.4, one that is not aligned to its size, a Pot that is absent or unpowered. -/
abbrev AccessFault (c : Chip) (n a w : Nat) : Prop :=
  a % w ≠ 0 ∨ (match potOf n a with
    | some x => decide ((c.pot x.1).state = 0)
    | none => !decide (a < 0x8000 ∨ (0x10000 ≤ a ∧ a < 0x10100))) = true

/-- The one error in all memories lies in a word, of `unit` bytes, that an access to `w` bytes from `k` up touches. -/
def ErrAt (c : Chip) (k w unit : Nat) (two : Bool) : Prop :=
  ∃ e, c.ecc = [(e, two)] ∧ ∃ j, j < w ∧ e / unit = (k + j) / unit

/-- An access of Leaf `n` to `w` bytes at a Leaf address meets no error of check bits (R125, R178). -/
def NoErr (c : Chip) (n a w : Nat) : Bool :=
  match placeOf n a with
  | .loc k => !c.meets k w 4 true && !c.meets k w 4 false
  | .shared _ k => !c.meets k w 8 true && !c.meets k w 8 false
  | _ => true

/-- No word of a memory holds a double-bit error (R125, R178). -/
abbrev Chip.NoDouble (c : Chip) : Prop := ∀ e ∈ c.ecc, e.2 = false

/-- Outside the `w` bytes from `a` up, every byte of memory reads as before. -/
def MemOutside (c d : Chip) (a w : Nat) : Prop := ∀ x, ¬(a ≤ x ∧ x < a + w) → d.byte x = c.byte x

/-- A 32-bit count goes up by one, or stays at all ones (R59, R438). -/
abbrev Counted (c d : Chip) (a : Nat) : Prop := (d.reg a).toNat = min 0xFFFFFFFF ((c.reg a).toNat + 1)

/-- Event bit `i` of the page at `b` stands set (R58). -/
abbrev EventSet (d : Chip) (b i : Nat) : Prop := (d.reg (pgEvtRaw b)).getLsbD i = true

/-- The chip has sent or driven what the list says, in its order, and nothing else. -/
abbrev Sends (c d : Chip) (l : List Out) : Prop := d.out = c.out ++ l

/-- The frame that a segment's head, or a forwarding chip, sends on both ports that have link: on each it starts once the port is free, and its
TXT tells that instant (R83, R265). -/
def bothPorts (c : Chip) (tb : TimeBase) (g : Nat) (l : List Byte) : List Out :=
  (if c.hasLink (2 * g) then [Out.frame (2 * g) true (retime (c.txWait tb (2 * g)) l)] else []) ++
    (if c.hasLink (2 * g + 1) then [Out.frame (2 * g + 1) true (retime (c.txWait tb (2 * g + 1)) l)] else [])

/-! ### Invariants -/

/-- The canonical form of the memory. -/
abbrev Memory.wf (m : List Host.Cell) : Bool := Tab.wf (fun _ => 0#8) m

/-- A number of 256 bits loses no bit. -/
def bitsKept (x y : BitVec 256) : Bool := decide (x &&& y = x)

/-- What the OTP and the flash of the Kettle keep through every step (R448, R449, R467): the flash stands in its canonical
form, and so does the SRAM, the three copies of the rollback counter stand, and the key hash fits its 256 bits. -/
def Kettle.wf (k : Kettle) : Bool :=
  Tab.wf (fun _ => 0xFF#8) k.flash && Tab.wf (fun _ => 0#8) k.sram && decide (k.otp.roll.length = 3) && decide (k.otp.keyHash1 < 2 ^ 256)

/-- The OTP after a step holds what it held: identity, unit ID and trims, a key hash that is programmed, and every bit of the rollback
counter that is set (R449). -/
def otpKept (k l : Kettle) : Bool :=
  decide (l.otp.chipId = k.otp.chipId ∧ l.otp.unitId = k.otp.unitId ∧ l.otp.trims = k.otp.trims) &&
  (decide (k.otp.keyHash1 = 0) || decide (l.otp.keyHash1 = k.otp.keyHash1)) &&
  (k.otp.roll.zip l.otp.roll).all (fun e => bitsKept e.1 e.2)

end Sys2Proof.Machine
end

