-- ==== Sys2Proof/Certificates/Slice0/Obligations.lean ====
section
/-!
DEFINITION. The statements about the model.  The rules of the manual come first by block; a statement that rests on a choice of
the model says so.
-/

section

open Sys2Proof Sys2Proof.Machine

/-! ### Commands and the queue -/

/-- A step with a command in front of the queue is that command on the state with the rest of the queue (the model's own
rule of how commands come to run). -/
def Obligations.StepRunsFrontCommand : Prop :=
  ∀ (s : State) (i : Instr) (rest : List Instr),
    step { s with pending := i :: rest } = exec i { s with pending := rest }

/-- No command stops: each answers a next state, whose waiting commands are those of the state it ran on. -/
def Obligations.EveryCommandKeepsQueue : Prop :=
  ∀ (s : State) (i : Instr), ∃ t, exec i s = .next t ∧ t.pending = s.pending

/-- What stands at the release of a power-on reset (R471, R476, R477): every register reads the reset value of its
field table but SF_STAT of the two inbound FIFOs, whose FLOW level stands at 1 (R388), every byte of memory reads 0 (the model's choice, log entry 3), no write is staged or captured, no Leaf
and no Pot is on, the tick is stopped, the Kettle is held, and no command waits. -/
def Obligations.ResetState : Prop :=
  let s := State.reset
  s.pending = [] ∧ (∀ a, a ≠ SF.SF_STAT 0 → a ≠ SF.SF_STAT 1 → s.chip.reg a = regReset a) ∧ (∀ a, s.chip.byte a = 0#8) ∧
    s.chip.cm.staged = [] ∧ s.chip.cm.units = [] ∧ s.chip.tg.running = false ∧ s.chip.tg.start = none ∧
    (∀ n, (s.chip.leaf n).state = 0) ∧ (∀ p, (s.chip.pot p).state = 0) ∧
    s.chip.rst.kettleUp = false ∧ s.chip.rst.held = [] ∧ s.tb.sec = 0#48 ∧ s.tb.ns = 0 ∧ s.tb.fast = 0#32

/-! ### Accesses to registers (R47 to R61) -/

/-- R61, with R5, R57 and R411: a write reaches its register where the page is present, its domain on, the page not locked to it and not settling;
a locked page discards it, sets LOCK_VIOL and counts in PG_ERRCNT, and the register stays; a page whose domain is off
counts a write of a host bus in DOMAIN_OFF; an absent instance and a page that settles after a soft reset ignore it.
R60: locks do not bind the Kettle; at reset the PWR, RST, CLK, KTL and STBY pages are locked and no other page. -/
def Obligations.WriteGate : Prop :=
  ∀ (s : State) (p : Port) (q : PageAt) (a : Nat), pageAt a = some q → s.chip.reach p = true →
    let c := s.chip
    let here := c.absent q.page.type q.inst = false
    let powered := c.domOn (pageDomain q.page.type) = true
    (here → powered → LocksOut c p a = false → c.settling.contains (pageBase a) = false → Reaches s p a) ∧
    (here → powered → LocksOut c p a = true → ∀ f, ∃ d, c.gated p a f = d ∧
      (d.reg (pgEvtRaw (pageBase a))).getLsbD 30 = true ∧
      OnlyRegs [pgEvtRaw (pageBase a), pgErrcnt (pageBase a)] c d ∧
      (d.reg (pgErrcnt (pageBase a))).toNat = min 0xFFFFFFFF ((c.reg (pgErrcnt (pageBase a))).toNat + 1)) ∧
    (here → powered → LocksOut c p a = false → c.settling.contains (pageBase a) = true → ∀ f, c.gated p a f = c) ∧
    (here → ¬powered → p.isBus = true → ∀ f, c.gated p a f = c.trouble HOSTIF.DOMAIN_OFF) ∧
    (here → ¬powered → p.isBus = false → ∀ f, c.gated p a f = c) ∧
    (¬here → ∀ f, c.gated p a f = c) ∧
    (p = .kettle → LocksOut c p a = false) ∧
    State.reset.chip.locked (pageBase a) = decide (q.page.type ∈ [0x05, 0x06, 0x07, 0x0B, 0x0C])

/-- R49, R432: on the pages whose registers have no effect of their own (RST, CLK, EVX, SEQ), a write gives the RW fields its value
and clears the W1C bits it names but for those that occurred in the same clock period; every other field, and every other register,
stays; a write of a W1C register by its own command does the same. -/
def Obligations.PlainRegisterWrite : Prop :=
  ∀ (s : State) (p : Port) (q : PageAt) (a : Nat) (v : Word),
    pageAt a = some q → q.page.type ∈ [0x06, 0x07, 0x0F, 0x18] → 0x40 ≤ q.off → a % 4 = 0 → Reaches s p a →
    maskOf (fldsAt q) (fun k => decide (k = .rwc)) = 0#32 →
    let rw := maskOf (fldsAt q) (fun k => decide (k = .rw))
    let w1c := maskOf (fldsAt q) (fun k => decide (k = .w1c))
    let new := ((s.chip.reg a &&& ~~~rw) ||| (v &&& rw)) &&& ~~~(w1c &&& v &&& ~~~(Tab.get (fun _ => 0#32) s.chip.fresh a))
    (∃ t, exec (.registerWrite p a v) s = .next t ∧ t.chip.reg a = new ∧ RegsOf [a] s t) ∧
    (hasField a .w1c = true → ∃ t, exec (.w1cWrite p a v) s = .next t ∧ t.chip.reg a = new ∧ RegsOf [a] s t)

/-- R63, R71: a write of a register whose fields are all RWC, on the pages where writes have no effect of their own, changes no register:
it takes the place of what is staged for the register, as a whole word, or on an AUTO page is captured at once as a unit of its own.
(Where the chip is head and paired, the unit is also sent to the standby.) -/
def Obligations.StagedWrite : Prop :=
  ∀ (s : State) (p : Port) (q : PageAt) (a : Nat) (v : Word),
    pageAt a = some q → q.page.type ∈ [0x0F, 0x18] → 0x40 ≤ q.off → a % 4 = 0 → Reaches s p a →
    maskOf (fldsAt q) (fun k => decide (k = .rwc)) ≠ 0#32 →
    maskOf (fldsAt q) (fun k => decide (k = .rw ∨ k = .w1c)) = 0#32 →
    (s.chip.auto (pageBase a) = false → exec (.rwcWrite p a v) s = .next (s.onChip (fun c =>
      c.modCm (fun m => { m with staged := Tab.set (fun _ => none) m.staged a (some v) })))) ∧
    (s.chip.auto (pageBase a) = true → s.chip.stby.paired = false → exec (.rwcWrite p a v) s = .next (s.onChip (fun c =>
      c.modCm (fun m => { m with
        units := m.units ++ [⟨.auto, false, c.dueNow s.tb, m.seq, s.tb.fast, [(a, some v)]⟩], seq := m.seq + 1 }))))

/-- R51: a read of the low word of a pair returns it and latches the high word for the port; a read of NS latches both words of
the seconds, which the next reads return; a write of the low word of a
writable pair is held for the port; a write of the high word stores both halves together (R90: TICK_NO only while no tick runs or is pending;
R421: the base of a ring only while its channel is disabled), or, with no low word held for it,
is discarded and counted in PARTIAL_WR; R444: the LO word of a performance counter is such a low word. -/
def Obligations.RegisterPairs : Prop :=
  (∀ (s : State) (p : Port) (q h : PageAt) (a : Nat), a % 4 = 0 → Reads s p q a → pageAt (a + 4) = some h →
    pairLow q.page.type q.off = true → (a = TIME.SEC_LO → s.chip.latched p a = none) →
    ∃ t, exec (.pairLowRead p a) s = .next t ∧ (t.chip.port p).rdata = s.view q a ∧
      t.chip.latched p (a + 4) = some (s.view h (a + 4)) ∧
      t = s.onChip (fun c => { c with ports := t.chip.ports }) ∧ (∀ r, r ≠ p → t.chip.port r = s.chip.port r)) ∧
  (∀ (s : State) (p : Port) (q : PageAt), Reads s p q TIME.NS →
    ∃ t, exec (.pairLowRead p TIME.NS) s = .next t ∧ (t.chip.port p).rdata = s.view q TIME.NS ∧
      t.chip.latched p TIME.SEC_LO = some (s.tb.sec.setWidth 32) ∧
      t.chip.latched p TIME.SEC_HI = some (BitVec.ofNat 32 (s.tb.sec.toNat / 2 ^ 32)) ∧
      t = s.onChip (fun c => { c with ports := t.chip.ports })) ∧
  (∀ (s : State) (p : Port) (q : PageAt) (w : Word), Reads s p q TIME.SEC_LO → s.chip.latched p TIME.SEC_LO = some w →
    ∃ t, exec (.pairLowRead p TIME.SEC_LO) s = .next t ∧ (t.chip.port p).rdata = w ∧
      t.chip.latched p TIME.SEC_LO = none ∧ t.chip.latched p TIME.SEC_HI = s.chip.latched p TIME.SEC_HI) ∧
  (∀ (s : State) (p : Port) (a : Nat) (v : Word), a % 4 = 0 → isPairWritable a = true → Reaches s p a →
    exec (.pairLowWrite p a v) s = .next (s.onChip (fun c => c.modPort p (fun t => { t with held := some (a, v) })))) ∧
  (∀ (s : State) (p : Port) (q : PageAt) (a : Nat) (lo hi : Word), a % 4 = 0 → pageAt a = some q → pairWritable q.page.type q.off = true →
    Reaches s p (a + 4) → (s.chip.port p).held = some (a, lo) →
    let c := s.chip
    let ring := (q.off - 0x100) / 0x20
    let word := fun (b : Nat) (v : Word) =>
      let rw := maskOf (fldsOf b) (fun k => decide (k = .rw))
      (c.reg b &&& ~~~rw) ||| (v &&& rw)
    let tickNo := a = TICK.TICK_NO_LO
    let busy := q.page.type = 0x09 ∧ c.dmaEn ring = true
    ∃ t, exec (.pairHighWrite p (a + 4) hi) s = .next t ∧ (t.chip.port p).held = none ∧
      (¬tickNo → ¬busy → t.chip.reg a = word a lo ∧ t.chip.reg (a + 4) = word (a + 4) hi ∧ RegsOf [a, a + 4] { s with chip := { c with ports := t.chip.ports } } t) ∧
      (tickNo → c.noTick = true → t.chip.tickNo = lo.toNat + 2 ^ 32 * hi.toNat ∧ t.chip.regs = c.regs) ∧
      (tickNo → c.noTick = false → t.chip.tg = c.tg ∧ EventSet t.chip pgTick 10) ∧
      (busy → t.chip.reg a = c.reg a ∧ t.chip.reg (a + 4) = c.reg (a + 4) ∧ Counted c t.chip (HOSTIF.ERR ring) ∧ EventSet t.chip pgHostif (8 + ring))) ∧
  (∀ (s : State) (p : Port) (a : Nat) (v : Word), a % 4 = 0 → 4 ≤ a → isPairWritable (a - 4) = true → Reaches s p a →
    (∀ lo, (s.chip.port p).held ≠ some (a - 4, lo)) →
    exec (.pairHighWrite p a v) s = .next (s.onChip (fun c => c.trouble HOSTIF.PARTIAL_WR))) ∧
  (∀ (s : State) (p : Port) (q : PageAt) (k : Nat), k < 16 → Reads s p q (CHIP.CCNT_LO k) → s.chip.settling.contains 0 = false →
    ∃ t, exec (.pcntLoRead p none k) s = .next t ∧ (t.chip.port p).rdata = s.chip.reg (CHIP.CCNT_LO k) ∧
      t.chip.latched p (CHIP.CCNT_HI k) = some (s.chip.reg (CHIP.CCNT_HI k))) ∧
  (∀ (s : State) (p : Port) (q : PageAt) (n k : Nat), n < 64 → k < 4 → Reads s p q (LEAF.PCNT_LO n k) →
    s.chip.settling.contains (pgLeaf n) = false →
    ∃ t, exec (.pcntLoRead p (some n) k) s = .next t ∧ (t.chip.port p).rdata = s.chip.reg (LEAF.PCNT_LO n k) ∧
      t.chip.latched p (LEAF.PCNT_HI n k) = some (s.chip.reg (LEAF.PCNT_HI n k)))

/-- R49, R54, R59, R439: a read of any register with an RC field, or of a trouble counter or PG_ERRCNT of a page with ERR_RC, returns it and gives those
fields their reset values (0 in every register but SLACK_MIN and LQ_LOWEST), and nothing else of the machine changes; PEAK of a Pot starts again
at the cups takeable then, and LQ_LOWEST of a port with link at its LQ; an access to an unmapped address counts in UNMAPPED with its
event, reads 0, and writes nothing. -/
def Obligations.ClearingAndUnmappedReads : Prop :=
  (∀ (s : State) (p : Port) (q : PageAt) (a : Nat), a % 4 = 0 → Reads s p q a → s.chip.rcMask q (pageBase a) ≠ 0#32 →
    let c := s.chip
    let m := c.rcMask q (pageBase a)
    let peak := q.page.type = 0x10 ∧ a = POT.QLEN q.inst
    let lowest := q.page.type = 0x13 ∧ a = LP.LQ_LOWEST q.inst
    ∃ t, exec (.rcRead p a) s = .next t ∧ (t.chip.port p).rdata = s.view q a ∧
      (¬peak → ¬(lowest ∧ c.hasLink q.inst = true) → t.chip.reg a = (c.reg a &&& ~~~m) ||| ((if q.off < 0x40 then 0#32 else regReset a) &&& m)) ∧
      (peak → t.chip.rf a 23 16 = min 255 (c.takeable q.inst).length ∧ t.chip.rf a 15 0 = c.rf a 15 0) ∧
      (lowest → c.hasLink q.inst = true → t.chip.rf a 2 0 = min (c.lp q.inst).lq 7) ∧
      (∀ b, b ≠ a → t.chip.reg b = c.reg b) ∧ (∀ r, r ≠ p → t.chip.port r = c.port r) ∧
      t = s.onChip (fun c => { c with regs := t.chip.regs, ports := t.chip.ports })) ∧
  (∀ (s : State) (p : Port) (a : Nat), a % 4 = 0 → zoneOf a = .unmapped → s.chip.reach p = true →
    (∀ v, exec (.unmappedAccess p a (some v)) s =
      .next (s.onChip (fun c => (c.trouble HOSTIF.UNMAPPED).evt pgHostif 22))) ∧
    exec (.unmappedAccess p a none) s = .next (s.onChip (fun c =>
      ((c.trouble HOSTIF.UNMAPPED).evt pgHostif 22).modPort p (fun t => { t with rdata := 0#32 }))))

/-- R127, R128: the debug window writes a Leaf's data memory while the Leaf is in HALT or QUAR, and the program memory and the shared data memory of
a Pot that is not OFF while every Leaf of the Pot is in HALT or QUAR; otherwise it writes nothing and sets
DBG_REF, on the Leaf's page or the Pot's; a written word of Pot memory keeps no error, and one that a double-bit error had spoilt has its other half 0 (the
model's reading: log entry 91); a read returns the word as it stands,
corrects and counts a single-bit error, and returns 0 for a double-bit one, which puts the Pot into QUAR; R371: the Caddy window writes a page that no
unit and no signature ring uses. -/
def Obligations.MemoryWindows : Prop :=
  ∀ (s : State) (p : Port) (n o : Nat) (v : Word), s.chip.reach p = true →
    let a := 0x1000000 + n * 0x8000 + 4 * o
    let on := s.chip.domOn (4 + n / 8) = true
    let k := 0x400000 + 4 * o
    (n < s.chip.nLeaves → o < 0x2000 → on → (s.chip.leaf n).state = 1 ∨ (s.chip.leaf n).state = 3 →
      ∃ t, exec (.debugWindowWrite p a v) s = .next t ∧ t.chip.loadLE a 4 = v.toNat ∧ MemOutside s.chip t.chip a 4 ∧
        t.chip.regs = s.chip.regs ∧ t.chip.leaves = s.chip.leaves ∧ t.tb = s.tb ∧ t.ktl = s.ktl) ∧
    (n < s.chip.nLeaves → o < 0x2000 → on → (s.chip.leaf n).state = 2 →
      exec (.debugWindowWrite p a v) s = .next (s.onChip (fun c => c.evt (pgLeaf n) 4))) ∧
    (n < s.chip.nLeaves → o < 0x2000 → on → (s.chip.leaf n).state ≠ 0 → s.chip.eccAt a 4 = none →
      exec (.debugWindowRead p a) s = .next (s.onChip (fun c =>
        c.modPort p (fun t => { t with rdata := BitVec.ofNat 32 (s.chip.loadLE a 4) })))) ∧
    (∀ (prog : Bool) (i : Nat), n < s.chip.nPots → i < (if prog then 0x10000 else 0x20000) → s.chip.domOn (4 + n) = true →
      let b := if prog then progMem n (4 * i) else potMem n (4 * i)
      let c := s.chip
      let ok := (c.pot n).state ≠ 0 ∧ c.potQuiet n = true
      (ok → ∃ t, exec (.debugWindowWrite p b v) s = .next t ∧ t.chip.loadLE b 4 = v.toNat ∧ t.chip.eccAt b 8 = none ∧ t.chip.regs = c.regs ∧
        t.chip.leaves = c.leaves ∧ t.chip.pots = c.pots ∧
        (c.eccAt b 8 ≠ some true → MemOutside c t.chip b 4) ∧
        (c.eccAt b 8 = some true → MemOutside c t.chip (b / 8 * 8) 8 ∧ t.chip.loadLE (b / 8 * 8 + 4 - b % 8) 4 = 0)) ∧
      (¬ok → exec (.debugWindowWrite p b v) s = .next (s.onChip (fun c => c.evt (pgPot n) 1))) ∧
      ((c.pot n).state ≠ 0 → ∃ t, exec (.debugWindowRead p b) s = .next t ∧
        (c.eccAt b 8 = none → (t.chip.port p).rdata = BitVec.ofNat 32 (c.loadLE b 4) ∧ t = s.onChip (fun c => { c with ports := t.chip.ports })) ∧
        (c.eccAt b 8 = some false → (t.chip.port p).rdata = BitVec.ofNat 32 (c.loadLE b 4) ∧ t.chip.eccAt b 8 = none ∧ t.chip.mem = c.mem ∧
          Counted c t.chip (if prog then POT.PMEM_CE n else POT.SMEM_CE n)) ∧
        (c.eccAt b 8 = some true → (t.chip.port p).rdata = 0#32 ∧ (t.chip.pot n).state = 2))) ∧
    (o < 0x200000 → s.chip.domOn 3 = true → s.chip.pageInUse (4 * o / 0x1000) = false →
      ∃ t, exec (.caddyWindowWrite p (4 * o) v) s = .next t ∧ t.chip.loadLE k 4 = v.toNat ∧ MemOutside s.chip t.chip k 4 ∧
        t.chip.regs = s.chip.regs) ∧
    (o < 0x200000 → s.chip.domOn 3 = true → s.chip.pageInUse (4 * o / 0x1000) = true →
      ∃ t, exec (.caddyWindowWrite p (4 * o) v) s = .next t ∧ t.chip.mem = s.chip.mem ∧
        (t.chip.reg (pgEvtRaw (pgCu 0))).getLsbD 6 = true)

/-- R60, R61, R58: a write of PG_LOCK unlocks the page with the key 0x5A17 and locks it with any other value; a write of
PG_EVT_SET sets the event bits that the page has and nothing else. -/
def Obligations.LockAndEventSet : Prop :=
  ∀ (s : State) (p : Port) (b : Nat) (v : Word),
    (Reaches s p (pgLock b) → exec (.pgLockWrite p b v) s = .next (s.onChip (fun c =>
      c.setReg (pgLock b) (if v.toNat % 2 ^ 16 = 0x5A17 then 0#32 else 0x80000000#32)))) ∧
    (∀ q, pageAt (b + 0x18) = some q → Reaches s p (b + 0x18) → exec (.pgEvtSetWrite p b v) s = .next (s.onChip (fun c =>
      c.setReg (pgEvtRaw b) (c.reg (pgEvtRaw b) |||
        (v &&& maskOf (headerFlds q.page.type q.inst 0x10) (fun _ => true))))))

/-- R57: a soft reset of a page whose EN in force is 0 and which holds no captured write gives its registers from 0x040 up their reset
values on the part in every field that is not RWC, but for FS of an axis, which its reset unit clears, and for the bits that show a state which the reset does not
touch (the model's choice, log entry 18), clears its event bits, discards what it has staged, captures a reset unit where the page is STAGED, and lets
the page settle: so on every page without a block whose state the reset changes beside them; a page that runs or holds captured
writes refuses with SRST_REF and keeps its registers, whatever page it is; the settling ends by its own command. -/
def Obligations.SoftReset : Prop :=
  (∀ (s : State) (p : Port) (h : PageAt) (b : Nat) (v : Word), b % 0x1000 = 0 → pageAt (pgCtrl b) = some h →
    h.page.type ∉ [0x02, 0x03, 0x05, 0x09, 0x0A, 0x0B, 0x11, 0x12, 0x13, 0x14, 0x16, 0x17, 0x18] → Reaches s p (pgCtrl b) →
    s.chip.en b = false → s.chip.hasCaptured b = false →
    let c := s.chip
    ∃ t, exec (.srst p b v) s = .next t ∧
      (∀ q a, pageAt a = some q → pageBase a = b → 0x40 ≤ q.off →
        let m := c.keptBits q.page.type q.off ||| maskOf (fldsAt q) (fun k => decide (k = .rwc)) |||
          (if q.page.type = 0x19 ∧ q.off = 0x54 then 0x80000000#32 else 0#32)
        t.chip.reg a = (c.reg a &&& m) ||| (c.resetOf a &&& ~~~m)) ∧
      (∀ a, pageBase a ≠ b → t.chip.reg a = c.reg a) ∧
      t.chip.reg (pgEvtRaw b) = 0#32 ∧ (∀ e ∈ t.chip.cm.staged, pageBase e.1 ≠ b) ∧ t.chip.settling.contains b = true ∧
      t.chip.cm.units = c.cm.units ++ (if h.page.staged then [⟨.reset b, false, c.dueNow s.tb, c.cm.seq, s.tb.fast, []⟩] else [])) ∧
  (∀ (s : State) (p : Port) (h : PageAt) (b : Nat) (v : Word), b % 0x1000 = 0 → pageAt (pgCtrl b) = some h → Reaches s p (pgCtrl b) →
    (s.chip.en b = true ∨ s.chip.hasCaptured b = true) →
    ∃ t, exec (.srst p b v) s = .next t ∧ (t.chip.reg (pgEvtRaw b)).getLsbD 29 = true ∧ t.chip.settling = s.chip.settling ∧
      (∀ a, pageBase a = b → b + 0x40 ≤ a → t.chip.reg a = s.chip.reg a)) ∧
  (∀ (s : State) (b : Nat), ∃ t, exec (.srstSettle b) s = .next t ∧ t.chip.settling.contains b = false ∧
    (∀ x, x ≠ b → t.chip.settling.contains x = s.chip.settling.contains x) ∧
    t = s.onChip (fun c => { c with settling := t.chip.settling }))

/-- R62, R64 to R66, R72: a commit of one group takes everything that its pages have staged into a unit of the group, due at the next T0 in the commit
window, at the one after it in the guard, and without a tick at once; nothing staged makes no unit.  A GO on a page commits the page's group in the same way. -/
def Obligations.CommitCaptures : Prop :=
  ∀ (s : State) (p : Port) (g b : Nat), g < 16 →
    let mine := s.chip.cm.staged.filter (fun e => decide (s.chip.cgrp (pageBase e.1) = g))
    let rest := s.chip.cm.staged.filter (fun e => !decide (s.chip.cgrp (pageBase e.1) = g))
    let due := if s.chip.tg.running = false ∧ s.chip.tg.start = none then 0
      else if s.chip.tg.running = true then (if (s.tb.fast - s.chip.tg.t0Fast).toNat < s.chip.guardOpen then 1 else 2) else 1
    let taken := s.onChip (fun c => c.modCm (fun m => { m with
      staged := rest, units := m.units ++ [⟨.group g, false, due, m.seq, s.tb.fast, mine⟩], seq := m.seq + 1 }))
    let new := (∀ u ∈ s.chip.cm.units, u.kind = .group g → u.due ≠ due ∨ u.journal = true ∨ due = 0) ∧ s.chip.stby.paired = false
    (Reaches s p CHIP.COMMIT → mine ≠ [] → new → exec (.commit p (BitVec.ofNat 32 (2 ^ g))) s = .next taken) ∧
    (Reaches s p CHIP.COMMIT → mine = [] → exec (.commit p (BitVec.ofNat 32 (2 ^ g))) s = .next s) ∧
    (Reaches s p (b + 0x1C) → s.chip.cgrp b = g → mine ≠ [] → new → exec (.pgCommitGo p b) s = .next taken) ∧
    (Reaches s p (b + 0x1C) → s.chip.cgrp b = g → mine = [] → exec (.pgCommitGo p b) s = .next s)

/-- R66, R67, R69, R72, R180: a second commit of a group that applies at the same T0 joins the group's unit, where its writes replace those of the same registers.  Without a tick a unit applies by itself: here one write of a cup entry of a Pot, which takes
force whole while no Leaf of the Pot runs, and while one runs is refused with reason STATE, the register named.  A unit that is not due, or a tick that runs, leaves everything as it is. -/
def Obligations.UnitsJoinAndApply : Prop :=
  (∀ (s : State) (p : Port) (g : Nat) (u : CUnit), g < 16 → Reaches s p CHIP.COMMIT → s.chip.stby.paired = false →
    let mine := s.chip.cm.staged.filter (fun e => decide (s.chip.cgrp (pageBase e.1) = g))
    s.chip.dueNow s.tb = 1 → s.chip.cm.units = [u] → u.kind = .group g → u.due = 1 → u.journal = false → mine ≠ [] →
    ∃ t w, exec (.commit p (BitVec.ofNat 32 (2 ^ g))) s = .next t ∧ t.chip.cm.units = [w] ∧ w.kind = .group g ∧ w.due = 1 ∧ w.seq = u.seq ∧
      (∀ a, Tab.get (fun _ => none) w.writes a =
        if (mine.any (fun e => decide (e.1 = a))) then Tab.get (fun _ => none) (mergeWrites [] mine) a
        else Tab.get (fun _ => none) u.writes a)) ∧
  (∀ (s : State) (p n : Nat) (v at' : Word), p < 8 →
    let c := s.chip
    let a := POT.ENTRY_FULL p
    let idle := c.tg.running = false ∧ c.tg.start = none
    let new := (c.reg a &&& ~~~0x7FFF#32) ||| (v &&& 0x7FFF#32)
    let one := c.cm.units = [⟨.auto, false, 0, n, at', [(a, some v)]⟩] ∧ c.isStandby = false
    (idle → one → (∀ i, i < 8 → (c.leaf (8 * p + i)).state ≠ 2) → ∃ t, exec .idleUnitApply s = .next t ∧ t.chip.cm.units = [] ∧
      t.chip.reg a = new ∧ t.chip.reg CHIP.COMMIT_OK = c.reg CHIP.COMMIT_OK + 1#32) ∧
    (idle → one → (∃ i, i < 8 ∧ (c.leaf (8 * p + i)).state = 2) → new ≠ c.reg a → ∃ t, exec .idleUnitApply s = .next t ∧
      t.chip.cm.units = [] ∧ t.chip.reg a = c.reg a ∧ t.chip.rf CHIP.COMMIT_LAST 31 28 = 3 ∧ t.chip.reg CHIP.REFUSE_ADDR = BitVec.ofNat 32 a ∧
      Counted c t.chip CHIP.COMMIT_REF ∧ EventSet t.chip (pgPot p) 31 ∧ EventSet t.chip pgChip 0) ∧
    (¬idle ∨ c.cm.units = [] → exec .idleUnitApply s = .next s))

/-! ### Time base (R74 to R80, R85) -/

/-- R76, R79, R99: a write of ADDEND by its owner (a host with SRC = FREE; the Kettle with SRC = PTP while the PTP port is enabled) within its range sets the requested correction, and the one in force while no tick runs; one outside the range is discarded
with ADD_RANGE, one by another port with CTRL_REF. R77: a write of SLEW adds to SLEW_LEFT within one second either way. -/
def Obligations.RateAndSlew : Prop :=
  ∀ (s : State) (p : Port) (v : Word),
    let src := if s.chip.lstate = 4 then 2 else s.chip.rf TIME.TIME_CTRL 5 4
    let owner := (src = 0 ∧ p.isHost = true) ∨ (src = 1 ∧ p = .kettle ∧ s.chip.rb PTP.PTP_CTRL 31 = true)
    let inRange := -4294967 ≤ v.toInt ∧ v.toInt ≤ 4294967
    let sum := s.tb.slewLeft + v.toInt
    let left : Int := if sum < -1000000000 then -1000000000 else if 1000000000 < sum then 1000000000 else sum
    (Reaches s p TIME.ADDEND → owner → inRange → exec (.addendWrite p v) s = .next
      { s with chip := s.chip.setReg TIME.ADDEND v,
               tb := if s.chip.tg.running then { s.tb with keep := false } else { s.tb with addendNow := v.toInt, keep := false } }) ∧
    (Reaches s p TIME.ADDEND → owner → ¬inRange → exec (.addendWrite p v) s = .next (s.onChip (fun c => c.evt pgTime 0))) ∧
    (Reaches s p TIME.ADDEND → ¬owner → inRange → exec (.addendWrite p v) s = .next (s.onChip (fun c => c.evt pgTime 1))) ∧
    (Reaches s p TIME.SLEW → owner → (s.tb.slewLeft = 0 ∨ left ≠ 0) →
      exec (.slewWrite p v) s = .next { s with tb := { s.tb with slewLeft := left } }) ∧
    (Reaches s p TIME.SLEW → owner → s.tb.slewLeft ≠ 0 → left = 0 →
      exec (.slewWrite p v) s = .next { s with tb := { s.tb with slewLeft := 0 }, chip := s.chip.evt pgTime 2 }) ∧
    (Reaches s p TIME.SLEW → ¬owner → exec (.slewWrite p v) s = .next (s.onChip (fun c => c.evt pgTime 1)))

/-- R78 to R80, R85, R99: SET loads the time while no tick runs, beside SNAP only in the following clock period; SNAP latches the quantities of one clock period; a write of TIME_CTRL
gives SRC; MARK stamps its acceptance; the events of a slew that is done and of a wrap of FAST_NS are set once each. -/
def Obligations.TimeCommands : Prop :=
  ∀ (s : State) (p : Port) (v : Word),
    let src := if s.chip.lstate = 4 then 2 else v.toNat / 16 % 4
    let owner := (src = 0 ∧ p.isHost = true) ∨ (src = 1 ∧ p = .kettle ∧ s.chip.rb PTP.PTP_CTRL 31 = true)
    let ns := s.chip.rf TIME.SET_NS 29 0
    let sec := BitVec.ofNat 48 ((s.chip.reg TIME.SET_SEC_LO).toNat + s.chip.rf TIME.SET_SEC_HI 15 0 * 2 ^ 32)
    (Reaches s p TIME.TIME_CTRL → s.chip.tg.running = false → ns ≤ 999999999 → owner →
      ∃ t, exec (.timeSet p v) s = .next t ∧
        t.tb = (if v.getLsbD 0 then { s.tb with setDue := some (sec, ns) } else { s.tb with ns := ns, sec := sec }) ∧
        t.ktl = s.ktl ∧ t.chip.rf TIME.TIME_CTRL 5 4 = v.toNat / 16 % 4) ∧
    (Reaches s p TIME.TIME_CTRL → (s.chip.tg.running = true ∨ 999999999 < s.chip.rf TIME.SET_NS 29 0 ∨ ¬owner) →
      ∃ t, exec (.timeSet p v) s = .next t ∧ t.tb = s.tb ∧ (t.chip.reg (pgEvtRaw pgTime)).getLsbD 1 = true) ∧
    (Reaches s p TIME.TIME_CTRL → ∃ t, exec (.snap p v) s = .next t ∧
      t.chip.reg TIME.SNAP_NS = BitVec.ofNat 32 s.tb.ns ∧ t.chip.reg TIME.SNAP_FAST = s.tb.fast ∧
      t.chip.reg TIME.SNAP_SEC_LO = s.tb.sec.setWidth 32 ∧ t.chip.reg TIME.SNAP_SEC_HI = BitVec.ofNat 32 (s.tb.sec.toNat / 2 ^ 32) ∧
      t.chip.reg TIME.SNAP_TICK_LO = (if s.chip.tg.running then s.chip.tg.tickNo.setWidth 32 else 0#32) ∧
      t.chip.reg TIME.SNAP_OFS = (if s.chip.tg.running then
        BitVec.ofNat 32 ((s.tb.fast - s.chip.tg.t0Fast).toNat % 2 ^ 18) else 0#32)) ∧
    (Reaches s p TIME.TIME_CTRL → v.getLsbD 0 = false → v.getLsbD 1 = false →
      ∃ t, exec (.srcWrite p v) s = .next t ∧ t.chip.rf TIME.TIME_CTRL 5 4 = v.toNat / 16 % 4 ∧ RegsOf [TIME.TIME_CTRL] s t) ∧
    (Reaches s p TIME.MARK → exec (.mark p) s = .next (s.onChip (fun c => c.setReg TIME.MARK_FAST s.tb.fast))) ∧
    (s.tb.slewDue = true → exec .slewDone s = .next
      { s with tb := { s.tb with slewDue := false }, chip := s.chip.evt pgTime 2 }) ∧
    (s.tb.wrapDue = true → exec .wrap s = .next { s with tb := { s.tb with wrapDue := false }, chip := s.chip.evt pgTime 3 }) ∧
    (s.tb.slewDue = false → exec .slewDone s = .next s) ∧ (s.tb.wrapDue = false → exec .wrap s = .next s)

/-- R75, R80: in a period of the 1.0 GHz clock, with the tick's core running, ADDEND_NOW joins the fraction; FAST_NS and TIME_NS advance by 1, by the carry
out of the fraction, and by 1 of the slew where it is due and there was no carry; TIME_NS carries into the seconds at 10^9.
R75, R471: without the core the time base stands still in every clock period.  A SET that waits since the last period loads the time.
R441, R443: of the period that ends, an enabled chip counter that selects CORE_CYCLES in LEVEL mode, and is neither frozen nor shut out by its gate, counts one.
(The machine takes a period in two steps, the second of which queues what has fallen due: the model's choice, log entry 56.) -/
def Obligations.ClockPeriod : Prop :=
  (∀ (s : State), s.pending = [] → s.tb.half = false → s.chip.domOn 2 = true → s.chip.rst.held = [] → s.tb.ns < 1000000000 →
    s.tb.setDue = none → -4294967296 < s.tb.addendNow → s.tb.addendNow < 4294967296 →
    let sum : Int := s.tb.frac.toNat + s.tb.addendNow
    let carry : Int := if sum < 0 then -1 else if 4294967296 ≤ sum then 1 else 0
    let slews := s.chip.slewS ≤ s.tb.slewPhase + 1 ∧ carry = 0 ∧ s.tb.slewLeft ≠ 0
    let adv : Int := 1 + carry + (if slews then (if 0 < s.tb.slewLeft then 1 else -1) else 0)
    ∃ t, step s = .next t ∧
      t.tb.frac = BitVec.ofInt 32 sum ∧ (0 ≤ adv ∧ adv ≤ 2) ∧
      t.tb.fast = s.tb.fast + BitVec.ofInt 32 adv ∧
      (t.tb.ns : Int) + (if t.tb.sec = s.tb.sec then 0 else 1000000000) = s.tb.ns + adv ∧ t.tb.ns < 1000000000 ∧
      (t.tb.sec = s.tb.sec ∨ t.tb.sec = s.tb.sec + 1#48) ∧
      (slews → t.tb.slewLeft = s.tb.slewLeft - (if 0 < s.tb.slewLeft then 1 else -1)) ∧ (¬slews → t.tb.slewLeft = s.tb.slewLeft) ∧
      t.tb.addendNow = s.tb.addendNow ∧ t.tb.half = true ∧ t.ktl = s.ktl) ∧
  (∀ (s : State) (k : Nat), s.pending = [] → s.tb.half = false → s.chip.domOn 1 = true → s.chip.live = true → k < 16 →
    EventsWf s.chip → (∀ e ∈ s.chip.leaves, e.1 < 64) →
    let sel := s.chip.reg (CHIP.CCNT_SEL k)
    let count := fun c : Chip => c.pair (CHIP.CCNT_LO k) (CHIP.CCNT_HI k)
    let from_ := s.chip.rf CHIP.PGATE_OPEN 17 0
    let upTo := s.chip.rf CHIP.PGATE_CLOSE 17 0
    let ofs := s.chip.ofs s.tb
    let inside := s.chip.tg.running = true ∧
      (if from_ ≤ upTo then from_ ≤ ofs ∧ ofs < upTo else from_ ≤ ofs ∨ ofs < upTo)
    let counts := sel.getLsbD 31 = true ∧ s.chip.rb CHIP.PCTL 0 = false ∧ (sel.getLsbD 29 = true → inside)
    sel.extractLsb' 0 8 = 0x80#8 → sel.getLsbD 30 = false →
    ∃ t, step s = .next t ∧ (counts → count t.chip = (count s.chip + 1) % 2 ^ 48) ∧ (¬counts → count t.chip = count s.chip)) ∧
  (∀ (s : State) (sec : BitVec 48) (ns : Nat), s.pending = [] → s.tb.half = false → s.chip.domOn 2 = true → s.chip.rst.held = [] →
    s.tb.setDue = some (sec, ns) → ∃ t, step s = .next t ∧ t.tb.sec = sec ∧ t.tb.ns = ns ∧ t.tb.setDue = none) ∧
  (∀ (s : State), s.pending = [] → s.tb.half = true →
    ∃ t, step s = .next t ∧ t.tb = { s.tb with half := false } ∧ t.ktl = { s.ktl with loaded := t.ktl.loaded } ∧
      (s.ktl.loaded = true → t.ktl = s.ktl) ∧ (s.chip.domOn 2 = false → t.chip = s.chip ∧ t.ktl = s.ktl)) ∧
  (∀ (s : State), s.pending = [] → s.tb.half = false → (s.chip.domOn 2 = false ∨ s.chip.rst.held ≠ []) →
    (∀ e ∈ s.chip.leaves, e.1 < 64) →
    ∃ t, step s = .next t ∧ t.tb = { s.tb with cycle := s.tb.cycle + 1, up := s.tb.up + 1, half := true } ∧ t.ktl = s.ktl ∧
      t.chip = { s.chip with fresh := [], evNow := [], evLast := t.chip.evLast, regs := t.chip.regs, leaves := t.chip.leaves, free := t.chip.free } ∧
      ∀ a, perfReg a = false → t.chip.reg a = s.chip.reg a)

/-! ### Tick (R88 to R93, R306, R310) -/

/-- R90: RUN = 1 with a mode that passes its checks makes a start pending, at START_AT where that lies 1 000 ns to 2^31 ns ahead and otherwise 1 000 ns on; a mode
that fails them is refused with START_REF; it cancels a requested stop; RUN = 0 requests a stop, or ends a pending start, whose waiting units then apply without a tick; RUN = 1 while a tick runs or a start is pending, and RUN = 0 while neither, change nothing. -/
def Obligations.StartAndStop : Prop :=
  ∀ (s : State) (p : Port) (mode : Nat), Reaches s p TICK.TICK_CTRL → mode < 8 →
    let ok := s.chip.rb (TICK.MODE_STAT mode) 31 = true ∧
      ∀ g, g < s.chip.nSegs → s.chip.en (pgSeg g) = true → s.chip.modeValid mode g = true
    let d := (s.chip.reg TICK.START_AT - s.tb.fast).toNat
    let first := if 1000 ≤ d ∧ d < 2 ^ 31 then s.chip.reg TICK.START_AT else s.tb.fast + 1000#32
    (s.chip.tg.running = false → s.chip.tg.start = none → ok → ∃ t, exec (.runStart p mode) s = .next t ∧
      t.chip.tg = { s.chip.tg with start := some first, startMode := mode } ∧
      t.chip.rb TICK.TICK_CTRL 31 = true ∧ t.chip.rf TICK.TICK_CTRL 2 0 = mode ∧
      (∀ a, a ≠ TICK.TICK_CTRL → t.chip.reg a = s.chip.reg a) ∧ t.chip.cm = s.chip.cm ∧ t.tb = s.tb) ∧
    (s.chip.tg.running = false → s.chip.tg.start = none → ¬ok → ∃ t, exec (.runStart p mode) s = .next t ∧
      t.chip.tg = s.chip.tg ∧ (t.chip.reg (pgEvtRaw pgTick)).getLsbD 8 = true ∧ RegsOf [TICK.TICK_CTRL, pgEvtRaw pgTick] s t) ∧
    (s.chip.tg.running = true → s.chip.tg.stopReq = true → ∃ t, exec (.runStart p mode) s = .next t ∧
      t.chip.tg = { s.chip.tg with stopReq := false } ∧ t.chip.rb TICK.TICK_CTRL 31 = true) ∧
    (s.chip.tg.running = true → ∃ t, exec (.runStop p mode) s = .next t ∧
      t.chip.tg = { s.chip.tg with stopReq := true } ∧ t.chip.rb TICK.TICK_CTRL 31 = false ∧ t.chip.cm = s.chip.cm) ∧
    (s.chip.tg.running = false → s.chip.tg.start ≠ none → ∃ t, exec (.runStop p mode) s = .next t ∧
      t.chip.tg = { s.chip.tg with start := none } ∧ t.chip.cm.staged = s.chip.cm.staged ∧
      t.chip.cm.units = s.chip.cm.units.map (fun u => { u with due := 0 })) ∧
    ((s.chip.tg.running = true ∧ s.chip.tg.stopReq = false) ∨ (s.chip.tg.running = false ∧ s.chip.tg.start ≠ none) →
      exec (.runStart p mode) s = .next s) ∧
    (s.chip.tg.running = false → s.chip.tg.start = none → exec (.runStop p mode) s = .next s)

/-- R89, R90: a write of the TICK_NO pair sets the number of the next first T0 while no tick runs and no start is pending, and is otherwise discarded with NO_REF; a write to a mode set
stores the RW fields of its word and judges the set again, and one to the set in force or named in a pending change is discarded with MODE_BUSY.  R50: a write of the reserved word of a set changes nothing. -/
def Obligations.TickRegisters : Prop :=
  ∀ (s : State) (p : Port) (v : Word) (w : DWord) (m j : Nat), m < 8 →
    let a := 0x1100 + 0x20 * m + 4 * j
    let rw := maskOf (fldsOf a) (fun k => decide (k = .rw))
    (Reaches s p TICK.TICK_NO_HI → s.chip.tg.running = false → s.chip.tg.start = none →
      ∃ t, exec (.tickNoWrite p w) s = .next t ∧ t.chip.tg = { s.chip.tg with tickNo := w } ∧ t.chip.regs = s.chip.regs ∧
        (t.chip.port p).held = none) ∧
    (Reaches s p TICK.TICK_NO_HI → (s.chip.tg.running = true ∨ s.chip.tg.start ≠ none) →
      ∃ t, exec (.tickNoWrite p w) s = .next t ∧ t.chip.tg = s.chip.tg ∧ (t.chip.reg (pgEvtRaw pgTick)).getLsbD 10 = true) ∧
    (Reaches s p a → j < 6 → s.chip.modeBusy m = false → ∃ t, exec (.modeSetWrite p m j v) s = .next t ∧
      t.chip.reg a = (s.chip.reg a &&& ~~~rw) ||| (v &&& rw) ∧ RegsOf [a, TICK.MODE_STAT m] s t ∧
      (t.chip.rb (TICK.MODE_STAT m) 31 = true ↔
        let f := fun x : Nat => t.chip.rf x 17 0
        let period := f (TICK.MODE_PERIOD m); let ofs := f (TICK.MODE_GATHER_OFS m); let late := f (TICK.MODE_GATHER_LATE m)
        let close := f (TICK.MODE_POUR_CLOSE m); let svc := f (TICK.MODE_SVC_OPEN m)
        let count := t.chip.rf (TICK.MODE_SVC m) 18 16; let slot := t.chip.rf (TICK.MODE_SVC m) 11 0
        20834 ≤ period ∧ period ≤ 250000 ∧ 200 ≤ ofs ∧ ofs + 1000 ≤ period ∧ 600 ≤ slot ∧ slot ≤ 4000 ∧ 1 ≤ count ∧ count ≤ 4 ∧
        ofs % 8 = 0 ∧ late % 8 = 0 ∧ close % 8 = 0 ∧ svc % 8 = 0 ∧ slot % 8 = 0 ∧
        ofs < late ∧ late + 64 ≤ close ∧ close + 500 ≤ svc ∧ svc + count * slot + 500 ≤ period)) ∧
    (Reaches s p a → j ≤ 6 → s.chip.modeBusy m = true →
      exec (.modeSetWrite p m j v) s = .next (s.onChip (fun c => c.evt pgTick 9))) ∧
    (Reaches s p a → j = 7 → exec (.modeSetWrite p m j v) s = .next s)

/-- R306, R310: a request for a change of mode that meets every condition becomes the pending change, REQUESTED; one whose target is the mode in force is refused with reason 4 and counted;
a request while a change is pending is refused with reason 3 and leaves it pending; an abandonment by the host before the decision ends the change with reason 7. -/
def Obligations.ModeChangeRequests : Prop :=
  ∀ (s : State) (p : Port) (target ann : Nat), Reaches s p TICK.MC_CTRL → target < 8 → ann < 32 → s.chip.stby.paired = false →
    s.chip.tg.running = true →
    let n := s.chip.pair TICK.MC_TICK_LO TICK.MC_TICK_HI
    let now := s.chip.tg.tickNo.toNat
    let four := s.chip.anyCycle4 target
    (s.chip.tg.change = none → target ≠ s.chip.tg.mode → s.chip.modeOk target = true →
      (∀ g ∈ s.chip.runSegs, s.chip.modeValid target g = true) → 3 ≤ ann → ann ≤ 16 → now + ann < n → n < now + 2 ^ 20 →
      (four = true → n % 4 = 0 ∧ 12 ≤ ann) → s.chip.lstate ≠ 4 →
      ∃ t, exec (.mcGo p target ann) s = .next t ∧
        t.chip.tg = { s.chip.tg with change := some ⟨target, BitVec.ofNat 64 n, ann, four, false⟩ } ∧
        t.chip.rf TICK.MC_STAT 31 28 = 1 ∧ t.chip.rf TICK.MC_STAT 27 24 = 0 ∧ t.chip.rf TICK.MC_STAT 2 0 = target) ∧
    (s.chip.tg.change = none → target = s.chip.tg.mode →
      ∃ t, exec (.mcGo p target ann) s = .next t ∧ t.chip.tg = s.chip.tg ∧ t.chip.rf TICK.MC_STAT 31 28 = 4 ∧
        t.chip.rf TICK.MC_STAT 27 24 = 4 ∧ (t.chip.reg (pgEvtRaw pgTick)).getLsbD 12 = true) ∧
    (s.chip.tg.change ≠ none →
      ∃ t, exec (.mcGo p target ann) s = .next t ∧ t.chip.tg = s.chip.tg ∧ t.chip.rf TICK.MC_STAT 31 28 = s.chip.rf TICK.MC_STAT 31 28 ∧
        t.chip.rf TICK.MC_STAT 27 24 = 3 ∧ t.chip.rf TICK.MC_STAT 2 0 = target ∧ Counted s.chip t.chip TICK.MC_ABANDON) ∧
    (∀ x, s.chip.tg.change = some x → x.confirmed = false →
      ∃ t, exec (.mcAbort p target ann) s = .next t ∧ t.chip.tg = { s.chip.tg with change := none } ∧
        t.chip.rf TICK.MC_STAT 31 28 = 4 ∧ t.chip.rf TICK.MC_STAT 27 24 = 7 ∧ (t.chip.reg (pgEvtRaw pgTick)).getLsbD 12 = true)

/-- R91, R76, R90, R99: a T0 whose instant has come begins a tick: TICK_NO counts, T0_FAST moves on by the period, and ADDEND_NOW, unless the line or a stopped PTP port holds it, comes nearer to ADDEND by at most 430; the first T0 of a
start stands at its instant with the number written before. -/
def Obligations.TicksBegin : Prop :=
  ∀ (s : State),
    let due := s.chip.tg.running = true ∧ s.chip.period ≤ (s.tb.fast - s.chip.tg.t0Fast).toNat
    (due → s.chip.tg.start = none → s.chip.tg.stopReq = false → s.chip.isStandby = false → s.chip.stby.deposed = false →
      ∃ t, exec .t0 s = .next t ∧
      t.tb = (if s.chip.followsAddend = true ∧ s.tb.keep = false then
        { s.tb with addendNow := s.tb.addendNow + clampI (-430) 430 (s.chip.ri TIME.ADDEND - s.tb.addendNow) } else s.tb) ∧
      t.chip.tg.running = true ∧ t.chip.tg.tickNo = s.chip.tg.tickNo + 1#64 ∧
      t.chip.tg.t0Fast = s.chip.tg.t0Fast + BitVec.ofNat 32 s.chip.period ∧ t.ktl = s.ktl) ∧
    (∀ x, s.chip.tg.running = false → s.chip.tg.start = some x → 0 ≤ (s.tb.fast - x).toInt → ∃ t, exec .t0 s = .next t ∧
      t.chip.tg.running = true ∧ t.chip.tg.start = none ∧ t.chip.tg.tickNo = s.chip.tg.tickNo ∧ t.chip.tg.t0Fast = x ∧
      t.ktl = s.ktl) ∧
    (s.chip.tg.start = none → ¬due → exec .t0 s = .next s)

/-- R90, R92: a stop ends at the end of its tick and counts TICK_NO on; an armed cycle point fires once at its offset, with its event and its source; before its instant, or not armed, each leaves
the machine as it is. -/
def Obligations.TicksEndAndCyclePoints : Prop :=
  ∀ (s : State) (k : Nat),
    let due := s.chip.tg.running = true ∧ s.chip.period ≤ (s.tb.fast - s.chip.tg.t0Fast).toNat
    (due → s.chip.tg.stopReq = true → ∃ t, exec .tickStop s = .next t ∧ t.chip.tg.running = false ∧ t.chip.tg.stopReq = false ∧
      t.chip.tg.tickNo = s.chip.tg.tickNo + 1#64 ∧ t.chip.tg.change = none ∧ t.tb = s.tb ∧ t.ktl = s.ktl) ∧
    (¬due → exec .tickStop s = .next s) ∧
    (k < 8 → s.chip.tg.running = true → s.chip.tg.cpArmed.contains k = true →
      s.chip.rf (TICK.CP k) 17 0 ≤ (s.tb.fast - s.chip.tg.t0Fast).toNat →
      ∃ t, exec (.cyclePoint k) s = .next t ∧ t.chip.tg.cpArmed.contains k = false ∧
        (t.chip.reg (pgEvtRaw pgTick)).getLsbD k = true ∧ t.chip.srcLevel (0x30 + k) = true) ∧
    (s.chip.tg.cpArmed.contains k = false → exec (.cyclePoint k) s = .next s)

/-! ### Slot X of a Leaf (R140 to R146) -/

/-- Table 5.3: each register operation gives `gd` its result, visible to the next bundle, with the flag of a saturation;
nothing else of the machine differs. -/
def Obligations.LeafRegisterArithmetic : Prop :=
  ∀ (s : State) (n gd gs gt sh : Nat), n < 64 → (s.chip.leaf n).canIssue = true →
    let l := s.chip.leaf n
    let x := l.rdG gs
    let y := l.rdG gt
    let sat := fun v : Int => (l.putG false 1 gd (wOf (satI 32 v))).setFlags false (if satI 32 v = v then 0 else 1)
    Issues s n false (.add n gd gs gt) (l.putG false 1 gd (x + y)) ∧
    Issues s n false (.sub n gd gs gt) (l.putG false 1 gd (x - y)) ∧
    Issues s n false (.adds n gd gs gt) (sat (x.toInt + y.toInt)) ∧
    Issues s n false (.subs n gd gs gt) (sat (x.toInt - y.toInt)) ∧
    Issues s n false (.and n gd gs gt) (l.putG false 1 gd (x &&& y)) ∧
    Issues s n false (.or n gd gs gt) (l.putG false 1 gd (x ||| y)) ∧
    Issues s n false (.xor n gd gs gt) (l.putG false 1 gd (x ^^^ y)) ∧
    Issues s n false (.sll n gd gs gt) (l.putG false 1 gd (x <<< (y.toNat % 32))) ∧
    Issues s n false (.srl n gd gs gt) (l.putG false 1 gd (x >>> (y.toNat % 32))) ∧
    Issues s n false (.sra n gd gs gt) (l.putG false 1 gd (x.sshiftRight (y.toNat % 32))) ∧
    Issues s n false (.slli n gd gs sh) (l.putG false 1 gd (x <<< sh)) ∧
    Issues s n false (.srli n gd gs sh) (l.putG false 1 gd (x >>> sh)) ∧
    Issues s n false (.srai n gd gs sh) (l.putG false 1 gd (x.sshiftRight sh)) ∧
    Issues s n false (.slt n gd gs gt) (l.putG false 1 gd (if x.toInt < y.toInt then 1#32 else 0#32)) ∧
    Issues s n false (.sltu n gd gs gt) (l.putG false 1 gd (if x.toNat < y.toNat then 1#32 else 0#32)) ∧
    Issues s n false (.abss n gd gs) (sat (if x.toInt < 0 then -x.toInt else x.toInt)) ∧
    Issues s n false (.negs n gd gs) (sat (-x.toInt)) ∧
    Issues s n false (.nrm n gd gs) (l.putG false 1 gd (BitVec.ofNat 32
      ((List.range 31).takeWhile (fun i => decide (x.getLsbD (30 - i) = x.getLsbD 31))).length)) ∧
    Issues s n false (.seln n gd gs gt) (if y ≠ 0#32 then l.putG false 1 gd x else l) ∧
    Issues s n false (.selz n gd gs gt) (if y = 0#32 then l.putG false 1 gd x else l) ∧
    Issues s n false (.sllsi n gd gs sh) (sat (x.toInt * 2 ^ sh))

/-- Table 5.4: the operations with an immediate, `k` sign-extended for arithmetic and comparison and zero-extended for
logic; and those on address registers, `ainc` with the one modulo correction of R108, by the low 16 bits of
the sum, none for LEN 0, and a LEN clipped at 0x10000, and `aadd` without it. -/
def Obligations.LeafImmediates : Prop :=
  ∀ (s : State) (n gd gs ad as k : Nat), n < 64 → (s.chip.leaf n).canIssue = true →
    let l := s.chip.leaf n
    let x := l.rdG gs
    let e : Int := signedN 16 k
    Issues s n false (.addi n gd gs k) (l.putG false 1 gd (x + BitVec.ofInt 32 e)) ∧
    Issues s n false (.addsi n gd gs k)
      ((l.putG false 1 gd (wOf (satI 32 (x.toInt + e)))).setFlags false (if satI 32 (x.toInt + e) = x.toInt + e then 0 else 1)) ∧
    Issues s n false (.andi n gd gs k) (l.putG false 1 gd (x &&& BitVec.ofNat 32 k)) ∧
    Issues s n false (.ori n gd gs k) (l.putG false 1 gd (x ||| BitVec.ofNat 32 k)) ∧
    Issues s n false (.xori n gd gs k) (l.putG false 1 gd (x ^^^ BitVec.ofNat 32 k)) ∧
    Issues s n false (.lui n gd k) (l.putG false 1 gd (BitVec.ofNat 32 (k * 65536))) ∧
    Issues s n false (.slti n gd gs k) (l.putG false 1 gd (if x.toInt < e then 1#32 else 0#32)) ∧
    Issues s n false (.sltui n gd gs k) (l.putG false 1 gd (if x.toNat < (BitVec.ofInt 32 e).toNat then 1#32 else 0#32)) ∧
    Issues s n false (.aadd n ad as k) (l.putA ad (l.rdA as + BitVec.ofInt 32 e)) ∧
    Issues s n false (.ainc n ad k) (l.putA ad (BitVec.ofNat 32 (
      let amod := (l.rdAmod ad).toNat
      let base := amod % 2 ^ 16 / 4 * 4
      let len := min (amod / 2 ^ 18 * 4) (0x10000 - base)
      let next := (((l.rdA ad).toNat + e) % 2 ^ 32).toNat
      if len = 0 then next else if base + len ≤ next % 2 ^ 16 then next - len
      else if next % 2 ^ 16 < base then next + len else next))) ∧
    Issues s n false (.ga n ad gs) (l.putA ad x) ∧
    Issues s n false (.ag n gd as) (l.putG false 1 gd (l.rdA as))

/-- R143, R144: `mfc` reads FLG, the Leaf's number, the cycles since it entered RUN, the tick offset, a modulo register,
or 0; `mtc` clears FLG bits, writes a modulo register, or does nothing. -/
def Obligations.LeafControlRegisters : Prop :=
  ∀ (s : State) (n gd gs r : Nat), n < 64 → (s.chip.leaf n).canIssue = true →
    let l := s.chip.leaf n
    let c1 := if s.chip.tg.running then BitVec.ofNat 32 ((s.tb.fast - s.chip.tg.t0Fast).toNat % 2 ^ 18) else 0#32
    Issues s n false (.mfc n gd r) (l.putG false 1 gd (
      if r = 0 then l.rdFlg else if r = 1 then BitVec.ofNat 32 n
      else if r = 2 then BitVec.ofNat 32 (s.tb.cycle - l.runSince) else if r = 3 then c1
      else if r ≤ 11 then l.rdAmod (r - 4) else 0#32)) ∧
    Issues s n false (.mtc n r gs) (
      if r = 0 then l.put false 1 .flagClr ((l.rdG gs).toNat % 32)
      else if 4 ≤ r ∧ r ≤ 11 then l.putAmod (r - 4) (l.rdG gs) else l)

/-- R104, R145: a branch names its target for the bundles after its two delay bundles, and `jal` and `dbnz` write their
register; in a delay bundle a branch does nothing but set ILL. -/
def Obligations.LeafBranches : Prop :=
  ∀ (s : State) (n gd gs gt disp target : Nat), n < 64 → (s.chip.leaf n).canIssue = true →
    let l := s.chip.leaf n
    let x := l.rdG gs
    let y := l.rdG gt
    let rel := (((l.pc : Int) + signedN 16 disp) % 2 ^ 15).toNat
    let ill := l.put false 3 .flagSet 4
    let go := fun (m : Leaf) (take : Prop) [Decidable take] (to' : Nat) =>
      if 0 < l.delay then ill else { m with branch := some (if take then some to' else none) }
    Issues s n false (.b n target) (go l True target) ∧
    Issues s n false (.jal n gd target) (go (l.putG false 1 gd (BitVec.ofNat 32 ((l.pc + 3) % 2 ^ 15))) True target) ∧
    Issues s n false (.jr n gs) (go l True (x.toNat % 2 ^ 15)) ∧
    Issues s n false (.beq n gs gt disp) (go l (x = y) rel) ∧
    Issues s n false (.bne n gs gt disp) (go l (x ≠ y) rel) ∧
    Issues s n false (.blt n gs gt disp) (go l (x.toInt < y.toInt) rel) ∧
    Issues s n false (.bge n gs gt disp) (go l (y.toInt ≤ x.toInt) rel) ∧
    Issues s n false (.bltu n gs gt disp) (go l (x.toNat < y.toNat) rel) ∧
    Issues s n false (.bgeu n gs gt disp) (go l (y.toNat ≤ x.toNat) rel) ∧
    Issues s n false (.dbnz n gs disp) (go (l.putG false 1 gs (x - 1#32)) (x - 1#32 ≠ 0#32) rel)
/-- R142, R108: a load that is aligned, leads to memory that is there and meets no error of its check bits gives its register
the little-endian value extended as Table 5.5 says, visible two bundles on, and updates the address register of a
post-increment with its modulo correction; R137: `ldd` names an even register, or does nothing but set ILL.  The value is that of the memory, of the bytes of the cup port, or of the
bytes that the Leaf's cup write buffer holds (R121, R124).
R123: a load from an address that is misaligned or leads nowhere gives 0 and sets MEM, with the event of the Leaf's page;
a store there stores nothing.
R125, R178: a single-bit error is corrected and counted; a double-bit error puts the Leaf, or the Pot, into QUAR. -/
def Obligations.LeafLoads : Prop :=
  (∀ (s : State) (n g acc a k : Nat) (post : Bool), n < 64 → (s.chip.leaf n).canIssue = true →
    let l := s.chip.leaf n
    let kk : Int := signedN 12 k
    let addr := addrOf l a post kk
    let m := stepped l a post kk
    let v := fun w : Nat => s.chip.loadVal n addr w false
    let ok := fun w : Nat => ¬AccessFault s.chip n addr w ∧ NoErr s.chip n addr w = true
    (addr < 0x8000 → ∀ w, v w = s.chip.loadLE (0x1000000 + n * 0x8000 + addr) w) ∧
    (0x10000 ≤ addr → addr < 0x10100 → ∀ w, v w = ofLE ((List.range w).map (fun i => Tab.get (fun _ => 0#8) l.port (addr - 0x10000 + i)))) ∧
    (∀ x, potOf n addr = some x → (l.bankB = true ∨ s.chip.pubLog = []) → (∀ j, j < 8 → Tab.get (fun _ => none) l.wbuf (x.2 + j) = none) →
      ∀ w, w ≤ 8 → v w = s.chip.loadLE x.2 w) ∧
    (∀ x, potOf n addr = some x → ∀ b, Tab.get (fun _ => none) l.wbuf x.2 = some b → v 1 = b.toNat) ∧
    (ok 1 → Issues s n false (.ldb n g a post k) (m.putG false 2 g (BitVec.ofInt 32 (signedN 8 (v 1))))) ∧
    (ok 1 → Issues s n false (.ldbu n g a post k) (m.putG false 2 g (BitVec.ofNat 32 (v 1)))) ∧
    (ok 2 → Issues s n false (.ldh n g a post k) (m.putG false 2 g (BitVec.ofInt 32 (signedN 16 (v 2))))) ∧
    (ok 2 → Issues s n false (.ldhu n g a post k) (m.putG false 2 g (BitVec.ofNat 32 (v 2)))) ∧
    (ok 4 → Issues s n false (.ldw n g a post k) (m.putG false 2 g (BitVec.ofNat 32 (v 4)))) ∧
    (ok 8 → g % 2 = 0 → Issues s n false (.ldd n g a post k)
      ((m.putG false 2 g (BitVec.ofNat 32 (v 8))).putG false 2 (g + 1) (BitVec.ofNat 32 (v 8 / 2 ^ 32)))) ∧
    (g % 2 = 1 → Issues s n false (.ldd n g a post k) (l.put false 3 .flagSet 4)) ∧
    (ok 8 → acc < 4 → Issues s n false (.ldc n g acc a post k)
      ((m.putG false 2 g (BitVec.ofNat 32 (v 8))).putTag false 2 acc (v 8 / 2 ^ 32 % 32)))) ∧
  (∀ (s : State) (n g acc a k sh : Nat) (post : Bool), n < 64 → (s.chip.leaf n).canIssue = true →
    let l := s.chip.leaf n
    let kk : Int := signedN 12 k
    let addr := addrOf l a post kk
    let m := stepped l a post kk
    let stops := fun (w : Nat) (i : Instr) (p : Leaf) => AccessFault s.chip n addr w → l.usedX = false →
      ∃ t, exec i s = .next t ∧ t.chip.mem = s.chip.mem ∧ t.chip.ecc = s.chip.ecc ∧ t.chip.leaf n = p.use false ∧
        EventSet t.chip (pgLeaf n) 2 ∧ (∀ j, j ≠ n → t.chip.leaf j = s.chip.leaf j) ∧
        ∀ r, r ≠ pgEvtRaw (pgLeaf n) → t.chip.reg r = s.chip.reg r
    let zero := m.putG false 2 g 0#32
    let mem := fun p : Leaf => p.put false 3 .flagSet 8
    let q := (l.rdG g).toInt.fdiv (2 ^ sh)
    stops 1 (.ldb n g a post k false) (mem zero) ∧ stops 1 (.ldbu n g a post k false) (mem zero) ∧
    stops 2 (.ldh n g a post k false) (mem zero) ∧ stops 2 (.ldhu n g a post k false) (mem zero) ∧
    stops 4 (.ldw n g a post k false) (mem zero) ∧
    (g % 2 = 0 → stops 8 (.ldd n g a post k false) (mem (zero.putG false 2 (g + 1) 0#32))) ∧
    (acc < 4 → stops 8 (.ldc n g acc a post k false) (mem (zero.putTag false 2 acc 0))) ∧
    stops 1 (.stb n g a post k false) (mem m) ∧ stops 2 (.sth n g a post k false) (mem m) ∧ stops 4 (.stw n g a post k false) (mem m) ∧
    (g % 2 = 0 → stops 8 (.std n g a post k false) (mem m)) ∧
    stops 2 (.stsh n g a post k sh false) ((mem m).setFlags false (if satI 16 q = q then 0 else 1))) ∧
  (∀ (s : State) (n g acc a k : Nat) (post : Bool), n < 64 → (s.chip.leaf n).canIssue = true → (s.chip.leaf n).usedX = false →
    let l := s.chip.leaf n
    let addr := addrOf l a post (signedN 12 k)
    let m := stepped l a post (signedN 12 k)
    let meets := fun (w : Nat) (i : Instr) (give : Nat → Leaf) => ¬AccessFault s.chip n addr w →
      (addr < 0x8000 →
        let d := 0x1000000 + n * 0x8000 + addr
        (ErrAt s.chip d w 4 false → ∃ t, exec i s = .next t ∧ t.chip.leaf n = (give (s.chip.loadLE d w)).use false ∧ t.chip.ecc = [] ∧
          t.chip.mem = s.chip.mem ∧ Counted s.chip t.chip (LEAF.ECC_CORR n)) ∧
        (ErrAt s.chip d w 4 true → ∃ t, exec i s = .next t ∧ (t.chip.leaf n).state = 3 ∧ (t.chip.leaf n).qcause = 4)) ∧
      (∀ x, potOf n addr = some x →
        (ErrAt s.chip x.2 w 8 false → ∃ t, exec i s = .next t ∧ t.chip.leaf n = (give (s.chip.loadVal n addr w false)).use false ∧ t.chip.ecc = [] ∧
          t.chip.mem = s.chip.mem ∧ Counted s.chip t.chip (POT.SMEM_CE x.1)) ∧
        (ErrAt s.chip x.2 w 8 true → ∃ t, exec i s = .next t ∧ (t.chip.pot x.1).state = 2 ∧
          ((s.chip.pot x.1).state = 1 → (t.chip.pot x.1).qcause = 3)))
    meets 1 (.ldb n g a post k false) (fun v => m.putG false 2 g (BitVec.ofInt 32 (signedN 8 v))) ∧
    meets 1 (.ldbu n g a post k false) (fun v => m.putG false 2 g (BitVec.ofNat 32 v)) ∧
    meets 2 (.ldh n g a post k false) (fun v => m.putG false 2 g (BitVec.ofInt 32 (signedN 16 v))) ∧
    meets 2 (.ldhu n g a post k false) (fun v => m.putG false 2 g (BitVec.ofNat 32 v)) ∧
    meets 4 (.ldw n g a post k false) (fun v => m.putG false 2 g (BitVec.ofNat 32 v)) ∧
    (g % 2 = 0 → meets 8 (.ldd n g a post k false)
      (fun v => (m.putG false 2 g (BitVec.ofNat 32 v)).putG false 2 (g + 1) (BitVec.ofNat 32 (v / 2 ^ 32)))) ∧
    (acc < 4 → meets 8 (.ldc n g acc a post k false)
      (fun v => (m.putG false 2 g (BitVec.ofNat 32 v)).putTag false 2 acc (v / 2 ^ 32 % 32))))

/-- R124, R142, R108: a store into the Leaf's own data memory that meets no error of its check bits writes the bytes of its width at the address of its operand,
little-endian, and no other byte of memory; a store of a cup into Pot memory goes to its cup write buffer and leaves the
memory as it is, and where it would need a 257th entry it is discarded with MEM; a store of a slow cup into Pot memory writes it; a store of a cup to the cup port writes the
bytes that a cup may write there (R160) and no others; R137: `std` names an even register, or does nothing but set ILL.
R125: a store of less than a word corrects and counts a single-bit error there, a double-bit error puts the Leaf into QUAR and nothing is stored. -/
def Obligations.LeafStores : Prop :=
  ∀ (s : State) (n g a k sh : Nat) (post : Bool), n < 64 → (s.chip.leaf n).canIssue = true →
    let l := s.chip.leaf n
    let kk : Int := signedN 12 k
    let addr := addrOf l a post kk
    let m := stepped l a post kk
    let x := l.rdG g
    let q := x.toInt.fdiv (2 ^ sh)
    let stores := fun (i : Bool → Instr) (w v flag : Nat) =>
      let d := 0x1000000 + n * 0x8000 + addr
      (addr % w = 0 → addr < 0x8000 → NoErr s.chip n addr w = true → l.usedX = false → ∃ t, exec (i false) s = .next t ∧
        t.chip.leaf n = (m.setFlags false flag).use false ∧ (∀ j, j ≠ n → t.chip.leaf j = s.chip.leaf j) ∧
        t.chip.loadLE d w = v % 2 ^ (8 * w) ∧ MemOutside s.chip t.chip d w ∧
        t.chip.cm = s.chip.cm ∧ t.chip.tg = s.chip.tg ∧ t.tb = s.tb ∧ t.ktl = s.ktl ∧
        exec (i true) s = .next (t.onChip (fun c => c.closeBundle n))) ∧
      (addr % w = 0 → addr < 0x8000 → ErrAt s.chip d w 4 false → l.usedX = false → ∃ t, exec (i false) s = .next t ∧
        t.chip.leaf n = (m.setFlags false flag).use false ∧ t.chip.loadLE d w = v % 2 ^ (8 * w) ∧ MemOutside s.chip t.chip d w ∧
        t.chip.ecc = [] ∧ (if w < 4 then Counted s.chip t.chip (LEAF.ECC_CORR n) else t.chip.regs = s.chip.regs)) ∧
      (addr % w = 0 → addr < 0x8000 → ErrAt s.chip d w 4 true → l.usedX = false → ∃ t, exec (i false) s = .next t ∧
        (t.chip.leaf n).state = 3 ∧ (t.chip.leaf n).qcause = 4 ∧ t.chip.mem = s.chip.mem) ∧
      (∀ y, potOf n addr = some y → addr % w = 0 → l.bankB = false → (s.chip.pot y.1).state ≠ 0 →
        (l.wbufDw.length < 256 ∨ l.wbufDw.contains (y.2 / 8) = true) → l.usedX = false → ∃ t, exec (i false) s = .next t ∧
        t.chip.mem = s.chip.mem ∧ t.chip.regs = s.chip.regs ∧
        (∀ j, j < w → Tab.get (fun _ => none) (t.chip.leaf n).wbuf (y.2 + j) = some (BitVec.ofNat 8 (v / 256 ^ j))) ∧
        ∀ b, ¬(y.2 ≤ b ∧ b < y.2 + w) → Tab.get (fun _ => none) (t.chip.leaf n).wbuf b = Tab.get (fun _ => none) l.wbuf b) ∧
      (∀ y, potOf n addr = some y → addr % w = 0 → l.bankB = false → (s.chip.pot y.1).state ≠ 0 →
        256 ≤ l.wbufDw.length → l.wbufDw.contains (y.2 / 8) = false → l.usedX = false → ∃ t, exec (i false) s = .next t ∧
        t.chip.mem = s.chip.mem ∧ t.chip.leaf n = ((m.put false 3 .flagSet 8).setFlags false flag).use false ∧ EventSet t.chip (pgLeaf n) 2) ∧
      (∀ y, potOf n addr = some y → addr % w = 0 → l.bankB = true → (s.chip.pot y.1).state ≠ 0 → NoErr s.chip n addr w = true → l.usedX = false →
        ∃ t, exec (i false) s = .next t ∧ t.chip.leaf n = (m.setFlags false flag).use false ∧
        t.chip.loadLE y.2 w = v % 2 ^ (8 * w) ∧ MemOutside s.chip t.chip y.2 w ∧ t.chip.regs = s.chip.regs) ∧
      (∀ r, l.cup = some r → addr % w = 0 → 0x10000 ≤ addr → addr < 0x10100 → l.bankB = false → l.usedX = false →
        ∃ t, exec (i false) s = .next t ∧ t.chip.mem = s.chip.mem ∧ t.chip.regs = s.chip.regs ∧ (t.chip.leaf n).wbuf = l.wbuf ∧
        ∀ o, Tab.get (fun _ => 0#8) (t.chip.leaf n).port o =
          if addr - 0x10000 ≤ o ∧ o < addr - 0x10000 + w ∧
              ((0x80 ≤ o ∧ o ≤ 0x8B ∧ ¬(r.cup.mode = 0 ∧ (o = 0x86 ∨ o = 0x87))) ∨ (0x90 ≤ o ∧ o ≤ 0xCF))
          then BitVec.ofNat 8 (v / 256 ^ (o - (addr - 0x10000))) else Tab.get (fun _ => 0#8) l.port o)
    stores (.stb n g a post k) 1 x.toNat 0 ∧
    stores (.sth n g a post k) 2 x.toNat 0 ∧
    stores (.stw n g a post k) 4 x.toNat 0 ∧
    (g % 2 = 0 → stores (.std n g a post k) 8 (x.toNat + (l.rdG (g + 1)).toNat * 2 ^ 32) 0) ∧
    (g % 2 = 1 → Issues s n false (.std n g a post k) (l.put false 3 .flagSet 4)) ∧
    stores (.stsh n g a post k sh) 2 (wOf (satI 16 q)).toNat (if satI 16 q = q then 0 else 1)

/-! ### Slot Y of a Leaf (R147, R148) -/

/-- Table 5.7: the operations on accumulators are exact in 72 bits; an accumulation saturates with ASAT; an extraction
shifts arithmetically and saturates to 32 bits with SAT. -/
def Obligations.LeafAccumulators : Prop :=
  ∀ (s : State) (n acc gd gs gt sh : Nat), n < 64 → acc < 4 → (s.chip.leaf n).canIssue = true →
    let l := s.chip.leaf n
    let prod := fun r q : Nat => (l.rdG r).toInt * (l.rdG q).toInt
    let put := fun (m : Leaf) (a : Nat) (v : Int) =>
      (m.putAcc a (BitVec.ofInt 72 (satI 72 v))).setFlags true (if satI 72 v = v then 0 else 2)
    let ext := fun v : Int => (l.putG true 2 gd (wOf (satI 32 v))).setFlags true (if satI 32 v = v then 0 else 1)
    let ill := l.put true 3 .flagSet 4
    let other := if acc % 2 = 0 then acc + 1 else acc - 1
    Issues s n true (.mul n acc gs gt) (l.putAcc acc (BitVec.ofInt 72 (prod gs gt))) ∧
    Issues s n true (.mac n acc gs gt) (put l acc ((l.rdAccAdd acc).toInt + prod gs gt)) ∧
    Issues s n true (.mac2 n acc gs gt) (if gs % 2 = 1 ∨ gt % 2 = 1 then ill else
      put (put l acc ((l.rdAccAdd acc).toInt + prod gs gt)) other ((l.rdAccAdd other).toInt + prod (gs + 1) (gt + 1))) ∧
    Issues s n true (.mac2s n acc gs gt) (if gs % 2 = 1 ∨ gt % 2 = 1 then ill else
      put l acc ((l.rdAccAdd acc).toInt + (prod gs gt + prod (gs + 1) (gt + 1)))) ∧
    Issues s n true (.clr n acc) (l.putAcc acc 0#72) ∧
    Issues s n true (.ext n gd acc) (ext ((l.rdAcc acc).toInt.fdiv (2 ^ l.rdTag acc))) ∧
    Issues s n true (.exts n gd acc sh) (ext ((l.rdAcc acc).toInt.fdiv (2 ^ sh))) ∧
    Issues s n true (.rdacc n gd acc 0) (l.putG true 2 gd ((l.rdAcc acc).setWidth 32)) ∧
    Issues s n true (.rdacc n gd acc 1) (l.putG true 2 gd (BitVec.ofNat 32 ((l.rdAcc acc).toNat / 2 ^ 32))) ∧
    Issues s n true (.rdacc n gd acc 2) (l.putG true 2 gd (BitVec.ofInt 32 (signedN 8 ((l.rdAcc acc).toNat / 2 ^ 64)))) ∧
    Issues s n true (.rdacc n gd acc 3) (l.putG true 2 gd (BitVec.ofNat 32 (l.rdTag acc))) ∧
    Issues s n true (.wracc n acc gs sh)
      ((l.putAcc acc (BitVec.ofInt 72 ((l.rdG gs).toInt * 2 ^ sh))).putTag true 3 acc sh) ∧
    Issues s n true (.wraccp n acc gs sh) (if gs % 2 = 1 then ill else
      (l.putAcc acc (BitVec.ofInt 72 ((l.rdG (gs + 1)).toInt * 2 ^ 32 + (l.rdG gs).toNat))).putTag true 3 acc sh)

/-- R148 and the rest of Table 5.7: a search step counts and keeps the extreme with the count at which it came, or sets
ASAT once the count is full, and `rdacc` reads the extreme, or count and index; maximum, minimum, clamp and saturation to `w + 1` bits.
R136: an opcode or function code that the tables do not list does nothing but set ILL. -/
def Obligations.LeafSearchAndLimit : Prop :=
  (∀ (s : State) (n acc gd gs gt w : Nat), n < 64 → acc < 4 → (s.chip.leaf n).canIssue = true →
    let l := s.chip.leaf n
    let x := l.rdG gs
    let y := l.rdG gt
    let a := (l.rdAccAdd acc).toNat
    let cnt := a / 2 ^ 48 % 2 ^ 16
    let cur := BitVec.ofNat 32 a
    let search := fun better : Bool =>
      if cnt = 0xFFFF then l.put true 3 .flagSet 2
      else l.putAcc acc (BitVec.ofNat 72 ((cnt + 1) * 2 ^ 48 +
        (if better then cnt * 2 ^ 32 + x.toNat else a / 2 ^ 32 % 2 ^ 16 * 2 ^ 32 + cur.toNat)))
    let lim := fun v : Int => if v < -(2 ^ w) then -(2 ^ w) else if 2 ^ w - 1 < v then 2 ^ w - 1 else v
    Issues s n true (.smax n acc gs) (search (decide (cnt = 0 ∨ cur.toInt < x.toInt))) ∧
    Issues s n true (.smin n acc gs) (search (decide (cnt = 0 ∨ x.toInt < cur.toInt))) ∧
    Issues s n true (.max n gd gs gt) (l.putG true 2 gd (if y.toInt ≤ x.toInt then x else y)) ∧
    Issues s n true (.min n gd gs gt) (l.putG true 2 gd (if x.toInt ≤ y.toInt then x else y)) ∧
    Issues s n true (.clamp n gd gs gt) (if gt % 2 = 1 then l.put true 3 .flagSet 4
      else l.putG true 2 gd (wOf (min (max x.toInt y.toInt) (l.rdG (gt + 1)).toInt))) ∧
    Issues s n true (.satn n gd gs w)
      ((l.putG true 2 gd (wOf (lim x.toInt))).setFlags true (if lim x.toInt = x.toInt then 0 else 1)) ∧
    Issues s n true (.rdacc n gd acc 0) (l.putG true 2 gd ((l.rdAcc acc).setWidth 32)) ∧
    Issues s n true (.rdacc n gd acc 1) (l.putG true 2 gd (BitVec.ofNat 32
      ((l.rdAcc acc).toNat / 2 ^ 48 % 2 ^ 16 * 2 ^ 16 + (l.rdAcc acc).toNat / 2 ^ 32 % 2 ^ 16))) ∧
    Issues s n l.usedX (.nop n) l) ∧
  (∀ (s : State) (n : Nat) (slotY : Bool), n < 64 → (s.chip.leaf n).canIssue = true →
    Issues s n slotY (.reservedOpcode n slotY) ((s.chip.leaf n).put slotY 3 .flagSet 4))

/-- R103, R116: `g0` reads 0 and takes no result; a slow cup reads 0 from a register that is not banked, and a write of one
sets BGREG and nothing else.
R137: an instruction whose pair operand names an odd register does nothing but set ILL. -/
def Obligations.LeafRegisterRules : Prop :=
  (∀ (s : State) (n g h a acc k : Nat) (post : Bool), n < 64 → (s.chip.leaf n).canIssue = true → g % 2 = 1 →
    let l := s.chip.leaf n
    Issues s n false (.ldd n g a post k) (l.put false 3 .flagSet 4) ∧
    Issues s n false (.std n g a post k) (l.put false 3 .flagSet 4) ∧
    Issues s n true (.mac2 n acc g h) (l.put true 3 .flagSet 4) ∧ Issues s n true (.mac2 n acc h g) (l.put true 3 .flagSet 4) ∧
    Issues s n true (.mac2s n acc g h) (l.put true 3 .flagSet 4) ∧ Issues s n true (.mac2s n acc h g) (l.put true 3 .flagSet 4) ∧
    Issues s n true (.clamp n h k g) (l.put true 3 .flagSet 4) ∧
    Issues s n true (.wraccp n acc g k) (l.put true 3 .flagSet 4)) ∧
  ∀ (l : Leaf) (r lat : Nat) (v : Word) (y : Bool),
    l.rdG 0 = 0#32 ∧ l.putG y lat 0 v = l ∧
    (l.bankB = true → r < 16 → l.rdG r = 0#32) ∧
    (l.bankB = true → 0 < r → r < 16 → l.putG y lat r v = l.put y 3 .flagSet 16) ∧
    (l.bankB = true → r < 4 → l.rdA r = 0#32 ∧ l.putA r v = l.put false 3 .flagSet 16) ∧
    (0 < r → (l.bankB = true → 16 ≤ r) → l.putG y lat r v = l.put y lat (.g r) v.toNat)

/-- R101, R104, Table 4.1: where one bundle is a single operation and nothing is in flight or delayed, the result of a slot X register operation
stands in its register for the next bundle, that of a load or of a slot Y operation for the one after it, an accumulator for a further accumulation in the next bundle
and for a reader in the third, and a flag in the third; every other register is as it was, and the Leaf goes on with the next bundle. -/
def Obligations.LeafResultNextBundle : Prop :=
  ∀ (s : State) (n gd gs gt sh k ad as r acc a : Nat) (post : Bool), n < 64 → acc < 4 → (s.chip.leaf n).canIssue = true →
    let l := s.chip.leaf n
    l.usedX = false → l.usedY = false → l.cur = [] → l.flight = [] → l.delay = 0 → l.branch = none → l.endReq = false →
    let x := l.rdG gs
    let y := l.rdG gt
    let e : Int := signedN 16 k
    let c1 := if s.chip.tg.running then BitVec.ofNat 32 ((s.tb.fast - s.chip.tg.t0Fast).toNat % 2 ^ 18) else 0#32
    let after := fun (i : Instr) (P : Leaf → Prop) => ∃ t, exec i s = .next t ∧ P (t.chip.leaf n) ∧
      (t.chip.leaf n).pc = (l.pc + 1) % 2 ^ 15 ∧ (t.chip.leaf n).cur = [] ∧
      t.chip.mem = s.chip.mem ∧ (∀ j, j ≠ n → t.chip.leaf j = s.chip.leaf j)
    let gives := fun (d : Nat) (i : Instr) (v : Word) => d ≠ 0 → (l.bankB = true → 16 ≤ d) →
      after i (fun m => m.flight = [] ∧ m.rdG d = v ∧ ∀ r, r ≠ d → m.rdG r = l.rdG r)
    let flags := fun (i : Instr) (f : Word) (P : Leaf → Prop) => ∃ t u w, exec i s = .next t ∧ P (t.chip.leaf n) ∧ (t.chip.leaf n).rdFlg = l.rdFlg ∧
      exec (.nop n true) t = .next u ∧ (u.chip.leaf n).rdFlg = l.rdFlg ∧
      exec (.nop n true) u = .next w ∧ (w.chip.leaf n).rdFlg = l.rdFlg ||| f ∧ (w.chip.leaf n).flight = []
    let sats := fun (i : Instr) (v : Int) => gd ≠ 0 → (l.bankB = true → 16 ≤ gd) →
      flags i (if satI 32 v = v then 0#32 else 1#32) (fun m => m.rdG gd = wOf (satI 32 v) ∧ ∀ r, r ≠ gd → m.rdG r = l.rdG r)
    let later := fun (i : Instr) (v : Word) => gd ≠ 0 → (l.bankB = true → 16 ≤ gd) → ∃ t u, exec i s = .next t ∧
      (∀ r, (t.chip.leaf n).rdG r = l.rdG r) ∧ exec (.nop n true) t = .next u ∧ (u.chip.leaf n).rdG gd = v ∧
      ∀ r, r ≠ gd → (u.chip.leaf n).rdG r = l.rdG r
    let addr := addrOf l a post (signedN 12 k)
    let loads := fun (w : Nat) (i : Instr) (v : Nat → Word) =>
      ¬AccessFault s.chip n addr w → NoErr s.chip n addr w = true → later i (v (s.chip.loadVal n addr w false))
    let accum := fun (i : Instr) (v : BitVec 72) => (l.bankB = true → 2 ≤ acc) → ∃ t u w, exec i s = .next t ∧
      (t.chip.leaf n).rdAccAdd acc = v ∧ (t.chip.leaf n).rdAcc acc = l.rdAcc acc ∧
      exec (.nop n true) t = .next u ∧ (u.chip.leaf n).rdAcc acc = l.rdAcc acc ∧
      exec (.nop n true) u = .next w ∧ (w.chip.leaf n).rdAcc acc = v
    gives gd (.add n gd gs gt true) (x + y) ∧ gives gd (.sub n gd gs gt true) (x - y) ∧
    gives gd (.and n gd gs gt true) (x &&& y) ∧ gives gd (.or n gd gs gt true) (x ||| y) ∧ gives gd (.xor n gd gs gt true) (x ^^^ y) ∧
    gives gd (.sll n gd gs gt true) (x <<< (y.toNat % 32)) ∧ gives gd (.srl n gd gs gt true) (x >>> (y.toNat % 32)) ∧
    gives gd (.sra n gd gs gt true) (x.sshiftRight (y.toNat % 32)) ∧
    gives gd (.slli n gd gs sh true) (x <<< sh) ∧ gives gd (.srli n gd gs sh true) (x >>> sh) ∧ gives gd (.srai n gd gs sh true) (x.sshiftRight sh) ∧
    gives gd (.slt n gd gs gt true) (if x.toInt < y.toInt then 1#32 else 0#32) ∧
    gives gd (.sltu n gd gs gt true) (if x.toNat < y.toNat then 1#32 else 0#32) ∧
    gives gd (.nrm n gd gs true) (BitVec.ofNat 32 ((List.range 31).takeWhile (fun i => decide (x.getLsbD (30 - i) = x.getLsbD 31))).length) ∧
    gives gd (.seln n gd gs gt true) (if y ≠ 0#32 then x else l.rdG gd) ∧ gives gd (.selz n gd gs gt true) (if y = 0#32 then x else l.rdG gd) ∧
    gives gd (.addi n gd gs k true) (x + BitVec.ofInt 32 e) ∧ gives gd (.andi n gd gs k true) (x &&& BitVec.ofNat 32 k) ∧
    gives gd (.ori n gd gs k true) (x ||| BitVec.ofNat 32 k) ∧ gives gd (.xori n gd gs k true) (x ^^^ BitVec.ofNat 32 k) ∧
    gives gd (.lui n gd k true) (BitVec.ofNat 32 (k * 65536)) ∧
    gives gd (.slti n gd gs k true) (if x.toInt < e then 1#32 else 0#32) ∧
    gives gd (.sltui n gd gs k true) (if x.toNat < (BitVec.ofInt 32 e).toNat then 1#32 else 0#32) ∧
    gives gd (.ag n gd as true) (l.rdA as) ∧
    gives gd (.mfc n gd r true) (if r = 0 then l.rdFlg else if r = 1 then BitVec.ofNat 32 n
      else if r = 2 then BitVec.ofNat 32 (s.tb.cycle - l.runSince) else if r = 3 then c1
      else if r ≤ 11 then l.rdAmod (r - 4) else 0#32) ∧
    gives gd (.jal n gd k true) (BitVec.ofNat 32 ((l.pc + 3) % 2 ^ 15)) ∧ gives gs (.dbnz n gs k true) (x - 1#32) ∧
    ((l.bankB = true → 4 ≤ ad) →
      after (.aadd n ad as k true) (fun m => m.flight = [] ∧ m.rdA ad = l.rdA as + BitVec.ofInt 32 e ∧ ∀ r, r ≠ ad → m.rdA r = l.rdA r) ∧
      after (.ainc n ad k true) (fun m => m.flight = [] ∧
        m.rdA ad = BitVec.ofNat 32 (stepMod (l.rdA ad).toNat (l.rdAmod ad).toNat e) ∧ ∀ r, r ≠ ad → m.rdA r = l.rdA r) ∧
      after (.ga n ad gs true) (fun m => m.flight = [] ∧ m.rdA ad = x ∧ ∀ r, r ≠ ad → m.rdA r = l.rdA r)) ∧
    (4 ≤ r → r ≤ 11 → (l.bankB = true → 8 ≤ r) → after (.mtc n r gs true) (fun m => m.flight = [] ∧ m.rdAmod (r - 4) = x)) ∧
    sats (.adds n gd gs gt true) (x.toInt + y.toInt) ∧ sats (.subs n gd gs gt true) (x.toInt - y.toInt) ∧
    sats (.addsi n gd gs k true) (x.toInt + e) ∧ sats (.sllsi n gd gs sh true) (x.toInt * 2 ^ sh) ∧
    sats (.abss n gd gs true) (if x.toInt < 0 then -x.toInt else x.toInt) ∧ sats (.negs n gd gs true) (-x.toInt) ∧
    (∀ y, flags (.reservedOpcode n y true) 4#32 (fun m => ∀ r, m.rdG r = l.rdG r)) ∧
    loads 1 (.ldb n gd a post k true) (fun v => BitVec.ofInt 32 (signedN 8 v)) ∧ loads 1 (.ldbu n gd a post k true) (BitVec.ofNat 32) ∧
    loads 2 (.ldh n gd a post k true) (fun v => BitVec.ofInt 32 (signedN 16 v)) ∧ loads 2 (.ldhu n gd a post k true) (BitVec.ofNat 32) ∧
    loads 4 (.ldw n gd a post k true) (BitVec.ofNat 32) ∧
    later (.max n gd gs gt true) (if y.toInt ≤ x.toInt then x else y) ∧ later (.min n gd gs gt true) (if x.toInt ≤ y.toInt then x else y) ∧
    later (.ext n gd acc true) (wOf (satI 32 ((l.rdAcc acc).toInt.fdiv (2 ^ l.rdTag acc)))) ∧
    later (.exts n gd acc sh true) (wOf (satI 32 ((l.rdAcc acc).toInt.fdiv (2 ^ sh)))) ∧
    later (.rdacc n gd acc 0 true) ((l.rdAcc acc).setWidth 32) ∧
    accum (.clr n acc true) 0#72 ∧ accum (.mul n acc gs gt true) (BitVec.ofInt 72 (x.toInt * y.toInt)) ∧
    accum (.mac n acc gs gt true) (BitVec.ofInt 72 (satI 72 ((l.rdAccAdd acc).toInt + x.toInt * y.toInt)))
/-! ### Control of Leaves and Pots (R126, R130 to R134, R177 to R179) -/

/-- R130, R131, R132: a quarantine request takes a halted Leaf to QUAR at once with cause HOST, clears its EN in force and records the tick; a running Leaf keeps it until an instant without a cup after
the next T0; a double-bit error takes it there with its own cause; RELEASE starts the clear, whose end leaves the Leaf in HALT with its data memory at 0.
R178, R179, R63: PCTRL.QUAR takes a Pot that is ON to QUAR with cause HOST and its halted Leaves with it; RELEASE starts the fill of a Pot in QUAR, whose end returns the Pot to ON, clears its data memory, and releases
the Leaves it had taken; each write also stages the steal permissions. -/
def Obligations.LeafQuarantine : Prop :=
  (∀ (s : State) (p : Port) (n : Nat), n < 64 →
    let l := s.chip.leaf n
    let quar := fun (t : State) (cause : Nat) => (t.chip.leaf n).state = 3 ∧ (t.chip.leaf n).qcause = cause ∧
      t.chip.en (pgLeaf n) = false ∧ t.chip.reg (LEAF.QTICK n) = s.chip.tg.tickNo.setWidth 32 ∧
      (t.chip.reg (pgEvtRaw (pgLeaf n))).getLsbD 0 = true ∧ t.chip.mem = s.chip.mem ∧ t.tb = s.tb ∧ t.ktl = s.ktl ∧
      (∀ j, j ≠ n → t.chip.leaf j = s.chip.leaf j)
    (Reaches s p (LEAF.LCTRL n) → l.state = 1 → ∃ t, exec (.lctrlQuar p n) s = .next t ∧ quar t 1) ∧
    (Reaches s p (LEAF.LCTRL n) → l.state = 2 → exec (.lctrlQuar p n) s = .next (s.onChip (fun c =>
      c.modLeaf n (fun l => { l with quarReq := some (l.quarReq.getD 1) })))) ∧
    (Reaches s p (LEAF.LCTRL n) → l.state = 0 ∨ l.state = 3 → exec (.lctrlQuar p n) s = .next s) ∧
    (∀ q cause, l.state = 2 → cause ≠ 4 → l.cup = none → l.slow = none → l.assigned = none → l.quarReq = some q → l.quarArmed = true →
      ∃ t, exec (.quarIn n cause) s = .next t ∧ quar t q) ∧
    (l.state = 2 → ∃ t, exec (.quarIn n 4) s = .next t ∧ (t.chip.leaf n).state = 3 ∧ (t.chip.leaf n).qcause = 4 ∧
      (t.chip.leaf n).cup = none ∧ (t.chip.leaf n).flight = [] ∧ (t.chip.leaf n).wbuf = []) ∧
    (Reaches s p (LEAF.LCTRL n) → l.state = 3 → exec (.lctrlRelease p n) s = .next (s.onChip (fun c =>
      c.modLeaf n (fun l => { l with filling := true })))) ∧
    (Reaches s p (LEAF.LCTRL n) → l.state ≠ 3 → exec (.lctrlRelease p n) s = .next s) ∧
    (l.state = 3 → l.filling = true → ∃ t, exec (.leafReleaseDone n) s = .next t ∧
      t.chip.leaf n = { Leaf.reset with state := 1, port := l.port, bx := l.bx } ∧
      (∀ x, t.chip.byte x = if 0x1000000 + n * 0x8000 ≤ x ∧ x < 0x1000000 + n * 0x8000 + 0x8000 then 0#8 else s.chip.byte x) ∧
      t.chip.regs = s.chip.regs) ∧
    (l.state ≠ 3 ∨ l.filling = false → exec (.leafReleaseDone n) s = .next s)) ∧
  (∀ (s : State) (p : Port) (n : Nat) (v : Word), n < 8 →
    let b := 0x1400000 + n * 0x80000
    let staged := fun (t : State) (w : Word) => Tab.get (fun _ => none) t.chip.cm.staged (POT.PCTRL n) = some w
    (Reaches s p (POT.PCTRL n) → s.chip.auto (pgPot n) = false → (s.chip.pot n).state = 1 → v.getLsbD 1 = false →
      ∃ t, exec (.pctrlQuar p n v) s = .next t ∧ (t.chip.pot n).state = 2 ∧ (t.chip.pot n).qcause = 1 ∧ staged t (v ||| 1#32) ∧
        t.chip.reg (POT.QTICK n) = s.chip.tg.tickNo.setWidth 32 ∧
        (∀ i, i < 8 → (s.chip.leaf (8 * n + i)).state = 1 → (t.chip.leaf (8 * n + i)).state = 3 ∧ (t.chip.leaf (8 * n + i)).qcause = 5)) ∧
    (Reaches s p (POT.PCTRL n) → s.chip.auto (pgPot n) = false → (s.chip.pot n).state = 2 → v.getLsbD 0 = false →
      ∃ t, exec (.pctrlRelease p n v) s = .next t ∧ t.chip.pot n = { s.chip.pot n with filling := true } ∧ staged t (v ||| 2#32) ∧
        t.chip.leaves = s.chip.leaves ∧ t.chip.mem = s.chip.mem ∧ t.chip.regs = s.chip.regs) ∧
    ((s.chip.pot n).state = 2 → (s.chip.pot n).filling = true → ∃ t, exec (.potReleaseDone n) s = .next t ∧
      (t.chip.pot n).state = 1 ∧ (t.chip.pot n).filling = false ∧
      (∀ x, t.chip.byte x = if b ≤ x ∧ x < b + 0x80000 then 0#8 else s.chip.byte x) ∧
      (∀ i, i < 8 → (s.chip.leaf (8 * n + i)).state = 3 → (s.chip.leaf (8 * n + i)).qcause = 5 →
        (t.chip.leaf (8 * n + i)).filling = true)) ∧
    ((s.chip.pot n).state ≠ 2 ∨ (s.chip.pot n).filling = false → exec (.potReleaseDone n) s = .next s))

/-- R133, R134: in HALT, DBG_PC sets the next bundle and drops a pending redirect, DBG_DATA replaces the item that DBG_SEL selects in the bank it names (a general register, an address register, a modulo register, 32 bits or the top byte and the tag of
an accumulator, or FLG; a write that selects c1 to c3 does nothing, and unbanked items ignore BANK), and STEP issues one bundle and sets
STEP_DONE (here a bundle of two zero words, whose only effect is the next bundle index); outside HALT each sets DBG_REF and does nothing else.
R126: a fetch of a line and of the next one by a running Leaf, which the cache did not hold, puts both lines into the cache and changes nothing else but counters where it meets no error; a parity error of a line
that the cache holds is counted in IC_PERR and fetches it anew; a double-bit error of the line quarantines the Pot with cause PMEM_UE; a Leaf
that does not run fetches nothing. -/
def Obligations.LeafDebugger : Prop :=
  (∀ (s : State) (p : Port) (n r : Nat) (v : Word), n < 64 → r < 32 →
    let l := s.chip.leaf n
    let sel := s.chip.reg (LEAF.DBG_SEL n)
    let ref := s.onChip (fun c => c.evt (pgLeaf n) 4)
    let a := 0x1200000 + n / 8 * 0x40000 + 8 * l.f.pc
    (Reaches s p (LEAF.DBG_PC n) → l.state = 1 → exec (.dbgPcWrite p n v) s = .next (s.onChip (fun c =>
      c.modLeaf n (fun l => { l with f := { l.f with pc := v.toNat % 2 ^ 15 }, delay := 0, redir := none, branch := none })))) ∧
    (Reaches s p (LEAF.DBG_PC n) → l.state ≠ 1 → exec (.dbgPcWrite p n v) s = .next ref) ∧
    (Reaches s p (LEAF.DBG_DATA n) → l.state = 1 → sel = BitVec.ofNat 32 r → 0 < r →
      exec (.dbgDataWrite p n v) s = .next (s.onChip (fun c =>
        c.modLeaf n (fun l => { l with f := { l.f with g := Tab.set (fun _ => 0#32) l.f.g r v } })))) ∧
    (Reaches s p (LEAF.DBG_DATA n) → l.state = 1 → sel = BitVec.ofNat 32 (0x100 + r) → 16 ≤ r →
      exec (.dbgDataWrite p n v) s = .next (s.onChip (fun c =>
        c.modLeaf n (fun l => { l with b := { l.b with g := Tab.set (fun _ => 0#32) l.b.g r v } })))) ∧
    (∀ (b : Bool), Reaches s p (LEAF.DBG_DATA n) → l.state = 1 →
      let pick := fun cls : Nat => sel = BitVec.ofNat 32 ((if b then 0x100 else 0) + 0x20 * cls + r)
      let put := fun (inB : Bool) (f : Bank → Bank) => exec (.dbgDataWrite p n v) s = .next (s.onChip (fun c =>
        c.modLeaf n (fun l => if inB then { l with b := f l.b } else { l with f := f l.f })))
      let k := if b && decide (2 ≤ r) then l.b else l.f
      let acc := (Tab.get (fun _ => 0#72) k.accRead r).toNat
      let accPut := fun (x : Nat) (k : Bank) => { k with
        accRead := Tab.set (fun _ => 0#72) k.accRead r (BitVec.ofNat 72 x), accAdd := Tab.set (fun _ => 0#72) k.accAdd r (BitVec.ofNat 72 x) }
      (pick 1 → r < 8 → put (b && decide (4 ≤ r)) (fun k => { k with a := Tab.set (fun _ => 0#32) k.a r v })) ∧
      (pick 2 → r < 8 → put (b && decide (4 ≤ r)) (fun k => { k with amod := Tab.set (fun _ => 0#32) k.amod r v })) ∧
      (pick 3 → r < 4 → put (b && decide (2 ≤ r)) (accPut (acc / 2 ^ 32 * 2 ^ 32 + v.toNat))) ∧
      (pick 4 → r < 4 → put (b && decide (2 ≤ r)) (accPut (acc / 2 ^ 64 * 2 ^ 64 + v.toNat * 2 ^ 32 + acc % 2 ^ 32))) ∧
      (pick 5 → r < 4 → put (b && decide (2 ≤ r)) (fun k => { accPut (v.toNat % 256 * 2 ^ 64 + acc % 2 ^ 64) k with
        tag := Tab.set (fun _ => 0#32) k.tag r (BitVec.ofNat 32 (v.toNat / 2 ^ 8 % 32)) })) ∧
      (pick 6 → r = 0 → put b (fun k => { k with flg := BitVec.ofNat 32 (v.toNat % 32) })) ∧
      (pick 6 → 4 ≤ r → r ≤ 11 → put (b && decide (8 ≤ r)) (fun k => { k with amod := Tab.set (fun _ => 0#32) k.amod (r - 4) v })) ∧
      (pick 6 → 1 ≤ r → r ≤ 3 → put false (fun k => k)) ∧
      ((pick 7 ∨ (pick 6 ∧ 12 ≤ r) ∨ ((pick 1 ∨ pick 2) ∧ 8 ≤ r) ∨ ((pick 3 ∨ pick 4 ∨ pick 5) ∧ 4 ≤ r)) →
        exec (.dbgDataWrite p n v) s = .next ref)) ∧
    (Reaches s p (LEAF.DBG_DATA n) → l.state = 1 → sel = 0xC0#32 →
      exec (.dbgDataWrite p n v) s = .next (s.onChip (fun c =>
        c.modLeaf n (fun l => { l with f := { l.f with flg := v &&& 31#32 } })))) ∧
    (Reaches s p (LEAF.DBG_DATA n) → (l.state ≠ 1 ∨ sel = 0xE0#32) → exec (.dbgDataWrite p n v) s = .next ref) ∧
    (Reaches s p (LEAF.LCTRL n) → l.state = 1 → l.delay = 0 → l.f.pc < 2 ^ 15 → s.chip.eccAt a 8 = none →
      s.chip.loadLE a 4 = 0 → s.chip.loadLE (a + 4) 4 = 0 →
      ∃ t, exec (.step p n) s = .next t ∧ (t.chip.leaf n).f.pc = (l.f.pc + 1) % 2 ^ 15 ∧ (t.chip.leaf n).state = 1 ∧
        (∀ r, Tab.get (fun _ => 0#32) (t.chip.leaf n).f.g r = Tab.get (fun _ => 0#32) l.f.g r) ∧
        (t.chip.reg (pgEvtRaw (pgLeaf n))).getLsbD 5 = true ∧ t.chip.mem = s.chip.mem) ∧
    (Reaches s p (LEAF.LCTRL n) → l.state ≠ 1 → exec (.step p n) s = .next ref)) ∧
  (∀ (s : State) (n bundle : Nat) (perr : Bool), n < 64 →
    let l := s.chip.leaf n
    let set := fun (t : Leaf) (line : Nat) => Tab.get (fun _ => []) t.icache (line % 64)
    let line := bundle % 2 ^ 15 / 8
    let after := (line + 1) % 4096
    let word := fun (x i : Nat) => 0x1200000 + n / 8 * 0x40000 + 64 * x + 8 * i
    let clean := ∀ i, i < 8 → s.chip.eccAt (word line i) 8 = none ∧ s.chip.eccAt (word after i) 8 = none
    let enter := fun (old : List Nat) (x : Nat) => (x :: old.filter (fun y => decide (y ≠ x))).take 4
    (l.state ≠ 2 → exec (.icMiss n bundle perr) s = .next s) ∧
    (l.state = 2 → (set l line).contains line ≠ perr → exec (.icMiss n bundle perr) s = .next s) ∧
    (l.state = 2 → (set l line).contains line = perr → clean →
      ∃ t, exec (.icMiss n bundle perr) s = .next t ∧
        (t.chip.reg (LEAF.IC_PERR n)).toNat = min 0xFFFFFFFF ((s.chip.reg (LEAF.IC_PERR n)).toNat + (if perr then 1 else 0)) ∧
        set (t.chip.leaf n) line = enter (set l line) line ∧
        ((set l after).contains after = false → set (t.chip.leaf n) after = enter (set l after) after) ∧
        ((set l after).contains after = true → set (t.chip.leaf n) after = set l after) ∧
        t.chip.leaf n = { l with icache := (t.chip.leaf n).icache, stall := 6 } ∧ (∀ j, j ≠ n → t.chip.leaf j = s.chip.leaf j) ∧
        t.chip.pots = s.chip.pots ∧ t.chip.mem = s.chip.mem) ∧
    (∀ i, l.state = 2 → (set l line).contains line = perr → i < 8 → (s.chip.pot (n / 8)).state = 1 → s.chip.eccAt (word line i) 8 = some true →
      ∃ t, exec (.icMiss n bundle perr) s = .next t ∧ (t.chip.pot (n / 8)).state = 2 ∧ (t.chip.pot (n / 8)).qcause = 2))

/-- R125, R177, R372, R473: the fill after power-up takes a Leaf, or a Pot, from OFF to HALT, or to ON, with its memories at 0; the Caddy's fill ends with the Caddy at 0; the domain is
on, with its event, once the last of the fills of its memories has ended, and not before; without a fill in progress nothing happens. -/
def Obligations.FillsAfterPowerUp : Prop :=
  ∀ (s : State) (n p : Nat), n < 64 → p < 8 →
    let c := s.chip
    let rest := fun d : Nat => c.domReq d = true ∧ (c.rst.ramp ≠ none ∨
      ∀ e, e < 16 → e ≠ d → c.domReq e = (c.domOn e || c.rst.filling.contains e))
    let isOn := fun (t : State) (d : Nat) => t.chip.domOn d = true ∧ t.chip.rst = { c.rst with filling := t.chip.rst.filling } ∧
      d ∉ t.chip.rst.filling ∧ (∀ e, e ≠ d → (e ∈ t.chip.rst.filling ↔ e ∈ c.rst.filling)) ∧ EventSet t.chip pgPwr 0 ∧
      ∀ a, a ≠ PWR.DOM_ON → a ≠ pgEvtRaw pgPwr → t.chip.reg a = c.reg a
    let notYet := fun t : State => t.chip.rst = c.rst ∧ t.chip.regs = c.regs
    let ends := fun (i : Instr) (d : Nat) (last : Prop) (P : State → Prop) =>
      (¬last ∨ d ∉ c.rst.filling → ∃ t, exec i s = .next t ∧ P t ∧ notYet t) ∧
      (last → d ∈ c.rst.filling → rest d → ∃ t, exec i s = .next t ∧ P t ∧ isOn t d)
    ((c.leaf n).state = 0 → (c.leaf n).filling = true →
      ends (.leafFillDone n) (4 + n / 8) ((c.pot (n / 8)).state ≠ 0 ∧ ∀ i, i < 8 → 8 * (n / 8) + i ≠ n → (c.leaf (8 * (n / 8) + i)).state ≠ 0)
        (fun t => t.chip.leaf n = { Leaf.reset with state := 1, qcause := (c.leaf n).qcause, f := { Bank.zero with pc := (c.leaf n).f.pc } } ∧ t.tb = s.tb ∧
          (∀ x, t.chip.byte x = if 0x1000000 + n * 0x8000 ≤ x ∧ x < 0x1000000 + n * 0x8000 + 0x8000 then 0#8 else s.chip.byte x))) ∧
    ((c.pot p).state = 0 → (c.pot p).filling = true →
      ends (.potFillDone p) (4 + p) (∀ i, i < 8 → (c.leaf (8 * p + i)).state ≠ 0)
        (fun t => t.chip.pot p = { Pot.reset with state := 1, qcause := (c.pot p).qcause } ∧ t.tb = s.tb ∧
          (∀ x, t.chip.byte x = if (0x1400000 + p * 0x80000 ≤ x ∧ x < 0x1400000 + p * 0x80000 + 0x80000) ∨
            (0x1200000 + p * 0x40000 ≤ x ∧ x < 0x1200000 + p * 0x40000 + 0x40000) then 0#8 else s.chip.byte x))) ∧
    (c.caddyFill = true → ends .caddyFillDone 3 True (fun t => t.chip.caddyFill = false ∧ t.tb = s.tb ∧
      (∀ x, t.chip.byte x = if 0x400000 ≤ x ∧ x < 0xC00000 then 0#8 else s.chip.byte x))) ∧
    ((c.leaf n).state ≠ 0 ∨ (c.leaf n).filling = false → c.potReady (n / 8) = false → exec (.leafFillDone n) s = .next s) ∧
    ((c.pot p).state ≠ 0 ∨ (c.pot p).filling = false → c.potReady p = false → exec (.potFillDone p) s = .next s) ∧
    (c.caddyFill = false → exec .caddyFillDone s = .next s)

/-! ### Cups (R32, R117, R120, R158, R162, R170) -/

/-- R158, R162: the first cup of a Pot's queue that may be taken goes to the lowest-numbered idle Leaf of the Pot and leaves the queue; a granted steal gives the cup nearest the tail of the victim's queue to an available Leaf whose own Pot has none. -/
def Obligations.CupAssignment : Prop :=
  (∀ (s : State) (p i : Nat) (x : Cup) (rest : List Cup), p < 8 → i < 8 → s.chip.takeable p = x :: rest →
    (s.chip.leaf (8 * p + i)).idle = true → (∀ j, j < i → (s.chip.leaf (8 * p + j)).idle = false) →
    ∃ t, exec (.cupAssign p) s = .next t ∧ (t.chip.leaf (8 * p + i)).assigned = some ⟨x, p, false, s.tb.fast, false⟩ ∧
      x ∉ (t.chip.pot p).queue ∧ t.chip.regs = s.chip.regs ∧ t.chip.mem = s.chip.mem ∧ (∀ q, q ≠ p → t.chip.pot q = s.chip.pot q)) ∧
  (∀ (s : State) (p : Nat), s.chip.takeable p = [] → exec (.cupAssign p) s = .next s) ∧
  (∀ (s : State) (n p : Nat) (x : Cup), n < 64 → s.chip.steal = some (n, p, x) →
    (s.chip.leaf n).available = true ∧ s.chip.takeable (n / 8) = [] ∧ (s.chip.stealable p).getLast? = some x ∧
    ∃ t, exec .stealGrant s = .next t ∧ (t.chip.leaf n).assigned = some ⟨x, p, false, s.tb.fast, false⟩ ∧
      x ∉ (t.chip.pot p).queue ∧ t.chip.mem = s.chip.mem) ∧
  (∀ s : State, s.chip.steal = none → exec .stealGrant s = .next s)

/-- R117, R118, R159: on entry, whether the Leaf is free or a slow cup in bank B is pre-empted between bundles that no branch spans, bank F and the flags are clear but for the entry values (the axis in g1, the tick in g2,
the address of the state block in a0, the cup port in a1), and the Leaf fetches from its Pot's entry of the cup's mode; a pre-empted slow cup stays on the Leaf and is counted in PREEMPT; a slow cup inside a bundle, a branch or its
delay bundles is not pre-empted yet. The standard image's cup enters alike. Of memory nothing changes but the prior copy that the head of a comparing pair keeps. Premise: no word of a memory holds a double-bit error (R178). -/
def Obligations.CupEntryValues : Prop :=
  ∀ (s : State) (n : Nat) (r : CupRun) (std : Bool), n < 64 → r.cup.home < 8 → r.cup.axis < 256 → s.chip.NoDouble →
    let l := s.chip.leaf n
    let between := l.delay = 0 ∧ l.redir = none ∧ l.branch = none ∧ l.usedX = false ∧ l.usedY = false
    let prior := s.chip.isHead = true ∧ s.chip.stby.peerSstate = 2 ∧ s.chip.rb STBY.CFG 5 = true ∧ r.cup.kind ≠ .cross
    l.state = 2 → l.cup = none → l.assigned = some r →
    (l.slow = none ∨ between → ∃ t, exec (.cupEntry n std) s = .next t ∧
      let m := t.chip.leaf n
      m.cup = some { r with std := std, entered := s.tb.fast, ended := false } ∧ m.assigned = none ∧ m.slow = l.slow ∧ m.bankB = false ∧
      (l.slow ≠ none → t.chip.reg (LEAF.PREEMPT n) = s.chip.reg (LEAF.PREEMPT n) + 1#32) ∧
      (std = false →
        m.rdG 1 = BitVec.ofNat 32 r.cup.axis ∧ m.rdG 2 = BitVec.ofNat 32 r.cup.tick.toNat ∧
        (∀ k, k ≠ 1 → k ≠ 2 → m.rdG k = 0#32) ∧
        m.rdA 0 = BitVec.ofNat 32 (leafAddr r.cup.slot (r.cup.axis * 0x400)) ∧ m.rdA 1 = 0x10000#32 ∧ (∀ k, 1 < k → m.rdA k = 0#32) ∧
        m.rdFlg = 0#32 ∧ m.pc = s.chip.entryOf (n / 8) r.cup.mode ∧ m.wbuf = [] ∧ m.cur = [] ∧
        (¬prior → t.chip.mem = s.chip.mem) ∧
        (prior → MemOutside s.chip t.chip (blockOf ((r.cup.home + 1) % s.chip.nPots) r.cup.axis) 0x400 ∧
          t.chip.bytes (blockOf ((r.cup.home + 1) % s.chip.nPots) r.cup.axis) 0x400 = s.chip.bytes (blockOf r.cup.home r.cup.axis) 0x400))) ∧
    (l.slow ≠ none → ¬between → exec (.cupEntry n std) s = .next s)

/-- R120, R161, R32: at its completion instant an ended cup, a cross-steep cup too, leaves the Leaf, FLAG_SUM takes its flags and the cup is counted (premise: no word of a memory holds a double-bit error); one that reached its start plus a period quarantines the Leaf with cause OVERRUN instead and stalls the axis, and only it does. -/
def Obligations.CupCompletionAndOverrun : Prop :=
  ∀ (s : State) (n : Nat) (r : CupRun), n < 64 → r.cup.axis < 256 → r.cup.home < 8 → (s.chip.leaf n).cup = some r →
    let due := s.chip.period ≤ (s.tb.fast - r.start).toNat
    (¬due → (r.ended = true ∨ r.std = true) → s.chip.NoDouble → ∃ t, exec (.cupCompletion n) s = .next t ∧
      (t.chip.leaf n).cup = none ∧ (t.chip.leaf n).wbuf = [] ∧
      t.chip.reg (LEAF.FLAG_SUM n) = s.chip.reg (LEAF.FLAG_SUM n) ||| (s.chip.leaf n).f.flg ∧
      t.chip.reg (LEAF.CUPS n) = s.chip.reg (LEAF.CUPS n) + 1#32) ∧
    (¬due → r.ended = false → r.std = false → exec (.cupCompletion n) s = .next s) ∧
    (due → ∃ t, exec (.cupOverrun n) s = .next t ∧ (t.chip.leaf n).state = 3 ∧ (t.chip.leaf n).qcause = 3 ∧
      (t.chip.leaf n).cup = none ∧ t.chip.axStalled r.cup.axis = true) ∧
    (¬due → exec (.cupOverrun n) s = .next s)

/-- R170, R236: an idle Leaf without a cup that it could take starts the slow cup at the head of its Pot's slow queue, or, where that is empty, of the lowest-numbered Pot without a Leaf in RUN, in bank B, with the release's parameter in g16
and the staging area in a4, once every entry of the cup's input frame is written; R146, R113, R172: `end` ends a cup or a slow cup with its bundle, is a no-operation with ILL in a delay bundle, and ends a slow cup of the standard image
at once, which then waits for publication (premise: its areas, and the profile tables that a profiler reads, meet no double-bit error). -/
def Obligations.SlowCupsAndEnd : Prop :=
  (∀ (s : State) (n p : Nat) (w : SlowCup) (q : List SlowCup) (std : Bool), n < 64 → p < 8 → (s.chip.leaf n).idle = true →
    s.chip.cupFor n = false → (∀ x ∈ s.chip.slowCups, ∀ a ∈ x.owed, s.chip.owesCup a x.released.toNat = true) →
    (p = n / 8 ∨ ((s.chip.pot (n / 8)).slowQ = [] ∧ p < s.chip.nPots ∧ s.chip.runnerless p = true ∧
      ∀ q, q < p → s.chip.runnerless q = true → (s.chip.pot q).slowQ = [])) →
    (s.chip.pot p).slowQ = w :: q →
    (w.owed = [] → ∃ t, exec (.slowCupStart n std) s = .next t ∧
      let m := t.chip.leaf n
      m.slow = some { w with std := std } ∧ m.bankB = true ∧ m.slowStd = std ∧ m.rdG 16 = w.param ∧ m.rdA 4 = BitVec.ofNat 32 w.staging ∧
      m.pc = s.chip.rf (POT.SLOW_ENTRY (n / 8) w.kind) 14 0 ∧ (t.chip.pot p).slowQ = q ∧ t.chip.mem = s.chip.mem) ∧
    (w.owed ≠ [] → exec (.slowCupStart n std) s = .next s)) ∧
  (∀ (s : State) (n : Nat) (std : Bool), (s.chip.leaf n).idle = false →
    (∀ x ∈ s.chip.slowCups, ∀ a ∈ x.owed, s.chip.owesCup a x.released.toNat = true) → exec (.slowCupStart n std) s = .next s) ∧
  (∀ (s : State) (n : Nat), n < 64 → (s.chip.leaf n).canIssue = true →
    ((s.chip.leaf n).inDelay = false → Issues s n false (.endCup n) { s.chip.leaf n with endReq := true }) ∧
    ((s.chip.leaf n).inDelay = true → Issues s n false (.endCup n) ((s.chip.leaf n).put false 3 .flagSet 4))) ∧
  (∀ (s : State) (n : Nat) (r : CupRun), n < 64 → (s.chip.leaf n).canIssue = true → (s.chip.leaf n).inDelay = false →
    (s.chip.leaf n).bankB = false → (s.chip.leaf n).usedX = false → (s.chip.leaf n).cup = some r →
    ∃ t, exec (.endCup n true) s = .next t ∧ (t.chip.leaf n).cup = some { r with ended := true }) ∧
  (∀ (s : State) (n : Nat) (w : SlowCup), n < 64 → (s.chip.leaf n).canIssue = true → (s.chip.leaf n).inDelay = false →
    (s.chip.leaf n).bankB = true → (s.chip.leaf n).usedX = false → (s.chip.leaf n).slow = some w →
    ∃ t, exec (.endCup n true) s = .next t ∧ (t.chip.leaf n).slow = none ∧ (w.taken = false → w ∈ (t.chip.pot w.home).slowDone)) ∧
  (∀ (s : State) (n : Nat) (w : SlowCup) (last : Bool), n < 64 → (s.chip.leaf n).state = 2 → (s.chip.leaf n).bankB = true →
    (s.chip.leaf n).slowStd = true → (s.chip.leaf n).slow = some w →
    s.chip.meets (globalMem w.staging) w.len 8 true = false → s.chip.meets (globalMem w.published) w.len 8 true = false →
    (w.kind = 0 → ∀ k ∈ s.chip.profReads w, s.chip.meets k 128 8 true = false) →
    ∃ t, exec (.endCup n last) s = .next t ∧ (t.chip.leaf n).slow = none ∧ (t.chip.leaf n).bankB = false ∧
      (w.taken = false → w ∈ (t.chip.pot w.home).slowDone))

/-! ### Door groups (R244 to R248, R256) -/

/-- R245: ISOLATE takes an enabled group to ISOLATED from any state; OPEN takes CLOSED_LOCKED to UNLOCKING with the lock demand at POS_B and no retries counted, and CLOSING to OBSTRUCTED; CLOSE takes OPEN to CLOSING and clears HOLD_OPEN; RESTORE from ISOLATED or FAULT and RESET from FAULT lead where the position
rule says; a command without a transition in the state is counted in CMD_IGN; where no demand changes, no unit, no memory and no other block of the tick changes.  Premises: no member shows SLIP or BAD, and no word of a memory holds a double-bit error.
R244, R256: a command to a group that is not enabled does nothing; LEARN_RESET clears the learned histories and ENV_OK of the group in its published area and no other byte, where neither the area nor the entry of the service table that
names it holds an error. -/
def Obligations.DoorGroupCommands : Prop :=
  (∀ (s : State) (g : Nat), g < 32 → s.chip.en (pgSeq g) = true → s.chip.NoDouble →
    (∀ x ∈ s.chip.membersOf g, (s.chip.memIn x).slip = false ∧ (s.chip.memIn x).bad = false) →
    let st := s.chip.seqState g
    let rule := fun cmd : Nat =>
      let e := s.chip.seqNow g (some cmd)
      if s.chip.locksProved e false && s.chip.closedProved e && s.chip.profAt e false false then 0
      else if s.chip.locksProved e true && s.chip.profAt e true false then 3 else 8
    let quiet := fun t : State => (s.chip.grp g).pulse = false → t.chip.cm = s.chip.cm ∧ t.chip.tg = s.chip.tg ∧ t.chip.mem = s.chip.mem
    let after := fun (t : State) (n : Nat) => t.chip.seqState g = n ∧
      t.chip.reg (SEQ.ENTRY_TICK g) = s.chip.tg.tickNo.setWidth 32 ∧ (t.chip.reg (pgEvtRaw (pgSeq g))).getLsbD 0 = true ∧
      t.tb = s.tb ∧ t.ktl = s.ktl
    (∃ t, exec (.isolate g) s = .next t ∧ after t 15 ∧ quiet t) ∧
    (st = 0 → ∃ t, exec (.openDoors g) s = .next t ∧ after t 1 ∧ (t.chip.grp g).demand = some true ∧ t.chip.rf (SEQ.STAT g) 15 8 = 0) ∧
    (st = 4 → ∃ t, exec (.openDoors g) s = .next t ∧ after t 5 ∧ t.chip.rf (SEQ.STAT g) 27 24 = 10 ∧ t.chip.rf (SEQ.STAT g) 3 0 = 4 ∧ quiet t) ∧
    (st = 3 → ∃ t, exec (.closeDoors g) s = .next t ∧ after t 4 ∧ t.chip.rb (SEQ.STAT g) 7 = false ∧ quiet t) ∧
    (st = 15 ∨ st = 8 → ∃ t, exec (.restore g) s = .next t ∧ after t (rule 4) ∧ quiet t) ∧
    (st = 8 → ∃ t, exec (.seqReset g) s = .next t ∧ after t (rule 5) ∧ quiet t) ∧
    (st = 15 → ∃ t, exec (.seqReset g) s = .next t ∧ t.chip.seqState g = 15 ∧
      (t.chip.reg (SEQ.CMD_IGN g)).toNat = min 0xFFFFFFFF ((s.chip.reg (SEQ.CMD_IGN g)).toNat + 1))) ∧
  (∀ (s : State) (g : Nat), g < 32 →
    let p := g % s.chip.nPots
    let b := 0x1400000 + p * 0x80000 + s.chip.svcArea p (16 + g) 1
    (s.chip.en (pgSeq g) = false → exec (.openDoors g) s = .next s ∧ exec (.closeDoors g) s = .next s ∧ exec (.isolate g) s = .next s ∧
      exec (.restore g) s = .next s ∧ exec (.seqReset g) s = .next s) ∧
    ((∀ d, s.chip.meets (s.chip.svcAddr p (16 + g)) 8 8 d = false) → (∀ e ∈ s.chip.ecc, e.2 = true → ¬(b + 0x240 ≤ e.1 / 8 * 8 + 7 ∧ e.1 / 8 * 8 < b + 0xE50)) →
      ∃ t, exec (.learnReset g) s = .next t ∧ t.chip.regs = s.chip.regs ∧ t.chip.leaves = s.chip.leaves ∧ t.chip.cm = s.chip.cm ∧
      (∀ x, t.chip.byte x = if (b + 0x240 ≤ x ∧ x < b + 0x242) ∨ (b + 0x650 ≤ x ∧ x < b + 0xE50) then 0#8 else s.chip.byte x)))

/-! ### The line (R20 to R31, R42, R425) -/

/-- R20 to R24: at GATHER_OFS the head sends the Gather on both ports and marks it launched; a returning copy that is valid is kept with its stamp, a second one is dropped and counted, and an A copy that is
not valid, for its header, its FCS or its coming too late, makes A unusable; 512 ns after a valid B copy A is unusable; the Gather return, and at GATHER_LATE the miss, stand for the rest of the tick.  Each does nothing where its condition does not hold. -/
def Obligations.GatherCommands : Prop :=
  ∀ (s : State) (g port : Nat) (f : RxFrame), g < 16 → port / 2 = g →
    let x := s.chip.seg g
    let inTime := s.chip.gatherOfs ≤ s.chip.segOfs s.tb g ∧ s.chip.segOfs s.tb g < s.chip.segLate g
    (s.chip.headOn g = true → x.launched = false → s.chip.gatherOfs ≤ s.chip.segOfs s.tb g → s.chip.inTick s.tb g 0 = true →
      ∃ t l, exec (.gatherLaunch g) s = .next t ∧ (t.chip.seg g).launched = true ∧ fType l = 1 ∧ fTick l = s.chip.tickNo % 2 ^ 32 ∧
        Sends s.chip t.chip (bothPorts s.chip s.tb g l) ∧ (s.chip.hasLink (2 * g) = true → t.chip.reg (SEG.GA_TX g) = s.chip.txStart s.tb (2 * g))) ∧
    (s.chip.headOn g = false ∨ x.launched = true → exec (.gatherLaunch g) s = .next s) ∧
    (s.chip.rxTaken port f = true → s.chip.headOn g = true → x.launched = true → x.hasCopy false = false → s.chip.frameOk g f = true →
      fType f.bytes = 1 → fTenure f.bytes = s.chip.tenure → fTick f.bytes = x.tick.toNat % 2 ^ 32 → inTime →
      ∃ t, exec (.gatherCopyReceive port false f) s = .next t ∧ (t.chip.seg g).copyA = some ⟨true, fPay f.bytes, s.tb.fast⟩ ∧
        (t.chip.seg g).aBad = x.aBad ∧ t.chip.reg (SEG.GA_END g) = s.tb.fast) ∧
    (s.chip.rxTaken port f = true → s.chip.headOn g = true → x.hasCopy false = true → s.chip.frameOk g f = true →
      ∃ t, exec (.gatherCopyReceive port false f) s = .next t ∧ (t.chip.seg g).copyA = x.copyA ∧ Counted s.chip t.chip (SEG.GATHER_DROP g)) ∧
    (s.chip.rxTaken port f = true → s.chip.headOn g = true → x.launched = true → x.copyA = none → x.aBad = none →
      (s.chip.frameOk g f = false ∨ (fType f.bytes = 1 ∧ fTenure f.bytes = s.chip.tenure ∧ fTick f.bytes = x.tick.toNat % 2 ^ 32 ∧
        s.chip.segLate g ≤ s.chip.segOfs s.tb g)) →
      ∃ t, exec (.gatherCopyReceive port false f) s = .next t ∧ (t.chip.seg g).aBad = some s.tb.fast ∧
        (t.chip.seg g).copyA = some ⟨false, fPay f.bytes, s.tb.fast⟩ ∧ Counted s.chip t.chip (SEG.GATHER_DROP g)) ∧
    (s.chip.hasLink port = false → exec (.gatherCopyReceive port true f) s = .next s) ∧
    (∀ b, x.copyA = none → x.copyB = some b → b.ok = true → x.aBad = none → s.chip.headOn g = true → 512 ≤ (s.tb.fast - b.fin).toNat →
      exec (.aCopyTimeout g) s = .next (s.onChip (fun c => c.modSeg g (fun y => { y with aBad := some s.tb.fast })))) ∧
    (∀ b, x.copyB = some b → (s.tb.fast - b.fin).toNat < 512 → exec (.aCopyTimeout g) s = .next s) ∧
    (s.chip.headOn g = true → x.returned = false → x.missed = false → s.chip.returnReady s.tb g = true → s.chip.inTick s.tb g 1 = true →
      ∃ t, exec (.gatherReturn g) s = .next t ∧ (t.chip.seg g).returned = true ∧ (t.chip.seg g).retOfs = s.chip.segOfs s.tb g ∧
        t.tb = s.tb ∧ t.ktl = s.ktl) ∧
    (s.chip.returnReady s.tb g = false → exec (.gatherReturn g) s = .next s) ∧
    (s.chip.headOn g = true → x.returned = false → x.missed = false → x.useA = none → x.useB = none →
      s.chip.segLate g ≤ s.chip.segOfs s.tb g → s.chip.inTick s.tb g 1 = true →
      ∃ t, exec (.gatherMiss g) s = .next t ∧ (t.chip.seg g).missed = true ∧ Counted s.chip t.chip (SEG.GATHER_MISS g) ∧
        EventSet t.chip (pgSeg g) 0) ∧
    (x.returned = true ∨ s.chip.segOfs s.tb g < s.chip.segLate g → exec (.gatherMiss g) s = .next s)

/-- R27, R28, R30, R42, R425: a Pour whose cups are all complete leaves at once, and at POUR_CLOSE every other leaves; an axis with an on-time command is sent it with HOLD clear, one without repeats its last command with HOLD set,
and the second hold in a row sets FS; R278: a write of 1 to FS is captured as a unit.  At POUR_CLOSE + 500 ns the Tray's image is published with the next generation: it becomes the front image unless a hold stands;
a hold keeps the front image through seven publications and ends at the eighth, or with its release. -/
def Obligations.PourAndTray : Prop :=
  (∀ (s : State) (g a : Nat), g < 16 →
    let x := s.chip.seg g
    let ready := s.chip.headOn g = true ∧ x.returned = true ∧ x.poured = false ∧ x.waiting = [] ∧ x.late = false ∧
      s.chip.segOfs s.tb g < s.chip.segClose g
    (ready → ∃ t, exec (.pourLaunch g) s = .next t ∧ (t.chip.seg g).poured = true ∧ (t.chip.seg g).pourOfs = s.chip.segOfs s.tb g ∧
      (∀ l n comp, a ∈ s.chip.segAxes g → (s.chip.ax a).img = some (l, n, comp) → (t.chip.ax a).hold = false ∧
        (t.chip.ax a).sent = withFlags l (s.chip.pourFlags a false) ∧ (t.chip.ax a).lastComp = comp) ∧
      (a ∈ s.chip.segAxes g → (s.chip.ax a).img = none → (t.chip.ax a).hold = true ∧
        (t.chip.ax a).sent = withFlags (s.chip.ax a).lastCmd (s.chip.pourFlags a true) ∧
        (1 ≤ (s.chip.ax a).holdRun → t.chip.rb (AXIS.STAT a) 31 = true))) ∧
    (¬ready → exec (.pourLaunch g) s = .next s) ∧
    (s.chip.tg.running = true → s.chip.tg.poured = false → s.chip.pourClose ≤ s.chip.ofs s.tb →
      ∃ t, exec .pourClose s = .next t ∧ t.chip.tg.poured = true ∧
        (s.chip.headOn g = true → s.chip.segClose g ≤ s.chip.segOfs s.tb g → s.chip.inTick s.tb g 1 = true →
          (t.chip.seg g).poured = true))) ∧
  (∀ s : State, s.chip.tg.poured = true ∨ s.chip.ofs s.tb < s.chip.pourClose → exec .pourClose s = .next s) ∧
  (∀ (s : State) (p : Port) (a : Nat), Reaches s p (AXIS.STAT a) → ∃ t, exec (.fsClear p a) s = .next t ∧
    t.chip.cm.units = s.chip.cm.units ++ [⟨.fsClear a, false, s.chip.dueNow s.tb, s.chip.cm.seq, s.tb.fast, []⟩] ∧
    t.chip.cm.seq = s.chip.cm.seq + 1 ∧ ∀ r, t.chip.reg r = s.chip.reg r) ∧
  (∀ s : State, s.chip.tg.running = true → s.chip.tg.published = false → s.chip.pourClose + 500 ≤ s.chip.ofs s.tb →
    let left := s.chip.rf TRAY.HOLD 11 8
    ∃ t, exec .trayPublish s = .next t ∧ t.chip.tg.published = true ∧ t.chip.tray.gen = s.chip.tray.gen + 1#32 ∧
      t.chip.reg TRAY.LATEST_GEN = s.chip.tray.gen + 1#32 ∧ t.chip.reg TRAY.PUB_FAST = s.tb.fast ∧
      (left = 0 ∨ left = 1 → t.chip.tray.front = t.chip.tray.latest) ∧ (left = 1 → t.chip.reg TRAY.HOLD = 0#32) ∧
      (1 < left → t.chip.tray.front = s.chip.tray.front ∧ t.chip.rf TRAY.HOLD 11 8 = left - 1)) ∧
  (∀ s : State, s.chip.tg.published = true ∨ s.chip.ofs s.tb < s.chip.pourClose + 500 → exec .trayPublish s = .next s) ∧
  (∀ (s : State) (p : Port), Reaches s p TRAY.HOLD →
    (s.chip.rb TRAY.HOLD 0 = false →
      exec (.trayHold p) s = .next (s.onChip (fun c => c.setReg TRAY.HOLD 0x801#32)) ∧ exec (.trayHoldRelease p) s = .next s) ∧
    (s.chip.rb TRAY.HOLD 0 = true → exec (.trayHold p) s = .next s ∧
      ∃ t, exec (.trayHoldRelease p) s = .next t ∧ t.chip.reg TRAY.HOLD = 0#32 ∧
        (s.chip.tray.latest ≠ none → t.chip.tray.front = s.chip.tray.latest)))

/-! ### The Service phase (R284 to R287, R299 to R307, R324 to R326) -/

/-- R284, R297 to R299, R307: a Service slot opens once at its instant, the first with the phase's slots and their owners; the beacon and the announcement of a change send one MODE frame a tick in their window (R94), and are counted as late after it or where another frame holds the port (R95), unless their slot has passed (R311);
the decision confirms a change that every node has acknowledged and abandons another with reason 6. -/
def Obligations.ServiceSlots : Prop :=
  ∀ (s : State) (g : Nat), g < 16 → s.chip.headOn g = true →
    let x := s.chip.seg g
    let open' := s.chip.segSvc g
    let late := fun t : State => t.chip.out = s.chip.out ∧ Counted s.chip t.chip (SEG.LAUNCH_LATE g)
    let sent := fun t : State => ∃ l, fType l = 7 ∧ fTick l = s.chip.tickNo % 2 ^ 32 ∧ Sends s.chip t.chip (bothPorts s.chip s.tb g l)
    let by' := open' + s.chip.launchW g
    let window := s.chip.segOfs s.tb g < by'
    let ends := s.tb.ext + (by' - s.chip.segOfs s.tb g)
    let free := ∀ q, q / 2 = g → (s.chip.lp q).txEnd < ends
    let passed := open' + s.chip.segSlot g ≤ s.chip.segOfs s.tb g
    let spoken := fun t : State => (t.chip.seg g).modeSent = true ∧ (¬passed → window → free → sent t) ∧ (¬passed → ¬window → late t) ∧
      (¬passed → window → s.chip.hasLink (2 * g) = true → s.chip.hasLink (2 * g + 1) = false → ends ≤ (s.chip.lp (2 * g)).txEnd → late t) ∧
      (passed → t.chip.out = s.chip.out)
    (x.slots < s.chip.svcCount → open' + x.slots * s.chip.segSlot g ≤ s.chip.segOfs s.tb g →
      ∃ t, exec (.serviceSlotOpen g) s = .next t ∧ (t.chip.seg g).slots = x.slots + 1 ∧
        (x.slots = 0 → (t.chip.seg g).svcAt = x.t0 + BitVec.ofNat 32 open' ∧ (t.chip.seg g).svcLen = s.chip.segSlot g ∧
          (t.chip.seg g).svcOwners = (List.range s.chip.svcCount).map (s.chip.slotOwner g) ∧ (t.chip.seg g).judged = [])) ∧
    (s.chip.segOfs s.tb g < open' + x.slots * s.chip.segSlot g → exec (.serviceSlotOpen g) s = .next s) ∧
    (s.chip.isBeacon g = true → x.mca = false → x.modeSent = false → open' ≤ s.chip.segOfs s.tb g →
      ∃ t, exec (.modeBeacon g) s = .next t ∧ spoken t) ∧
    (s.chip.isBeacon g = false ∨ x.modeSent = true → exec (.modeBeacon g) s = .next s) ∧
    (∀ y, s.chip.tg.change = some y → x.mca = true → x.modeSent = false → open' ≤ s.chip.segOfs s.tb g →
      ∃ t, exec (.modeAnnounce g) s = .next t ∧ spoken t) ∧
    (x.mca = false → exec (.modeAnnounce g) s = .next s) ∧
    (∀ y, s.chip.tg.change = some y → s.chip.tg.running = true → y.confirmed = false → s.chip.tickNo = y.decision →
      s.chip.ofs s.tb < s.chip.gatherOfs →
      (s.chip.notAcked = none → ∃ t, exec .mcDecision s = .next t ∧
        t.chip.tg = { s.chip.tg with change := some { y with confirmed := true } } ∧ t.chip.rf TICK.MC_STAT 31 28 = 2) ∧
      (s.chip.notAcked ≠ none → ∃ t, exec .mcDecision s = .next t ∧ t.chip.tg = { s.chip.tg with change := none } ∧
        t.chip.rf TICK.MC_STAT 31 28 = 4 ∧ t.chip.rf TICK.MC_STAT 27 24 = 6)) ∧
    (s.chip.tg.change = none → exec .mcDecision s = .next s)

/-- R284 to R286, R301, R302, R324, R326: a valid frame of a record node leaves its stamp and its node in SVC_SOF and SVC_INFO; an accepted chunk that is a whole message fills the mailbox; a descriptor that passes every check is kept and one that does not refuses the node; the
acknowledgement of the parameter block admits the node from the next T0 with the path sample; a node missing for LOSS ticks becomes ABSENT with its paths unknown. -/
def Obligations.NodeFrames : Prop :=
  ∀ (s : State) (port : Nat) (f : RxFrame), port < 32 →
    let g := port / 2
    let portB := decide (port % 2 = 1)
    let pay := fPay f.bytes
    let k := be pay 0 1
    let b1 := be pay 1 1
    let d := pay.drop 4
    let n := s.chip.node g k
    let x := s.chip.seg g
    let here := s.chip.rxTaken port f = true ∧ s.chip.headOn g = true ∧ s.chip.frameOk g f = true ∧ b1 % 2 = 1 ∧ 1 ≤ k ∧ k ≤ 16
    let shown := fun t : State => t.chip.reg (SEG.SVC_SOF g) = f.sof ∧ t.chip.rf (SEG.SVC_INFO g) 4 0 = k ∧
      t.chip.reg (LP.RX_SOF port) = f.sof
    let config := here ∧ fType f.bytes = 6 ∧ k ∈ s.chip.recNodes g ∧ s.chip.admitted g k = false ∧ s.chip.drifting g k = false ∧
      k ∈ x.svcOwners ∧ s.chip.segSvc g ≤ (f.sof - x.t0).toNat ∧ (f.sof - x.t0).toNat < s.chip.segSvc g + s.chip.svcCount * s.chip.segSlot g ∧
      (k, portB) ∉ x.cfgSeen
    (here → fType f.bytes = 3 ∨ fType f.bytes = 6 → ∃ t, exec (.serviceFrameReceive port f) s = .next t ∧ shown t) ∧
    (s.chip.hasLink port = false → exec (.serviceFrameReceive port f) s = .next s) ∧
    (here → fIs f 3 1 = true → b1 / 16 = 1 → b1 / 8 % 2 = 1 → b1 / 4 % 2 = 1 → k ∈ s.chip.recNodes g → s.chip.admitted g k = true →
      s.chip.drifting g k = false → s.chip.cameBefore g k portB = false → s.chip.path g k portB ≠ 0xFFFF →
      (x.accepts k (f.sof - BitVec.ofNat 32 (s.chip.path g k portB))).1 = true → b1 / 2 % 2 ≠ n.upAck → x.mbx.rxNode = 0 →
      s.chip.rb (SEG.MBX_RX_STAT g) 31 = false → be pay 2 2 = d.length → d.length ≤ 1024 →
      ∃ t, exec (.uplinkChunk port f) s = .next t ∧ shown t ∧ t.chip.rb (SEG.MBX_RX_STAT g) 31 = true ∧
        t.chip.rf (SEG.MBX_RX_STAT g) 20 16 = k ∧ t.chip.rf (SEG.MBX_RX_STAT g) 10 0 = d.length ∧
        (t.chip.node g k).upAck = b1 / 2 % 2 ∧ EventSet t.chip (pgSeg g) 7) ∧
    (fIs f 3 1 = false → exec (.uplinkChunk port f) s = .next s) ∧
    (config → fIs f 6 2 = true → b1 / 16 = 2 → s.chip.descCheck g k d = 0 → ∃ t, exec (.desc port f) s = .next t ∧ shown t ∧
      (t.chip.node g k).descOk = true ∧ t.chip.nodeRefused g k = false) ∧
    (config → fIs f 6 2 = true → b1 / 16 = 2 → s.chip.descCheck g k d ≠ 0 → ∃ t, exec (.desc port f) s = .next t ∧ shown t ∧
      (t.chip.node g k).descOk = false ∧ t.chip.nodeRefused g k = true ∧ EventSet t.chip (pgSeg g) 14) ∧
    (fIs f 6 2 = false → exec (.desc port f) s = .next s) ∧
    (config → fIs f 6 4 = true → b1 / 16 = 4 → n.admitNext = false → n.descOk = true → n.npb ≠ [] → d.take 31 = n.npb.take 31 →
      be d 31 1 = 0 → pathSample s.tb f < 0xFFFF → ∃ t, exec (.npbAck port f) s = .next t ∧ shown t ∧
        (t.chip.node g k).admitNext = true ∧ (t.chip.node g k).upAck = 1 ∧ (t.chip.node g k).dnSeq = 0 ∧
        t.chip.path g k portB = pathSample s.tb f) ∧
    (fIs f 6 4 = false → exec (.npbAck port f) s = .next s) ∧
    (∀ j, 1 ≤ j → j ≤ 16 → s.chip.headOn g = true → s.chip.admitted g j = true →
      s.chip.rf (SEG.ADMIT_CFG g) 7 0 ≤ (s.chip.node g j).missRun → ∃ t, exec (.nodeLost g j) s = .next t ∧
        t.chip.admitted g j = false ∧ t.chip.path g j false = 0xFFFF ∧ t.chip.path g j true = 0xFFFF ∧ EventSet t.chip (pgSeg g) 13) ∧
    (∀ j, s.chip.admitted g j = false → exec (.nodeLost g j) s = .next s)

/-- R286: GO starts a message to an admitted node, or fails at once with the code of the rule; ABORT ends a message with code 4, and MBX_TO ticks without an acknowledgement with code 1; a message that comes in and stops is
discarded; writing FULL frees the receive buffer. -/
def Obligations.SegmentMailbox : Prop :=
  ∀ (s : State) (p : Port) (g : Nat) (v : Word), g < 16 →
    let stat := SEG.MBX_TX_STAT g
    let k := v.toNat / 2 ^ 16 % 2 ^ 5
    let len := v.toNat % 2 ^ 11
    let lim := s.chip.rf (SEG.MBX_TO g) 15 0
    let m := (s.chip.seg g).mbx
    let failed := fun (t : State) (code : Nat) => t.chip.mbxBusy g = false ∧ t.chip.rb stat 29 = true ∧ t.chip.rf stat 23 20 = code ∧
      EventSet t.chip (pgSeg g) 6
    (Reaches s p (SEG.MBX_TX g) → s.chip.mbxBusy g = false → 1 ≤ len → len ≤ 1024 → 1 ≤ k → k ≤ 16 → s.chip.admitted g k = true →
      4 ≤ s.chip.chunkSize g k → ∃ t, exec (.mbxTxGo p g v) s = .next t ∧ t.chip.mbxBusy g = true ∧ t.chip.rf stat 10 0 = 0 ∧
        t.chip.rf (SEG.MBX_TX g) 20 16 = k ∧ t.chip.rf (SEG.MBX_TX g) 10 0 = len ∧ t.chip.rb (SEG.MBX_TX g) 31 = true) ∧
    (Reaches s p (SEG.MBX_TX g) → s.chip.mbxBusy g = false → len = 0 ∨ 1024 < len →
      ∃ t, exec (.mbxTxGo p g v) s = .next t ∧ failed t 5) ∧
    (Reaches s p (SEG.MBX_TX g) → s.chip.mbxBusy g = true → v.getLsbD 30 = false → exec (.mbxTxGo p g v) s = .next s) ∧
    (Reaches s p (SEG.MBX_TX g) → s.chip.mbxBusy g = true → ∃ t, exec (.mbxTxAbort p g v) s = .next t ∧ failed t 4) ∧
    (Reaches s p (SEG.MBX_TX g) → s.chip.mbxBusy g = false → v.getLsbD 31 = false →
      ∃ t, exec (.mbxTxAbort p g v) s = .next t ∧ RegsOf [SEG.MBX_TX g] s t ∧ t.chip.rf (SEG.MBX_TX g) 10 0 = len) ∧
    (Reaches s p (SEG.MBX_RX_STAT g) → ∃ t, exec (.mbxRxFree p g) s = .next t ∧ RegsOf [SEG.MBX_RX_STAT g] s t ∧
      (Tab.get (fun _ => 0#32) s.chip.fresh (SEG.MBX_RX_STAT g) = 0#32 →
        t.chip.reg (SEG.MBX_RX_STAT g) = s.chip.reg (SEG.MBX_RX_STAT g) &&& 0x7FFFFFFF#32)) ∧
    (s.chip.mbxBusy g = true → m.chunk ≠ 0 → lim ≠ 0 → lim ≤ s.chip.tickNo - m.firstTx.toNat →
      ∃ t, exec (.mbxTimeout g) s = .next t ∧ failed t 1) ∧
    (s.chip.mbxBusy g = false ∨ lim = 0 → exec (.mbxTimeout g) s = .next s) ∧
    (m.rxNode ≠ 0 → lim ≠ 0 → lim ≤ s.chip.tickNo - m.rxTick.toNat → ∃ t, exec (.mbxRxTimeout g) s = .next t ∧
      (t.chip.seg g).mbx.rxNode = 0 ∧ t.chip.rb (SEG.MBX_RX_STAT g) 30 = true ∧ EventSet t.chip (pgSeg g) 8) ∧
    (m.rxNode = 0 ∨ lim = 0 → exec (.mbxRxTimeout g) s = .next s)

/-! ### Start-up, delay rounds and ports (R314, R315, R319 to R322, R333 to R337) -/

/-- R319 to R322, R314, R315: LISTEN ends in COLDSTART for 3 ticks, COLDSTART in HEAD with the starting tenure; a COLDSTART frame of a better standing makes the chip standby with its sender as rival; an extended LISTEN ends with a tenure of 0;
the requests and responses of a delay round, which a mode tick skips, leave once, each stamped with the instant at which its port is free, and a response gives the head the hop delay; R345, R352: in ALIGN it steps the time base of a standby by the offset. -/
def Obligations.StartUpAndDelay : Prop :=
  ∀ (s : State) (g port : Nat) (f : RxFrame), g < 16 → port / 2 = g →
    let c := s.chip
    let pay := fPay f.bytes
    let id := be pay 0 8
    let portB := decide (port % 2 = 1)
    let x := c.seg g
    let sent := if portB then x.dlySentB else x.dlySentA
    let got := if portB then x.dlyGotB else x.dlyGotA
    let t1 := be pay 4 4
    let two := c.hasLink (2 * g) = true ∧ c.hasLink (2 * g + 1) = true
    let starts := fun n : Nat => (s.tb.lns + ((c.lp n).txEnd - s.tb.ext)) % 2 ^ 32
    (c.tg.running = true → c.lstate = 1 → c.tg.lineLeft = 0 → c.startTenure ≠ 0 → c.role ≠ 0 → ∃ t, exec .listenEnd s = .next t ∧
      t.chip.lstate = 2 ∧ t.chip.tg = { c.tg with lineLeft := 3, coldSent := false } ∧ EventSet t.chip pgTick 13) ∧
    (c.lstate ≠ 1 ∨ c.tg.lineLeft ≠ 0 → exec .listenEnd s = .next s ∧ exec .extendedListenEnd s = .next s) ∧
    (c.tg.running = true → c.lstate = 2 → c.tg.lineLeft = 0 → ∃ t, exec .coldstartEnd s = .next t ∧ t.chip.lstate = 3 ∧
      t.chip.tenure = c.startTenure) ∧
    (c.lstate ≠ 2 → exec .coldstartEnd s = .next s ∧ exec .coldstartLaunch s = .next s) ∧
    (c.tg.running = true → c.lstate = 2 → c.tg.coldSent = false → c.gatherOfs ≤ c.ofs s.tb → c.runSegs = [g] →
      ∃ t l, exec .coldstartLaunch s = .next t ∧ t.chip.tg = { c.tg with coldSent := true } ∧ fType l = 5 ∧
        Sends c t.chip (bothPorts c s.tb g l)) ∧
    (c.hasLink port = true → c.segRun g = true → c.frameOk g f = true → fType f.bytes = 5 → id ≠ c.unitId →
      c.betterThanOwn (be pay 9 1) id = true → c.lstate = 1 ∨ c.lstate = 2 → ∃ t, exec (.coldstartReceive port f) s = .next t ∧
        t.chip.lstate = 4 ∧ t.chip.rf TICK.LINE_STAT 27 24 = 2 ∧ t.chip.pair TICK.RIVAL_LO TICK.RIVAL_HI = id % 2 ^ 40 ∧
        t.chip.tg = { c.tg with lineLeft := 0, change := none }) ∧
    (c.hasLink port = true → c.segRun g = true → c.frameOk g f = true → fType f.bytes = 5 → id ≠ c.unitId →
      c.betterThanOwn (be pay 9 1) id = false → c.lstate = 1 → c.role ≠ 0 → c.startTenure ≠ 0 →
      ∃ t, exec (.coldstartReceive port f) s = .next t ∧ t.chip.tg = { c.tg with lineLeft := 1 } ∧ t.chip.lstate = 1) ∧
    (c.tg.running = true → c.lstate = 1 → c.tg.lineLeft = 0 → c.startTenure = 0 → 2100000000 ≤ c.tg.quietNs → c.role ≠ 0 →
      ∃ t, exec .extendedListenEnd s = .next t ∧ t.chip.lstate = 2 ∧ t.chip.tenureRet = 0 ∧ t.chip.startTenure = 1 ∧ t.chip.tenure = c.tenure) ∧
    (c.delayParty g = true → c.isDelay1 g = true → c.roundSkipped g = false → x.dlyOn = false → c.segSvc g ≤ c.segOfs s.tb g → two →
      ∃ t la lb, exec (.delayReqSend g) s = .next t ∧ (t.chip.seg g).dlyOn = true ∧ (t.chip.seg g).dlySentA = some (starts (2 * g)) ∧
        (t.chip.seg g).dlySentB = some (starts (2 * g + 1)) ∧ fType la = 4 ∧ fType lb = 4 ∧ be (fPay la) 4 4 = starts (2 * g) ∧
        be (fPay lb) 4 4 = starts (2 * g + 1) ∧ Sends c t.chip [.frame (2 * g) true la, .frame (2 * g + 1) true lb]) ∧
    (x.dlyOn = true ∨ c.isDelay1 g = false → exec (.delayReqSend g) s = .next s) ∧
    (c.delayFrame port 0 f = true → c.delayParty g = true → c.isDelay1 g = true → c.roundSkipped g = false → ∃ t, exec (.delayReqReceive port f) s = .next t ∧
      (t.chip.seg g).dlyReqs = x.dlyReqs ++ [⟨portB, be pay 0 2, t1, s.tb.lnsOf f.sof⟩]) ∧
    (c.delayFrame port 0 f = false ∨ c.roundSkipped g = true → ∃ t, exec (.delayReqReceive port f) s = .next t ∧ t.chip.seg g = x) ∧
    (c.hasLink port = false → exec (.delayReqReceive port f) s = .next s ∧ exec (.delayRespReceive port f) s = .next s) ∧
    (∀ q, c.delayParty g = true → c.isDelay2 g = true → c.roundSkipped g = false → c.segSvc g ≤ c.segOfs s.tb g → x.dlyReqs = [q] →
      c.hasLink (2 * g + (if q.portB then 1 else 0)) = true → ∃ t l, exec (.delayRespSend g) s = .next t ∧ (t.chip.seg g).dlyReqs = [] ∧
        fType l = 4 ∧ be (fPay l) 12 4 = starts (2 * g + (if q.portB then 1 else 0)) ∧
        Sends c t.chip [.frame (2 * g + (if q.portB then 1 else 0)) true l]) ∧
    (c.isDelay2 g = false → exec (.delayRespSend g) s = .next s) ∧
    (c.isHead = true → c.delayFrame port 1 f = true → c.delayParty g = true → c.isDelay2 g = true → x.dlyOn = true → got = false →
      sent = some t1 → be pay 0 2 = c.dseq g → ∃ t, exec (.delayRespReceive port f) s = .next t ∧
        t.chip.reg (if portB then SEG.HOP_B g else SEG.HOP_A g) = BitVec.ofNat 32 (2 ^ 31 + 2 ^ 16 * (be pay 3 1 % 32) +
          (BitVec.ofInt 16 (8 * (lnsDiff (s.tb.lnsOf f.sof) t1 - lnsDiff (be pay 12 4) (be pay 8 4)))).toNat) ∧
        (if portB then (t.chip.seg g).dlyGotB else (t.chip.seg g).dlyGotA) = true) ∧
    (c.isStandby = true → c.stby.sstate = 1 → c.rf STBY.CATCH 31 28 = 0 → c.delayFrame port 1 f = true → c.delayParty g = true →
      c.isDelay2 g = true → x.dlyOn = true → got = false → sent = some t1 → be pay 0 2 = c.dseq g → be pay 3 1 = 0 → c.syncPort port = true →
      ∃ t, exec (.delayRespReceive port f) s = .next t ∧ t.chip.stby.aligned = true ∧
        t.tb = s.tb.stepBy ((8 * (lnsDiff (be pay 8 4) t1 - lnsDiff (s.tb.lnsOf f.sof) (be pay 12 4)) + 8).fdiv 16)) ∧
    (c.delayFrame port 1 f = false → ∃ t, exec (.delayRespReceive port f) s = .next t ∧ t.chip.seg g = x ∧ t.tb = s.tb)

/-- R330, R333, R334, R336, R337: a training port comes up with its stamp, enters service after 1 ms, and a loss of its link sends it back to training; LQ follows the margin while the link is up, from a value that the spec leaves open (log entry 65); a cable test runs from IDLE only, and its end gives the result; a discarded
frame is counted. -/
def Obligations.LinePorts : Prop :=
  ∀ (s : State) (p : Port) (n result dist corr unc sym : Nat) (m : Int) (cut : Bool) (sof : Word), n < 32 →
    let l := s.chip.lp n
    let up := l.state = 3 ∨ l.state = 4
    let served := l.state = 3 ∧ l.upAt + 1000000 ≤ (if s.chip.tg.running then s.chip.tg.t0Cycle else s.tb.cycle)
    (l.state = 2 → s.chip.phyOk = true → ∃ t, exec (.up n) s = .next t ∧
      t.chip.lp n = { l with state := 3, upAt := s.tb.cycle, lq := (t.chip.lp n).lq } ∧ 1 ≤ (t.chip.lp n).lq ∧ (t.chip.lp n).lq ≤ 7 ∧
      t.chip.reg (LP.LINK_AT n) = s.tb.fast ∧ EventSet t.chip (pgLp n) 0 ∧ ∀ j, j ≠ n → t.chip.lp j = s.chip.lp j) ∧
    (l.state ≠ 2 → exec (.up n) s = .next s) ∧
    (served → ∃ t, exec (.inserv n) s = .next t ∧ t.chip.lp n = { l with state := 4 } ∧ EventSet t.chip (pgLp n) 2 ∧
      t.chip.rf (LP.LQ_LOWEST n) 2 0 = min l.lq (s.chip.rf (LP.LQ_LOWEST n) 2 0)) ∧
    (¬served → exec (.inserv n) s = .next s) ∧
    (up → ∃ t, exec (.down n cut) s = .next t ∧ t.chip.lp n = { l with state := 2, lq := 0 } ∧ EventSet t.chip (pgLp n) 1 ∧
      ∀ j, j ≠ n → t.chip.lp j = s.chip.lp j) ∧
    (¬up → exec (.down n cut) s = .next s) ∧
    (up → ∃ t, exec (.lqUpdate n m corr unc sym) s = .next t ∧
      t.chip.lp n = { l with lq := if m + 4 < 1 then 1 else if 7 < m + 4 then 7 else (m + 4).toNat } ∧
      ∀ j, j ≠ n → t.chip.lp j = s.chip.lp j) ∧
    (¬up → exec (.lqUpdate n m corr unc sym) s = .next s) ∧
    (Reaches s p (LP.CABLE_CTRL n) → l.state = 1 → ∃ t, exec (.cableGo p n) s = .next t ∧ (t.chip.lp n).state = 6 ∧
      t.chip.rb (LP.CABLE_CTRL n) 0 = true) ∧
    (Reaches s p (LP.CABLE_CTRL n) → l.state ≠ 1 → ∃ t, exec (.cableGo p n) s = .next t ∧ t.chip.lp n = l ∧
      Counted s.chip t.chip (pgErrcnt (pgLp n))) ∧
    (l.state = 6 → result < 4 → dist < 2 ^ 16 → s.chip.en (pgLp n) = false → ∃ t, exec (.cableDone n result dist) s = .next t ∧
      (t.chip.lp n).state = 1 ∧ t.chip.rf (LP.CABLE_STAT n) 31 30 = result ∧
      t.chip.rf (LP.CABLE_STAT n) 15 0 = (if result = 0 then 0 else dist) ∧ EventSet t.chip (pgLp n) 5 ∧
      t.chip.rb (LP.CABLE_CTRL n) 0 = false) ∧
    (l.state ≠ 6 → exec (.cableDone n result dist) s = .next s) ∧
    (l.state = 4 → ∃ t, exec (.rxOther n cut sof) s = .next t ∧ Counted s.chip t.chip (if cut then LP.RX_ABORT n else LP.RX_OTHER n) ∧
      t.chip.reg (LP.RX_SOF n) = sof ∧
      RegsOf [LP.RX_SOF n, LP.RX_EOF n, LP.RX_ABORT n, LP.RX_OTHER n, pgErrcnt (pgLp n)] s t) ∧
    (l.state ≠ 4 → exec (.rxOther n cut sof) s = .next s)

/-! ### The standby pair (R344 to R367) -/

/-- R347 to R352, R355, R356, R367: a message is taken once while a lane is locked, and one with a wrong CRC is counted; HELLO pairs chips that agree and refuses others with a reason; a SEAL, an ENTRY, a CLAIM, a TICK message, a RELAY, a REPORT and catch-up data leave what they bring with the chip whose state they are for;
silence ends the pairing; a lane's lock is kept. -/
def Obligations.StandbyMessages : Prop :=
  ∀ (s : State) (x : LinkRx) (a g no role id part rev lstate sstate h recl lane srcB : Nat) (m : Seal) (e : Entry) (ok locked : Bool)
    (samples : List (List Word)) (recs : List NodeRec) (dg : Nat) (l : List Byte),
    let c := s.chip
    let t0 := c.stby
    let taken := fun (f : Stby → Stby) => s.onChip (fun c => c.modStby (fun t =>
      f { t with rxSeqs := (x.seq :: t.rxSeqs).take 64, quietNs := 0 }))
    let takes := c.linkUpStby = true ∧ x.crcOk = true ∧ x.seq ∉ t0.rxSeqs
    let paired := takes ∧ t0.paired = true
    let mc := c.rf TICK.MC_STAT 31 28
    let owes := c.tg.change = none ∧ (mc = 1 ∨ mc = 2)
    (c.linkUpStby = true → x.crcOk = false →
      exec (.hello x part rev id role lstate sstate) s = .next (s.onChip (fun c => c.trouble STBY.LINK_ERR))) ∧
    (c.linkUpStby = false ∨ (x.crcOk = true ∧ x.seq ∈ t0.rxSeqs) → exec (.hello x part rev id role lstate sstate) s = .next s ∧
      exec (.sealMsg x m ok) s = .next s ∧ exec (.entry x e) s = .next s) ∧
    (takes → c.pairRefuse part rev role = 0 → lstate ≠ 3 → ∃ t, exec (.hello x part rev id role lstate sstate) s = .next t ∧
      t.chip.stby.paired = true ∧ t.chip.stby.refuse = 0 ∧ t.chip.stby.peerSstate = sstate ∧
      t.chip.reg STBY.PEER_ID_LO = BitVec.ofNat 32 id) ∧
    (takes → c.pairRefuse part rev role ≠ 0 → lstate ≠ 3 → ∃ t, exec (.hello x part rev id role lstate sstate) s = .next t ∧
      t.chip.stby.paired = false ∧ t.chip.stby.refuse = c.pairRefuse part rev role ∧ t.chip.stby.peerSstate = 0) ∧
    (c.linkUpStby = true → ∃ t, exec .helloSend s = .next t ∧ t.chip.linkSeq = (c.linkSeq + 1) % 2 ^ 16 ∧
      Sends c t.chip [.link 1 (Config.linkFlags 1) c.linkSeq (Config.linkLen c.linkSeq) c.tenure (.hello (c.rf CHIP.CHIP_ID 31 16) (c.rf CHIP.CHIP_ID 7 0) c.unitId c.role c.lstate
        c.tenure t0.sstate)]) ∧
    (c.linkUpStby = false → exec .helloSend s = .next s) ∧
    (paired → c.follows = true → m.tick = c.tickNo % 2 ^ 32 →
      exec (.sealMsg x m true) s = .next (taken (fun t => { t with handover := m.handover, sealed := some m })) ∧
      exec (.sealMsg x m false) s = .next (taken (fun t => { t with handover := m.handover, oosNext := true }))) ∧
    (paired → c.follows = true → (∀ k q i ws, e = .unit k q i ws → ∀ b, k ≠ .fsClear b ∧ k ≠ .reset b) →
      exec (.entry x e) s = .next (taken (fun t => { t with journal := t.journal ++ [e] }))) ∧
    (paired → c.follows = true → ∃ t, exec (.entry x e) s = .next t ∧
      t.chip.stby = { t0 with rxSeqs := (x.seq :: t0.rxSeqs).take 64, quietNs := 0, journal := t0.journal ++ [e] } ∧
      t.chip.cm = c.cm ∧ t.chip.regs = c.regs) ∧
    (paired → c.isHead = true → exec (.claim x h recl) s = .next (taken (fun t => { t with claim := some (h % 2 ^ 32, recl) }))) ∧
    (paired → c.isStandby = true → c.catchPhase ≠ some 0 → no = c.tickNo → ∃ t, exec (.tickMessage x no role id samples) s = .next t ∧
      t.chip.stby.tickSeen = true ∧ t.chip.stby.headRole = role ∧
      (g < 16 → (c.seg g).tick = c.tg.tickNo → (c.seg g).active = true → (t.chip.seg g).sampled = true)) ∧
    (paired → c.isStandby = true → g < 16 → c.segRun g = true → g ∉ t0.relayed → t0.sstate = 2 →
      c.segOfs s.tb g ≤ c.segLate g + 2000 → (c.seg g).sampled = true →
      (∃ t, exec (.relay x true g true srcB recs) s = .next t ∧ (t.chip.seg g).missed = true ∧
        t.chip.stby.relayed = t0.relayed ++ [g] ∧ Counted c t.chip (SEG.GATHER_MISS g)) ∧
      (∃ t, exec (.relay x true g false srcB recs) s = .next t ∧ (t.chip.seg g).returned = true ∧
        t.chip.stby.relayed = t0.relayed ++ [g]) ∧
      exec (.relay x false g ok srcB recs) s = .next (taken (fun t => { t with oosNext := true }))) ∧
    (paired → c.isHead = true → t0.xsCount ≤ 4 → exec (.report x g [] []) s = .next (taken (fun t => t))) ∧
    (paired → c.isHead = true → c.rb STBY.CFG 5 = true → t0.peerSstate = 2 → t0.xsCount ≤ 3 → (c.segAxes g).count a = 1 → c.freshDigest g a = true → dg ≠ (c.ax a).digest →
      ∃ t, exec (.report x g [] [(a, dg)]) s = .next t ∧ t.chip.stby.xsCount = t0.xsCount + 1 ∧
        t.chip.stby.xs.length = t0.xs.length + 1 ∧ Counted c t.chip STBY.MISMATCH) ∧
    (paired → c.isStandby = true → c.catchPhase = some 1 →
      (∃ t, exec (.catchMsg x [.mem a l]) s = .next t ∧ t.chip.bytes a l.length = l ∧ MemOutside c t.chip a l.length ∧ t.chip.regs = c.regs) ∧
      (¬owes → exec (.catchMsg x [.imageEnd]) s = .next (taken (fun t => { t with imageEnd := true }))) ∧
      (owes → ∃ t y, exec (.catchMsg x [.imageEnd]) s = .next t ∧ t.chip.stby.imageEnd = true ∧ t.chip.regs = c.regs ∧
        t.chip.tg.change = some y ∧ y.target = c.rf TICK.MC_STAT 2 0 ∧ y.confirmed = decide (mc = 2))) ∧
    (∀ y, c.isHead = true → t0.paired = true → t0.peerSstate = 1 → c.mayGive y = true → c.ecc = [] → ∃ t, exec (.catchSend [y]) s = .next t ∧
      t.chip.linkSeq = (c.linkSeq + 1) % 2 ^ 16 ∧ t.chip.regs = c.regs ∧
      Sends c t.chip [.link 8 (Config.linkFlags 8) c.linkSeq (Config.linkLen c.linkSeq) c.tenure (.catchUp [c.catchGive y])]) ∧
    (∀ y, t0.peerSstate ≠ 1 ∨ c.mayGive y = false → exec (.catchSend [y]) s = .next s) ∧
    (t0.paired = true → (if c.tg.running then 2 * c.period else 2000000) ≤ t0.quietNs → ∃ t, exec .standbyLinkDown s = .next t ∧
      t.chip.stby.paired = false ∧ t.chip.stby.peerSstate = 0 ∧ Counted c t.chip STBY.LINK_DOWNS ∧ EventSet t.chip pgStby 0) ∧
    (t0.paired = false → exec .standbyLinkDown s = .next s) ∧
    (c.pairEn = true → 0 ∉ c.rst.lost → 4 ∉ c.rst.unlocked → exec (.slLaneLock lane locked) s = .next (s.onChip (fun c =>
      c.modStby (fun t => if lane = 0 then { t with sl0 := locked } else { t with sl1 := locked })))) ∧
    (c.pairEn = false → exec (.slLaneLock lane locked) s = .next s)

/-- R344, R353, R355 to R358, R342, R363, R364, R366: GUARD_OPEN comes once a tick and the head closes the journal then; frames pass on the other port, or turn back where it has no link; a standby compares the first Pour of a segment once, counts a difference, and at SVC_OPEN without one counts the axes in NOCMP; a verdict ends its cross-steep and is shown;
a takeover makes the standby head with the next tenure; a handover is asked for by the head of a pair in step; REJOIN enters catch-up; a role changes while no tick runs; a head that sees a higher tenure is deposed and loses what waits, and one of lower tenure is counted. -/
def Obligations.StandbyRoles : Prop :=
  ∀ (s : State) (p : Port) (g port a : Nat) (f : RxFrame) (v : Word), g < 16 → port / 2 = g →
    let c := s.chip
    let t0 := c.stby
    let pay := fPay f.bytes
    let other := if port % 2 = 1 then port - 1 else port + 1
    let out := if c.hasLink other then other else port
    let passes := c.forwards f = true ∧ c.rxTaken port f = true ∧ c.segRun g = true
    let watching := c.isStandby = true ∧ c.comparing = true ∧ t0.sstate = 2 ∧ c.segRun g = true ∧ (c.seg g).active = true ∧
      g ∉ t0.compared ∧ (c.seg g).pourSeen = none
    let compares := watching ∧ c.hasLink port = true ∧ c.frameOk g f = true ∧ fType f.bytes = 2 ∧
      fTick f.bytes = (c.seg g).tick.toNat % 2 ^ 32
    let guard := c.tg.running = true ∧ c.tg.guarded = false ∧ c.guardOpen ≤ c.ofs s.tb
    (guard → t0.paired = false → t0.xs = [] → exec .guardOpen s = .next (s.onChip (fun c => c.modTg (fun t => { t with guarded := true })))) ∧
    (guard → t0.paired = true → c.isHead = true → t0.deposed = false → ∃ t, exec .guardOpen s = .next t ∧ t.chip.tg.guarded = true ∧
      t.chip.stby.sent = 0 ∧ t.chip.stby.claim = none) ∧
    (¬guard → exec .guardOpen s = .next s) ∧
    (passes → fType f.bytes ≠ 4 → ∃ t, exec (.frameForward port f) s = .next t ∧ Sends c t.chip [.frame out f.fcsOk f.bytes] ∧
      t.chip.reg (LP.RX_SOF port) = f.sof ∧ t.chip.reg (LP.TX_SOF out) = fwdSof port f ∧
      (c.foreignHead port f = true → fType f.bytes = 1 → c.lstate = 1 → t.chip.lstate = 4 ∧ t.chip.rf TICK.LINE_STAT 27 24 = 1)) ∧
    (fType f.bytes = 4 ∨ c.forwards f = false → ∃ t, exec (.frameForward port f) s = .next t ∧ t.chip.out = c.out ∧
      t.chip.lstate = c.lstate) ∧
    (c.isHead = true → t0.deposed = true → (c.forwards f = true ↔ 0 ≤ (f.sof - t0.deposedAt).toInt)) ∧
    (c.hasLink port = false → exec (.frameForward port f) s = .next s) ∧
    (compares → (∀ b ∈ c.segAxes g, c.compareAxis g b pay = 1) → ∃ t, exec (.pourCompare port f) s = .next t ∧
      t.chip.stby.compared = t0.compared ++ [g] ∧ t.chip.stby.mism = t0.mism ∧
      t.chip.reg STBY.MISMATCH = c.reg STBY.MISMATCH ∧ t.chip.linkSeq = (c.linkSeq + 1) % 2 ^ 16) ∧
    (compares → c.segAxes g = [a] → c.compareAxis g a pay = 2 → ∃ t, exec (.pourCompare port f) s = .next t ∧
      t.chip.stby.compared = t0.compared ++ [g] ∧ (t.chip.stby.mism.map (fun e => e.1)) = t0.mism.map (fun e => e.1) ++ [a] ∧
      Counted c t.chip STBY.MISMATCH) ∧
    (watching → c.frameOk g f = false → c.segSvc g ≤ c.segOfs s.tb g → ∃ t, exec (.pourCompare port f) s = .next t ∧
      t.chip.stby.compared = t0.compared ++ [g] ∧
      (t.chip.reg STBY.NOCMP).toNat = min 0xFFFFFFFF ((c.reg STBY.NOCMP).toNat + (c.segAxes g).length)) ∧
    (watching → c.frameOk g f = false → c.segOfs s.tb g < c.segSvc g → exec (.pourCompare port f) s = .next s) ∧
    ((g ∈ t0.compared ∧ (c.seg g).pourSeen ≠ none) ∨ c.isStandby = false → exec (.pourCompare port f) s = .next s) ∧
    (∀ x, t0.xs = [x] → x.axis = a → x.result ≠ none → c.isHead = true → ∃ t, exec (.verdict a) s = .next t ∧ t.chip.stby.xs = [] ∧
      t.chip.reg STBY.XS_LAST = BitVec.ofNat 32 (2 ^ 31 + 2 ^ 28 * c.verdictOn x + 2 ^ 16 * x.leaf + x.axis) ∧
      Counted c t.chip (if c.verdictOn x = 1 then STBY.XS_HEAD else if c.verdictOn x = 2 then STBY.XS_STBY else STBY.XS_OTHER) ∧
      EventSet t.chip pgStby 3) ∧
    (t0.xs = [] → exec (.verdict a) s = .next s) ∧
    (c.eligible = true → ∃ t, exec .takeover s = .next t ∧ t.chip.lstate = 3 ∧ t.chip.tenure = c.tenure + 1 ∧ t.chip.stby.sstate = 0 ∧
      EventSet t.chip pgStby 4 ∧ t.tb = { s.tb with keep := true } ∧ (t0.sealed = none → t.chip.stby.journal = [])) ∧
    (c.eligible = false → exec .takeover s = .next s) ∧
    (Reaches s p STBY.CTRL → (c.isHead = true ∧ t0.paired = true ∧ t0.peerSstate = 2 ∧ c.tenure ≠ 0xFFFF →
      exec (.handover p) s = .next (s.onChip (fun c => c.modStby (fun t => { t with handReq := true })))) ∧
      (c.isHead = false → exec (.handover p) s = .next s)) ∧
    (Reaches s p STBY.CTRL → (c.isStandby = true → t0.sstate = 3 → ∃ t, exec (.rejoin p) s = .next t ∧ t.chip.stby.sstate = 1 ∧
      t.chip.catchPhase = some 0 ∧ EventSet t.chip pgStby 1) ∧ (t0.sstate ≠ 3 → exec (.rejoin p) s = .next s)) ∧
    (Reaches s p STBY.CFG → c.tg.running = false → v.toNat % 4 ≠ 3 → ∃ t, exec (.roleWrite p v) s = .next t ∧ t.chip.role = v.toNat % 4) ∧
    (Reaches s p STBY.CFG → c.tg.running = true → v.toNat % 4 ≠ c.role → ∃ t, exec (.roleWrite p v) s = .next t ∧
      t.chip.role = c.role ∧ EventSet t.chip pgStby 8) ∧
    (c.isHead = true → t0.deposed = false → c.foreignHead port f = true → c.tenure < fTenure f.bytes → ∃ t, exec (.deposed port f) s = .next t ∧
      t.chip.stby.deposed = true ∧ t.chip.cm.units = [] ∧ t.chip.cm.staged = [] ∧ t.chip.rf STBY.DEPOSE 31 28 = 1 ∧
      t.chip.tenure = fTenure f.bytes % 2 ^ 16 ∧ EventSet t.chip pgStby 5) ∧
    (c.foreignHead port f = false → exec (.deposed port f) s = .next (s.onChip (fun c => c.rxHead s.tb port f))) ∧
    (c.isHead = true → t0.deposed = false → c.foreignHead port f = true → fTenure f.bytes < c.tenure → ∃ t, exec (.oldTenure port f) s = .next t ∧
      Counted c t.chip STBY.OLD_TENURE ∧ t.chip.stby = { t0 with seen := max t0.seen (fTenure f.bytes) }) ∧
    (c.isHead = false → exec (.oldTenure port f) s = .next (s.onChip (fun c => c.rxHead s.tb port f)))
/-! ### Power, clocks and resets (R454, R455, R461, R472 to R479) -/

/-- R472 to R474, R479: with no other request open, a power-up of the Caddy's domain starts its transition, a power-down of PD2 while the tick runs is refused with reason 2, and while it is stopped takes every domain above with it, the highest first, whatever the write asks of them; the end of a transition turns its domain on, or reports it off; a loss of lock is counted and
named and takes the links of its PLL down, a relock ends it; a supply that is lost takes its links with it. -/
def Obligations.PowerAndClocks : Prop :=
  ∀ (s : State) (p : Port) (d k : Nat),
    let c := s.chip
    let quiet := c.rst.ramp = none ∧ c.rst.filling = [] ∧ ∀ e, e < 16 → c.domOn e = c.domReq e
    (Reaches s p PWR.DOM_REQ → quiet → c.rst.held = [] → c.inDecaf = false → c.domOn 2 = true → c.domOn 3 = false → ∃ t,
      exec (.domReqWrite p (c.reg PWR.DOM_REQ ||| 8#32)) s = .next t ∧ t.chip.domReq 3 = true ∧ t.chip.domOn 3 = false ∧
        t.chip.rst.ramp = some (3, true) ∧ t.tb = s.tb) ∧
    (Reaches s p PWR.DOM_REQ → quiet → c.domOn 2 = true → c.tg.running = true → ∃ t,
      exec (.domReqWrite p (c.reg PWR.DOM_REQ &&& 0xFFFFFFFB#32)) s = .next t ∧ t.chip.domReq 2 = true ∧ t.chip.rst.ramp = none ∧
        t.chip.reg PWR.LAST_REF = 0x20000002#32 ∧ Counted c t.chip PWR.REFUSED ∧ EventSet t.chip pgPwr 2) ∧
    (Reaches s p PWR.DOM_REQ → quiet → c.rst.held = [] → c.domOn 2 = true → c.tg.running = false → ∀ v : Word, v.toNat % 8 = 3 →
      c.domOn 0 = true → c.domOn 1 = true → (∀ e, d < e → e < 16 → c.domOn e = false) → 2 ≤ d → d < 16 → c.domOn d = true → ∃ t,
      exec (.domReqWrite p v) s = .next t ∧ (∀ e, 2 ≤ e → e < 16 → t.chip.domReq e = false) ∧ t.chip.rst.ramp = some (d, false) ∧
        t.chip.domOn d = false ∧ (2 < d → t.chip.domOn 2 = true ∧ t.tb = s.tb)) ∧
    (d = 1 ∨ d = 2 → c.rst.ramp = some (d, true) → c.rst.filling = [] → c.domOn d = false → c.domReq d = true →
      (∀ e, e < 16 → e ≠ d → c.domOn e = c.domReq e) → ∃ t, exec .domainTransitionDone s = .next t ∧ t.chip.domOn d = true ∧
        t.chip.rst.ramp = none ∧ EventSet t.chip pgPwr 0) ∧
    (d < 16 → c.rst.ramp = some (d, false) → c.rst.filling = [] → c.domOn d = false → (∀ e, e < 16 → c.domOn e = c.domReq e) → ∃ t,
      exec .domainTransitionDone s = .next t ∧ t.chip.rst.ramp = none ∧ EventSet t.chip pgPwr 1 ∧
        t.chip.reg PWR.DOM_ON = c.reg PWR.DOM_ON) ∧
    (c.rst.ramp = none → exec .domainTransitionDone s = .next s) ∧
    (c.pllLocked k = true → ∃ t, exec (.pllUnlock k) s = .next t ∧ k ∈ t.chip.rst.unlocked ∧ Counted c t.chip (CLK.UNLOCK k) ∧
      EventSet t.chip pgClk k ∧ (k = 0 → t.chip.rb CLK.HOLDOVER 0 = true) ∧ (k = 2 → t.chip.reg HOSTIF.LINK = 0#32) ∧
      (k = 4 → t.chip.stby.sl0 = false ∧ t.chip.stby.sl1 = false) ∧
      (k = 3 → ∀ n, n < 32 → c.hasLink n = true → (t.chip.lp n).state = 2)) ∧
    (c.pllLocked k = false → exec (.pllUnlock k) s = .next s) ∧
    (k ∈ c.rst.unlocked → ∃ t, exec (.pllRelock k) s = .next t ∧ k ∉ t.chip.rst.unlocked ∧ (k = 0 → t.chip.reg CLK.HOLDOVER = 0#32) ∧
      (∀ a, a ≠ CLK.HOLDOVER → t.chip.reg a = c.reg a)) ∧
    (k ∉ c.rst.unlocked → exec (.pllRelock k) s = .next s) ∧
    (k ≤ 2 → ∃ t, exec (.supplyLoss k false) s = .next t ∧ k ∈ t.chip.rst.lost ∧
      (k = 0 → t.chip.reg HOSTIF.LINK = 0#32 ∧ t.chip.stby.sl0 = false ∧ t.chip.stby.sl1 = false) ∧
      (k ≠ 0 → ∀ n, n < 32 → (c.lp n).state = 3 ∨ (c.lp n).state = 4 → (t.chip.lp n).state = 2)) ∧
    (exec (.supplyLoss k true) s = .next (s.onChip (fun c => { c with
      rst := { c.rst with lost := c.rst.lost.filter (fun x => decide (x ≠ k)) } })))

/-- R476, R477, R461, R478, R479, R455: each source puts the chip into reset, is remembered in SEEN, and ends the tick, the Kettle and everything that waits, but for PD1 at the thermal one (Table 19.4), which holds until every sensor reads below 130 degrees; what is staged for the pages of PD0 stays; the time base starts afresh, and flash and OTP stay.  A power-on reset returns every register but those of identity
and log to its reset value; a source that is still asserted holds the reset on.  With the last source gone the release begins, with its cause in LAST, and 1 ms later the Kettle is released; in Decaf where OTP has failed. -/
def Obligations.ResetSources : Prop :=
  ∀ (s : State) (p : Port) (k : Nat),
    let c := s.chip
    let reset := fun (i : Instr) (k : Nat) => ∃ t, exec i s = .next t ∧ k ∈ t.chip.rst.held ∧ t.chip.rst.kettleUp = false ∧
      t.chip.rb RST.SEEN k = true ∧ t.chip.tg = TickGen.reset ∧ (∀ a, t.chip.byte a = 0#8) ∧
      (k ≠ 1 ∨ c.live = false →
        t.chip.cm = { c.cm with staged := c.cm.staged.filter (fun e => decide (domainOf e.1 = 0)), units := [] }) ∧
      (k = 1 → c.live = true → (∀ a, domainOf a = 1 → t.chip.reg a = c.reg a) ∧
        t.chip.cm.staged = c.cm.staged.filter (fun e => decide (domainOf e.1 ≠ 2)) ∧ t.chip.reg CLK.HOLDOVER = c.reg CLK.HOLDOVER) ∧
      t.chip.reg PWR.DOM_ON = 3#32 ∧ t.tb = { TimeBase.reset with cycle := s.tb.cycle, up := s.tb.up } ∧
      t.ktl = { s.ktl with waiting := [], inbox := [], outbox := [], upd := none }
    reset .therm 1 ∧ reset .borCore 2 ∧ reset .refclkLoss 3 ∧ reset .pin 5 ∧ reset .chiprst 6 ∧
    (c.rb CLK.HOLDOVER 0 = true → c.rst.holdAt + 10000000 ≤ s.tb.up → reset .holdoverTimeout 4) ∧
    (c.rb CLK.HOLDOVER 0 = false → exec .holdoverTimeout s = .next s) ∧
    (Reaches s p KTL.CTRL → reset (.ktlCtrlReset p) 7) ∧
    (c.rst.kettleUp = true → c.kstate ≤ 1 → c.rst.kettleAt + 10000000000 ≤ s.tb.up → reset .wdogStart 8) ∧
    (c.rst.kettleUp = false ∨ 1 < c.kstate → exec .wdogStart s = .next s) ∧
    (∃ t, exec .por s = .next t ∧ t.chip.rst.held = 0 :: c.rst.held.filter (fun x => decide (x ≠ 0)) ∧ t.tb = TimeBase.reset ∧
      t.chip.tg = TickGen.reset ∧ t.chip.cm = Commit.reset ∧ (∀ a, t.chip.byte a = 0#8) ∧
      (∀ a, a ∉ [CHIP.CHIP_ID, KTL.UNIT_ID_LO, KTL.UNIT_ID_HI, LOG.WR_SEQ, LOG.PERSIST_SEQ, SF.SF_STAT 0, SF.SF_STAT 1, RST.SEEN] →
        t.chip.m128 = false ∨ (∀ n, n < 256 → a ≠ AXIS.PLACE n) → t.chip.reg a = regReset a) ∧
      (∀ j, j < 9 → j ∈ c.rst.held → t.chip.rb RST.SEEN j = true) ∧ (t.chip.m128 = true → ∀ n, n < 128 → t.chip.axHome n = n % 4) ∧
      t.chip.reg CHIP.CHIP_ID = s.ktl.otp.chipId ∧ t.chip.unitId = s.ktl.otp.unitId.toNat ∧ t.ktl.flash = s.ktl.flash ∧
      t.ktl.otp = s.ktl.otp) ∧
    (c.rst.held = [k] → k ≠ 1 ∨ c.cool = true → ∃ t, exec (.resetRelease k) s = .next t ∧
      t.chip.rst = { c.rst with held := [], releasedAt := s.tb.up, pd1 := false } ∧
      t.chip.reg RST.LAST = BitVec.ofNat 32 (2 ^ 28 * c.rst.worst) ∧ RegsOf [RST.LAST] { s with chip := { c with rst := t.chip.rst } } t) ∧
    (c.cool = false → exec (.resetRelease 1) s = .next s) ∧
    (k ∉ c.rst.held → exec (.resetRelease k) s = .next s) ∧
    (c.rst.held = [] → c.rst.kettleUp = false → c.rst.releasedAt + 1000000 ≤ s.tb.up → ∃ t, exec .kettleResetRelease s = .next t ∧
      t.chip.rst.kettleUp = true ∧ t.chip.rst.kettleAt = s.tb.up ∧
      (s.ktl.otp.ue = true → t.chip.kstate = 3 ∧ t.chip.rf KTL.BOOT 27 24 = 4) ∧
      (s.ktl.otp.ue = false → c.rb KTL.BOOT 2 = true → t.chip.kstate = 3 ∧ t.chip.rf KTL.BOOT 27 24 = 5)) ∧
    (c.rst.held ≠ [] ∨ c.rst.kettleUp = true ∨ s.tb.up < c.rst.releasedAt + 1000000 → exec .kettleResetRelease s = .next s)

/-! ### Local feedback, event pins, capture units (R211 to R227, R374 to R383, R395 to R402) -/

/-- R209, R211 to R213, R215, R226, R227: a transition of an input waits with its stamp and with what is in force at it; one that the filter's
time has not passed by then is ignored when its level ends.  Once the filter and 4 ns more have passed, the next empty step takes it, as it
would stand without the wait: a counted edge moves the count by one with the transition's stamp, and one within 16 ns of the last leaves it
within one and is counted; two inputs that change within 4 ns are an error in the quadrature modes and change no count; a channel that is not
enabled follows its inputs and counts nothing; an index latches the count, and with ZCLR_ARM clears it; the compare value is hit, or reported
where a write finds it passed, an edge among what waits counted (that it is taken as legal is the model's choice, log entry 96).
The step's clauses are about a channel with nothing else that waits, on a chip whose other channels wait for nothing. -/
def Obligations.LocalFeedback : Prop :=
  ∀ (s : State) (p : Port) (n : Nat) (a b z upw : Bool) (v : Word) (h h' : LfPend), n < 16 →
    let c := s.chip
    let l := c.lf n
    let live := c.reg (LF.COUNT_LIVE n)
    let en := c.en (pgLf n)
    let filter := 4 * c.rf (LF.LF_CFG n) 11 8
    let stamped := fun x : LfPend => x.e.stamp = s.tb.fast ∧ x.e.ext = s.tb.ext ∧ x.cfg = c.reg (LF.LF_CFG n) ∧ x.en = en
    let waits := fun (i : Instr) (l' : List Nat) => ∃ t q, exec i s = .next t ∧ t.chip.lf n = { l with pend := q } ∧
      q.map (fun x => x.inp) = l' ∧ (∀ x ∈ q, stamped x) ∧ t.chip.regs = c.regs ∧ t.tb = s.tb
    -- the next empty step, with one transition on the channel
    let turn := s.pending = [] ∧ s.tb.half = true ∧ c.coreRuns = true ∧ c.stby.tickOwed = false ∧
      (∀ m, m < 16 → m ≠ n → (c.lf m).pend = [] ∧ (c.lf m).owed = none) ∧ l.owed = none ∧ l.loaded = none ∧ l.cmpOld = []
    let cfg := fun hi lo : Nat => fld h.cfg hi lo
    let ripe := turn ∧ l.pend = [h] ∧ h.e.ext + 4 * cfg 11 8 + 4 ≤ s.tb.ext
    let a' := xor l.a (decide (h.inp = 0))
    let b' := xor l.b (decide (h.inp = 1))
    let apart := cfg 2 0 < 2 ∨ ∀ t, (if h.inp = 0 then l.atB else l.atA) = some t → t + 4 ≤ h.e.ext
    let down := if bit h.cfg 3 then upw else !upw
    let k := if down then live - 1#32 else live + 1#32
    let counts := h.en = true ∧ h.inp < 2 ∧ apart ∧ lfEdge (cfg 2 0) l.a l.b a' b' = some upw
    let near := ∃ t, l.edgeAt = some t ∧ h.e.ext < t + 16
    let cmpOn := c.rb (LF.CMP_CTRL n) 31 = true
    let follows := fun t : State => (t.chip.lf n).a = a' ∧ (t.chip.lf n).b = b' ∧ (t.chip.lf n).pend = []
    let quad := fun t : State => (t.chip.lf n).err = true ∧ Counted c t.chip (LF.ERR_QUAD n) ∧ EventSet t.chip (pgLf n) 3 ∧
      t.chip.reg (LF.COUNT_LIVE n) = live ∧ (t.chip.lf n).edgeAt = l.edgeAt
    let index := h.en = true ∧ h.inp = 2 ∧ ((cfg 5 4 = 1 ∧ l.z = false) ∨ (cfg 5 4 = 2 ∧ l.z = true))
    let clear := c.rb (LF.LF_CTRL n) 1 = true ∧ l.armAt ≤ h.e.ext
    let pitch := c.rf (LF.PITCH n) 30 0
    let beyond := fun (x y : Word) (d : Bool) => 0 < (if d then -diff32 x y else diff32 x y)
    let missed := fun t : State => t.chip.rb (LF.CMP_STAT n) 0 = true ∧ EventSet t.chip (pgLf n) 2
    (l.pend = [] → a ≠ l.a → b = l.b → waits (.countedEdge n a b) [0] ∧ (¬en ∨ c.rf (LF.LF_CFG n) 2 0 < 2 ∨ 0 < filter → waits (.errQuad n a b) [0])) ∧
    (l.pend = [] → a = l.a → b ≠ l.b → waits (.countedEdge n a b) [1]) ∧
    (l.pend = [] → a ≠ l.a → b ≠ l.b → waits (.countedEdge n a b) [1, 0] ∧ waits (.errQuad n a b) [1, 0]) ∧
    (l.pend = [] → z ≠ l.z → waits (.idx n z) [2]) ∧
    (l.pend = [] → a = l.a → b = l.b → waits (.countedEdge n a b) []) ∧
    (l.pend = [] → z = l.z → waits (.idx n z) []) ∧
    (l.pend = [] → en = true → 2 ≤ c.rf (LF.LF_CFG n) 2 0 → filter = 0 → a = l.a ∨ b = l.b →
      waits (.errQuad n a b) [3 + (if a = l.a then 0 else 1) + (if b = l.b then 0 else 2)]) ∧
    (l.pend = [h] → h.inp = 0 → a = l.a → b = l.b → s.tb.ext < h.e.ext + 4 * cfg 11 8 → waits (.countedEdge n a b) []) ∧
    (l.pend = [h] → h.inp = 2 → z = l.z → s.tb.ext < h.e.ext + 4 * cfg 11 8 → waits (.idx n z) []) ∧
    (turn → l.pend = [h] → s.tb.ext < h.e.ext + 4 * cfg 11 8 + 4 → ∃ t, step s = .next t ∧ t.chip.lf n = l ∧ t.chip.regs = c.regs) ∧
    (ripe → counts → ¬near → ¬cmpOn → ∃ t, step s = .next t ∧ t.chip.reg (LF.COUNT_LIVE n) = k ∧ follows t ∧
      (∀ x, x ≠ LF.COUNT_LIVE n → t.chip.reg x = c.reg x) ∧
      (t.chip.lf n).down = down ∧ (t.chip.lf n).stamp = h.e.stamp ∧ (t.chip.lf n).edgeAt = some h.e.ext ∧ (t.chip.lf n).err = l.err) ∧
    (ripe → counts → near → ¬cmpOn → ∃ t, step s = .next t ∧ follows t ∧
      (t.chip.reg (LF.COUNT_LIVE n) = k ∨ t.chip.reg (LF.COUNT_LIVE n) = k + 1#32 ∨ t.chip.reg (LF.COUNT_LIVE n) = k - 1#32) ∧
      (t.chip.lf n).err = true ∧ Counted c t.chip (LF.ERR_RATE n) ∧ EventSet t.chip (pgLf n) 3) ∧
    (ripe → counts → ¬near → cmpOn → k = c.reg (LF.CMP n) → ∃ t, step s = .next t ∧ follows t ∧
      t.chip.reg (LF.COUNT_LIVE n) = k ∧ t.chip.reg (LF.HITS n) = c.reg (LF.HITS n) + 1#32 ∧ EventSet t.chip (pgLf n) 0 ∧
      t.chip.reg (LF.CMP n) = (if down then k - BitVec.ofNat 32 pitch else k + BitVec.ofNat 32 pitch)) ∧
    (ripe → counts → ¬near → cmpOn → k ≠ c.reg (LF.CMP n) → ∃ t, step s = .next t ∧ follows t ∧ t.chip.reg (LF.COUNT_LIVE n) = k ∧
      t.chip.reg (LF.HITS n) = c.reg (LF.HITS n) ∧ t.chip.reg (LF.CMP n) = c.reg (LF.CMP n)) ∧
    (ripe → h.inp < 2 → h.en = false ∨ (apart ∧ lfEdge (cfg 2 0) l.a l.b a' b' = none) → ∃ t, step s = .next t ∧ follows t ∧
      t.chip.regs = c.regs ∧ (t.chip.lf n).edgeAt = l.edgeAt) ∧
    (ripe → h.en = true → h.inp < 2 → ¬apart → ∃ t, step s = .next t ∧ follows t ∧ quad t) ∧
    (turn → l.pend = [h, h'] → h.e.ext + 4 * cfg 11 8 + 4 ≤ s.tb.ext → h.en = true → 2 ≤ cfg 2 0 → h.inp < 2 → h'.inp = 1 - h.inp →
      h'.e.ext < h.e.ext + 4 → ∃ t, step s = .next t ∧ quad t ∧ (t.chip.lf n).a = !l.a ∧ (t.chip.lf n).b = !l.b ∧ (t.chip.lf n).pend = []) ∧
    (ripe → h.en = true → 3 ≤ h.inp → ∃ t, step s = .next t ∧ quad t ∧ (t.chip.lf n).pend = []) ∧
    (ripe → index → ∃ t, step s = .next t ∧ t.chip.reg (LF.IDX_COUNT n) = live ∧
      t.chip.reg (LF.IDX_STAMP n) = h.e.stamp ∧ (t.chip.lf n).z = !l.z ∧ (t.chip.lf n).idx = true ∧ EventSet t.chip (pgLf n) 1 ∧
      (clear → t.chip.reg (LF.COUNT_LIVE n) = 0#32 ∧ t.chip.rb (LF.LF_CTRL n) 1 = false ∧ (t.chip.lf n).clr = true ∧ EventSet t.chip (pgLf n) 4) ∧
      (¬clear → t.chip.reg (LF.COUNT_LIVE n) = live)) ∧
    (ripe → h.inp = 2 → ¬index → ∃ t, step s = .next t ∧ (t.chip.lf n).z = !l.z ∧ t.chip.regs = c.regs) ∧
    (∀ x, l.pulseEnd = some x → x ≤ s.tb.cycle → ∃ t, exec (.comparePulseEnd n) s = .next t ∧ (t.chip.lf n).pulseEnd = none ∧
      t.chip.rb (LF.CMP_STAT n) 1 = false ∧ t.chip.srcLevel (0x38 + n) = false) ∧
    (l.pulseEnd = none → exec (.comparePulseEnd n) s = .next s) ∧
    (Reaches s p (LF.LF_CTRL n) → c.auto (pgLf n) = false → ∃ t, exec (.zclrArm p n v) s = .next t ∧ t.chip.rb (LF.LF_CTRL n) 1 = true ∧
      Tab.get (fun _ => none) t.chip.cm.staged (LF.LF_CTRL n) = some (v ||| 2#32) ∧ t.chip.cm.units = c.cm.units) ∧
    (Reaches s p (LF.CMP n) → l.pend = [] →
      (beyond v live l.down → ∃ t, exec (.cmpWrite p n v) s = .next t ∧ t.chip.reg (LF.CMP n) = v ∧ RegsOf [LF.CMP n] s t) ∧
      (¬beyond v live l.down → ∃ t, exec (.cmpWrite p n v) s = .next t ∧ missed t ∧ (pitch = 0 → t.chip.reg (LF.CMP n) = v))) ∧
    (Reaches s p (LF.CMP n) → l.pend = [h] → l.loaded = none → h.e.ext < s.tb.ext → counts →
      (beyond v k down → ∃ t, exec (.cmpWrite p n v) s = .next t ∧ t.chip.reg (LF.CMP n) = v ∧
        t.chip.reg (LF.CMP_STAT n) = c.reg (LF.CMP_STAT n)) ∧
      (¬beyond v k down → ∃ t, exec (.cmpWrite p n v) s = .next t ∧ missed t ∧ (pitch = 0 → t.chip.reg (LF.CMP n) = v))) ∧
    (Reaches s p (LF.CMP_CTRL n) → l.pend = [] → beyond (c.reg (LF.CMP n)) live l.down → ∃ t, exec (.cmpEnable p n v) s = .next t ∧
      t.chip.rb (LF.CMP_CTRL n) 31 = true ∧ RegsOf [LF.CMP_CTRL n] s t) ∧
    (Reaches s p (LF.CMP_CTRL n) → l.pend = [] → ¬cmpOn → ¬beyond (c.reg (LF.CMP n)) live l.down →
      ∃ t, exec (.cmpEnable p n v) s = .next t ∧ t.chip.rb (LF.CMP_CTRL n) 31 = true ∧ missed t)

/-- R395 to R400: a level of a pin begins with its stamp, is rejected and counted where it ends before MINPW, and is accepted with its stamp after it; a pin leaves CHATTER after a quiet window, or when it is told to; an output that stays active is reported once; the loss of a bank's supply brings its
pins to their reset state, its return lets the lines follow them again, and the loss of VDDIO_H is a power-on reset. -/
def Obligations.EventPins : Prop :=
  ∀ (s : State) (p : Port) (n b lvl : Nat) (pad : Bool) (v : Word), n < 48 → b < 6 →
    let c := s.chip
    let x := c.pin n
    let live := c.pinLive n = true
    let level := xor pad (c.rb (epCfg n) 27)
    let minpw := 8 * c.rf (epCfg n) 15 0
    let held := fun e : Edge => e.ext + minpw ≤ s.tb.ext
    let win := 1000 * c.rf (EP.STR0 (n / 8) (n % 8)) 31 16
    let active := c.filt n = true ∧ x.told = false ∧ 0 < c.stuckNs n ∧ x.actAt + c.stuckNs n ≤ s.tb.ext
    (¬live → exec (.padTransition n pad) s = .next s ∧ exec (.pulseAccept n) s = .next s ∧ exec (.chatterAutoRelease n) s = .next s ∧
      exec (.stuck n) s = .next s) ∧
    (live → level ≠ x.acc → x.begun = none → 0 < minpw → ∃ t e, exec (.padTransition n pad) s = .next t ∧
      t.chip.pin n = { x with begun := some e, cfg := c.reg (epCfg n), str := c.reg (EP.STR0 (n / 8) (n % 8)) } ∧
      e.stamp = s.tb.fast ∧ e.ext = s.tb.ext ∧ t.chip.rb (epStat n) (n % 8) = pad ∧ t.chip.filt n = c.filt n) ∧
    (∀ t0, live → level = x.acc → x.begun = some t0 → ¬held t0 → ∃ t, exec (.padTransition n pad) s = .next t ∧
      t.chip.pin n = { x with begun := none } ∧
      t.chip.rf (EP.CNT (n / 8) (n % 8)) 15 0 = min 0xFFFF (c.rf (EP.CNT (n / 8) (n % 8)) 15 0 + 1)) ∧
    (∀ t0, live → x.begun = some t0 → held t0 → c.chat n = false → fld x.str 15 8 = 0 →
      ∃ t, exec (.pulseAccept n) s = .next t ∧ (t.chip.pin n).acc = !x.acc ∧ (t.chip.pin n).begun = none ∧ t.chip.filt n = !x.acc ∧
        t.chip.reg (EP.STAMP (n / 8) (n % 8)) = t0.stamp ∧ (c.filt n = x.acc → t.chip.srcLevel n = !x.acc)) ∧
    (x.begun = none → exec (.pulseAccept n) s = .next s) ∧
    (live → c.chat n = true → c.rb (EP.STR0 (n / 8) (n % 8)) 7 = true →
      (∀ e, x.recent.head? = some e → win + e ≤ s.tb.ext) → x.recent ≠ [] → ∃ t, exec (.chatterAutoRelease n) s = .next t ∧
        t.chip.chat n = false ∧ t.chip.filt n = x.acc) ∧
    (∀ e, x.recent.head? = some e → s.tb.ext < win + e → exec (.chatterAutoRelease n) s = .next s) ∧
    (c.chat n = false → exec (.chatterAutoRelease n) s = .next s) ∧
    (Reaches s p (EP.EP_CTRL (n / 8)) → v.getLsbD (n % 8) = true → c.chat n = true → c.rb (EP.STR0 (n / 8) (n % 8)) 7 = false →
      ∃ t, exec (.chRelease p (n / 8) v) s = .next t ∧ t.chip.chat n = false ∧ t.chip.filt n = x.acc) ∧
    (Reaches s p (EP.EP_CTRL b) → v.toNat % 256 = 0 → exec (.chRelease p b v) s = .next s) ∧
    (live → active → ∃ t, exec (.stuck n) s = .next t ∧ t.chip.stuck n = true ∧ t.chip.pin n = { x with told := true } ∧
      EventSet t.chip (pgEp (n / 8)) (3 * (n % 8) + 2)) ∧
    (¬active → exec (.stuck n) s = .next s) ∧
    (lvl ≠ 0 → ∃ t, exec (.bankSupplyChange b lvl) s = .next t ∧ t.chip.vsense = Tab.set (fun _ => 0) c.vsense b lvl ∧ t.tb = s.tb ∧
      t.chip.pins = c.pins ∧ ((∀ u, u < 16 → (c.cu u).state ≠ 1) → t.chip.src = c.src ∧ ∀ k, k < 64 → t.chip.line k = t.chip.lineOf k)) ∧
    (lvl ≠ 0 → exec (.bankSupplyChange 6 lvl) s = .next (s.onChip (fun c => { c with vsense := Tab.set (fun _ => 0) c.vsense 6 lvl }))) ∧
    (exec (.bankSupplyChange 6 0) s = exec .por (s.onChip (fun c => { c with vsense := Tab.set (fun _ => 0) c.vsense 6 0 }))) ∧
    (∃ t, exec (.bankSupplyChange (n / 8) 0) s = .next t ∧ t.chip.reg (EP.EP_STAT (n / 8)) = 0#32 ∧ t.chip.pin n = Pin.reset ∧
      t.chip.srcLevel n = false ∧ t.chip.pinLive n = false)

/-- R374, R376 to R378, R381 to R383: an ARM that every check of Table 14.4 admits starts the unit afresh, and another is refused with the code of the first; STOP, CLEAR, REWIND and FORCE act in the states that the rules give them; a mark holds while its record stands; FAST-base units observe at each multiple of 8 ns, the ARM's own among them, and an ARM in the nanosecond of a publication that the chip has already made observes it first; the
drain moves a block of records into SF2 whole. -/
def Obligations.CaptureUnits : Prop :=
  ∀ (s : State) (p : Port) (n : Nat) (m : Word), n < 16 → Reaches s p (CU.CU_CTRL n) → Reaches s p (CU.MARK n) →
    let c := s.chip
    let u := c.cu n
    let off := c.setF (CU.CU_CTRL n) 5 5 0
    let now := (c.rb (CU.RATE n) 31 = true ∧ s.tb.fast.toNat % 8 = 0) ∨ (c.rb (CU.RATE n) 31 = false ∧ c.tg.running = true ∧
      c.tg.published = true ∧ c.tray.latest ≠ none ∧ c.reg TRAY.PUB_FAST = s.tb.fast)
    let err := fun (t : State) (code : Nat) => t.chip.rf (CU.CU_STAT n) 31 28 = code ∧ EventSet t.chip (pgCu n) 2 ∧
      (t.chip.cu n).state = u.state
    (u.active = false → off.armCheck n = 0 → ∃ t, exec (.arm p n 0#32) s = .next t ∧ (t.chip.cu n).armAt = s.tb.ext ∧
      (t.chip.cu n).alloc = (c.rf (CU.ALLOC n) 10 0, c.rf (CU.ALLOC n) 27 16) ∧
      (now → (t.chip.cu n).obs = 1 ∧ (t.chip.cu n).obsAt = s.tb.cycle + 1) ∧
      (¬now → (t.chip.cu n).state = (if c.rf (CU.TRIG n) 31 30 = 0 then 3 else 1) ∧ (t.chip.cu n).obs = 0 ∧
        t.chip.reg (CU.WR_SEQ n) = 0#32 ∧ t.chip.reg (CU.FILL n) = 0#32 ∧ t.chip.reg (CU.RD_SEQ n) = 0#32 ∧
        t.chip.reg (CU.TRIG_SEQ n) = 0xFFFFFFFF#32 ∧ t.chip.mem = c.mem)) ∧
    (u.active = false → off.armCheck n ≠ 0 → ∃ t, exec (.arm p n 0#32) s = .next t ∧ err t (off.armCheck n)) ∧
    (u.active = true → ∃ t, exec (.arm p n 0#32) s = .next t ∧ err t 7) ∧
    (u.active = true → ∃ t, exec (.stop p n 0#32) s = .next t ∧ (t.chip.cu n).state = 4 ∧ EventSet t.chip (pgCu n) 1) ∧
    (u.active = false → ∃ t, exec (.stop p n 0#32) s = .next t ∧ t.chip.cu n = u) ∧
    (u.state = 4 → ∃ t, exec (.clear p n 0#32) s = .next t ∧ t.chip.cu n = { u with state := 0 }) ∧
    (u.state ≠ 4 → ∃ t, exec (.clear p n 0#32) s = .next t ∧ t.chip.cu n = u) ∧
    (c.rb (CU.CU_STAT n) 6 = true → ∃ t, exec (.rewind p n 0#32) s = .next t ∧ t.chip.reg (CU.RD_SEQ n) = c.reg (CU.MARK n)) ∧
    (c.rb (CU.CU_STAT n) 6 = false → ∃ t, exec (.rewind p n 0#32) s = .next t ∧ err t 9 ∧ t.chip.reg (CU.RD_SEQ n) = c.reg (CU.RD_SEQ n)) ∧
    (u.state = 1 → ∃ t, exec (.force p n 0#32) s = .next t ∧ (t.chip.cu n).state ≠ 1 ∧ t.chip.reg (CU.TRIG_STAMP n) = s.tb.fast ∧
      EventSet t.chip (pgCu n) 0 ∧ t.chip.srcLevel (0x58 + n) = true) ∧
    (u.state ≠ 1 → ∃ t, exec (.force p n 0#32) s = .next t ∧ t.chip.cu n = u) ∧
    ((c.rn (CU.WR_SEQ n) + 2 ^ 32 - m.toNat) % 2 ^ 32 ≤ c.rn (CU.FILL n) → ∃ t, exec (.markWrite p n m) s = .next t ∧
      t.chip.reg (CU.MARK n) = m ∧ t.chip.rb (CU.CU_STAT n) 6 = true ∧ t.chip.rb (CU.CU_STAT n) 2 = false) ∧
    (c.rn (CU.FILL n) < (c.rn (CU.WR_SEQ n) + 2 ^ 32 - m.toNat) % 2 ^ 32 → ∃ t, exec (.markWrite p n m) s = .next t ∧ err t 8 ∧
      t.chip.reg (CU.MARK n) = c.reg (CU.MARK n)) ∧
    (s.tb.fast.toNat % 8 ≠ 0 → exec .fastObservation s = .next s) ∧
    (s.tb.fast.toNat % 8 = 0 → u.state = 3 → c.rb (CU.RATE n) 31 = true → u.obsAt ≠ s.tb.cycle + 1 → ∃ t, exec .fastObservation s = .next t ∧
      (t.chip.cu n).state = 3 ∧ (t.chip.cu n).obs = u.obs + 1 ∧ (t.chip.cu n).obsAt = s.tb.cycle + 1) ∧
    (c.drainNext = none → exec .drainBlock s = .next s) ∧
    (∀ i, let k := min 32 (c.drainLeft i)
      c.drainNext = some i → c.domOn 3 = true → c.sfRoom 2 (k + 1) = true → ∃ t, exec .drainBlock s = .next t ∧ t.chip.drained = i ∧
        (t.chip.sf 2).fifo.length = (c.sf 2).fifo.length + k + 1 ∧
        t.chip.reg (CU.RD_SEQ i) = c.reg (CU.RD_SEQ i) + BitVec.ofNat 32 k ∧ t.chip.mem = c.mem)

/-! ### Stream FIFOs and DMA (R385 to R393, R418 to R421, R84, R94 to R99) -/

/-- R387 to R393: a pair of writes of one port pushes a word into an inbound FIFO that has room, and is counted where there is none or no low word, which the port holds for each FIFO by itself; a read of DATA_LO takes the next word of an outbound one; FLUSH and RESUME; the COMMIT sink consumes a word of each OP with its effect,
waits for the tick of WAIT_TICK, halts on a bad word, and then takes nothing until RESUME. -/
def Obligations.StreamFifos : Prop :=
  ∀ (s : State) (p : Port) (q : PageAt) (n e g : Nat) (v lo : Word) (w : DWord) (l : List (DWord × Nat)), n < 4 →
    let c := s.chip
    let fifo := (c.sf n).fifo
    let word := if e = 2 then 0#64 else w
    let op := w.toNat / 2 ^ 60
    let a := w.toNat / 2 ^ 32 % 2 ^ 25 / 4 * 4
    let till := BitVec.ofNat 32 w.toNat
    let waits := fun x : Word => 1 ≤ (x.toNat + 2 ^ 32 - c.tickNo % 2 ^ 32) % 2 ^ 32 ∧ (x.toNat + 2 ^ 32 - c.tickNo % 2 ^ 32) % 2 ^ 32 < 2 ^ 31
    let next := fifo = (w, e) :: l ∧ c.sinkReady n = true
    let took := fun t : State => (t.chip.sf n).fifo = l
    let low := fun d : Chip => Tab.get (fun _ => none) (d.port p).data n
    (Reaches s p (SF.DATA_LO n) → n < 2 →
      exec (.dataLoWrite p n v) s = .next (s.onChip (fun c => c.modPort p (fun t => { t with data := Tab.set (fun _ => none) t.data n (some v) })))) ∧
    (Reaches s p (SF.DATA_LO n) → 2 ≤ n → exec (.dataLoWrite p n v) s = .next s ∧ (Reaches s p (SF.DATA_HI n) → exec (.dataHiWrite p n v) s = .next s)) ∧
    (Reaches s p (SF.DATA_HI n) → n < 2 → low c = some lo → c.en (pgSf n) = true → c.sfFill n < c.sfDepth n →
      ∃ t, exec (.dataHiWrite p n v) s = .next t ∧ (t.chip.sf n).fifo = fifo ++ [(BitVec.ofNat 64 (lo.toNat + 2 ^ 32 * v.toNat), 0)] ∧
        low t.chip = none) ∧
    (Reaches s p (SF.DATA_HI n) → n < 2 → low c = some lo → c.en (pgSf n) = false ∨ c.sfDepth n ≤ c.sfFill n →
      ∃ t, exec (.dataHiWrite p n v) s = .next t ∧ t.chip.sfs = c.sfs ∧ Counted c t.chip (SF.OVERRUN n) ∧ EventSet t.chip (pgSf n) 2) ∧
    (Reaches s p (SF.DATA_HI n) → n < 2 → low c = none →
      exec (.dataHiWrite p n v) s = .next (s.onChip (fun c => c.trouble (SF.PAIR_ERR n)))) ∧
    (Reads s p q (SF.DATA_LO n) → 2 ≤ n → fifo = (w, e) :: l → ∃ t, exec (.dataLoRead p n) s = .next t ∧
      (t.chip.port p).rdata = BitVec.ofNat 32 word.toNat ∧ t.chip.latched p (SF.DATA_HI n) = some (BitVec.ofNat 32 (word.toNat / 2 ^ 32)) ∧ took t) ∧
    (Reads s p q (SF.DATA_LO n) → 2 ≤ n → fifo = [] → ∃ t, exec (.dataLoRead p n) s = .next t ∧ Counted c t.chip (SF.UNDERRUN n) ∧
      (t.chip.port p).rdata = BitVec.ofNat 32 (c.sf n).last.toNat) ∧
    (Reaches s p (SF.SF_CTRL n) → (∃ t, exec (.flush p n) s = .next t ∧ (t.chip.sf n).fifo = []) ∧
      (∃ t, exec (.resume p n) s = .next t ∧ t.chip.rb (SF.SF_STAT n) 1 = false ∧ RegsOf [SF.SF_STAT n] s t)) ∧
    (next → e ≠ 2 → op = 0 → ∃ t, exec (.streamNop n) s = .next t ∧ took t ∧ t.chip.reg (SF.WORDS n) = c.reg (SF.WORDS n) + 1#32 ∧
      t.chip.cm = c.cm) ∧
    (next → op ≠ 0 → exec (.streamNop n) s = .next s) ∧
    (next → e ≠ 2 → op = 2 → g < 16 → w.toNat % 2 ^ 16 = 2 ^ g → Reaches s (sinkPort n) CHIP.COMMIT → ∃ t, exec (.streamCommit n) s = .next t ∧
      took t ∧ t.chip.cm.staged = c.cm.staged.filter (fun x => !decide (c.cgrp (pageBase x.1) = g))) ∧
    (next → e ≠ 2 → op = 3 → waits till → ∃ t, exec (.waitTick n) s = .next t ∧ took t ∧ (t.chip.sf n).wait = some till) ∧
    (next → e ≠ 2 → op = 3 → ¬waits till → ∃ t, exec (.waitTick n) s = .next t ∧ took t ∧ (t.chip.sf n).wait = none) ∧
    (∀ x, (c.sf n).wait = some x → ¬waits x → exec (.waitTickDone n) s = .next (s.onChip (fun c => c.modSf n (fun f => { f with wait := none })))) ∧
    (∀ x, (c.sf n).wait = some x → waits x → exec (.waitTickDone n) s = .next s) ∧
    (next → e = 2 ∨ 4 ≤ op → ∃ t, exec (.streamReservedOp n) s = .next t ∧ took t ∧ t.chip.rb (SF.SF_STAT n) 1 = true ∧
      t.chip.rf (SF.SF_STAT n) 3 2 = (if e = 2 then 3 else 1) ∧ EventSet t.chip (pgSf n) 4) ∧
    (next → e ≠ 2 → op < 4 → exec (.streamReservedOp n) s = .next s) ∧
    (next → e ≠ 2 → op = 1 → (zoneOf a = .unmapped ∨ ∃ r, zoneOf a = .page r ∧ r.page.type = 0x17) →
      ∃ t, exec (.streamWrite n) s = .next t ∧ took t ∧ t.chip.rb (SF.SF_STAT n) 1 = true ∧ t.chip.rf (SF.SF_STAT n) 3 2 = 2 ∧
        EventSet t.chip (pgSf n) 4) ∧
    (c.rb (SF.SF_STAT n) 1 = true → ∀ i, i ∈ [Instr.streamNop n, .streamWrite n, .streamCommit n, .waitTick n, .streamReservedOp n] →
      exec i s = .next s) ∧
    (next → e ≠ 2 → op = 1 → a = EVX.LEN_LO → Reaches s (sinkPort n) EVX.LEN_LO → ∃ t, exec (.streamWrite n) s = .next t ∧ took t ∧
      t.chip.reg EVX.LEN_LO = till) ∧
    (op ≠ 1 → fifo = (w, e) :: l → exec (.streamWrite n) s = .next s)

/-- R418 to R421, R84, R94 to R99, R467: EN, TAIL and a descriptor outside their ranges are counted and change nothing else; a descriptor whose words fit is done at once and written back at its place in the ring with the words moved, its status byte last, host memory read and written in requests of at most 512 and 256 bytes; one with a PCIe error or a bad field with its status
(a non-zero reserved bit counts as one: DEDUCED, log 82); a disable aborts; a frame leaves with preamble and FCS when the port is free, at 1 000 Mb/s only with VDDIO_H at 1.8 V, a timed one in its window, or it is written back as late; a reply that was held back leaves when it fits; a frame that arrives keeps its stamp; PTP messages of Table 3.6
leave while the page is enabled; a slave whose offset exceeds 1 µs sets the time while the tick is stopped. -/
def Obligations.DmaAndManagement : Prop :=
  ∀ (s : State) (p : Port) (k speed : Nat) (d : Desc) (words : List DWord) (frame bytes : List Byte) (stamp v : Word) (ofs : Int) (more : List (List Byte × List Byte))
    (r : DmaRun), k < 5 →
    let c := s.chip
    let cfg := HOSTIF.DMA_CFG k
    let size := v.toNat % 16
    let legal := 4 ≤ size ∧ size ≤ 12 ∧ c.rf (HOSTIF.RING_LO k) 5 0 = 0
    let tail := v.toNat % 2 ^ 12
    let ring := 2 ^ c.rf cfg 3 0
    let head := c.rf (HOSTIF.HEAD k) 11 0
    let len := d.ctl.toNat % 2 ^ 16
    let fresh := c.dmaReady k = true ∧ c.dmaRun k = none
    let rsvd := d.ctl.toNat / 2 ^ 17 % 2 ^ 7
    let sound := d.addr % 8 = 0 ∧ 1 ≤ len ∧ len = words.length ∧ rsvd = 0
    let desc := (c.reg (HOSTIF.RING_LO k)).toNat + 2 ^ 32 * (c.reg (HOSTIF.RING_HI k)).toNat + 16 * head
    let back := fun (t : State) (l : List Out) (status : Nat) (aux : Word) =>
      Sends c t.chip (l ++ [.writeBack k (desc + 12) aux, .status k (desc + 11) status]) ∧ t.chip.dmaRun k = none ∧ t.chip.reg (HOSTIF.HEAD k) = BitVec.ofNat 32 ((head + 1) % ring)
    let fetch := Out.hostRead k desc 16
    -- read requests of at most 512 bytes, within the data that the descriptor names
    let asks := fun (l : List Out) (n : Nat) => ∀ o ∈ l, ∃ a m, o = .hostRead k a m ∧ m ≤ 512 ∧ d.addr ≤ a ∧ a + m ≤ d.addr + n
    let puts := fun l : List Out => (∃ m, l.head? = some (.hostWrite k d.addr m)) ∧ (∀ o ∈ l, ∃ a m, o = .hostWrite k a m ∧ 8 * m.length ≤ 256) ∧
      l.flatMap (fun o => match o with | .hostWrite _ _ m => m | _ => []) = words
    let padded := fun l : List Byte => l ++ List.replicate (60 - l.length) 0#8
    let wire := fun l : List Byte => List.replicate 7 0x55#8 ++ [0xD5#8] ++ padded l ++ leBytes 4 (crc32 (padded l))
    let mg := s.tb.fast + BitVec.ofNat 32 (c.rf PTP.TX_LAT 15 0)
    let after := (s.tb.fast - r.desc.aux).toNat
    let window := if speed = 1 then 400 else if speed = 2 then 40 else 8
    let bits := d.ctl.toNat % 2 ^ 11
    let total := s.tb.sec.toNat * 1000000000 + s.tb.ns
    let cmd := c.fwRuns && (udpPayload (c.rf KTL.CFG 31 16) bytes).isSome
    (Reaches s p cfg → c.dmaEn k = false → legal → ∃ t, exec (.dmaEnable p k v) s = .next t ∧ t.chip.dmaEn k = true ∧
      t.chip.rf cfg 3 0 = size ∧ RegsOf [cfg] s t) ∧
    (Reaches s p cfg → c.dmaEn k = false → ¬legal → ∃ t, exec (.dmaEnable p k v) s = .next t ∧ t.chip.dmaEn k = false ∧
      Counted c t.chip (HOSTIF.ERR k) ∧ EventSet t.chip pgHostif (8 + k)) ∧
    (Reaches s p cfg → c.dmaRun k = none → ∃ t, exec (.dmaDisable p k v) s = .next t ∧ t.chip.dmaEn k = false ∧ t.chip.rf cfg 3 0 = size ∧
      RegsOf [cfg] s t) ∧
    (Reaches s p cfg → c.dmaEn k = true → c.dmaRun k = some r → ∃ t, exec (.dmaDisable p k v) s = .next t ∧ t.chip.dmaEn k = false ∧
      back t [] 8 (if k = 4 then r.desc.aux else BitVec.ofNat 32 r.moved)) ∧
    (Reaches s p (HOSTIF.TAIL k) → tail < ring → ∃ t, exec (.tailWrite p k v) s = .next t ∧ t.chip.reg (HOSTIF.TAIL k) = BitVec.ofNat 32 tail ∧
      RegsOf [HOSTIF.TAIL k] s t) ∧
    (Reaches s p (HOSTIF.TAIL k) → ring ≤ tail → ∃ t, exec (.tailWrite p k v) s = .next t ∧
      t.chip.reg (HOSTIF.TAIL k) = c.reg (HOSTIF.TAIL k) ∧ Counted c t.chip (HOSTIF.ERR k)) ∧
    (fresh → k < 4 → len = 0 ∨ d.addr % 8 ≠ 0 ∨ rsvd ≠ 0 → ∃ t, exec (.dmaDescriptor k d words frame false speed) s = .next t ∧ back t [fetch] 6 0#32 ∧
      Counted c t.chip (HOSTIF.ERR k)) ∧
    (fresh → k < 4 → sound → ∃ t l, exec (.dmaDescriptor k d words frame true speed) s = .next t ∧ back t (fetch :: l) 4 0#32 ∧ asks l (8 * len) ∧
      Counted c t.chip (HOSTIF.ERR k)) ∧
    (fresh → k < 2 → sound → c.en (pgSf k) = true → c.sfFill k + len ≤ c.sfDepth k →
      ∃ t l, exec (.dmaDescriptor k d words frame false speed) s = .next t ∧ back t (fetch :: l) 1 (BitVec.ofNat 32 len) ∧ l ≠ [] ∧ asks l (8 * len) ∧
        (t.chip.sf k).fifo = (c.sf k).fifo ++ words.map (fun w => (w, 0))) ∧
    (fresh → 2 ≤ k → k < 4 → sound → (c.sf k).fifo = words.map (fun w => (w, 0)) →
      ∃ t l, exec (.dmaDescriptor k d [] frame false speed) s = .next t ∧ back t (fetch :: l) 1 (BitVec.ofNat 32 len) ∧ puts l ∧
        (t.chip.sf k).fifo = []) ∧
    (fresh → k = 4 → bits < 60 ∨ 1514 < bits ∨ rsvd / 2 ≠ 0 → ∃ t, exec (.dmaDescriptor k d words frame false speed) s = .next t ∧
      back t [fetch] 6 d.aux ∧ Counted c t.chip (HOSTIF.ERR k)) ∧
    (fresh → k = 4 → bits = frame.length → 60 ≤ bits → bits ≤ 1514 → rsvd = 0 → c.mgSpeedOk speed = true → c.mgEnd ≤ s.tb.up →
      ∃ t l, exec (.dmaDescriptor k d words frame false speed) s = .next t ∧ back t (fetch :: l ++ [.mgFrame mg (wire frame)]) 1 mg ∧ asks l bits) ∧
    (c.mgSpeedOk speed = true ↔ 1 ≤ speed ∧ speed ≤ 3 ∧ (speed = 3 → c.bankLevel 6 = 1)) ∧
    (c.dmaReady k = false → exec (.dmaDescriptor k d words frame false speed) s = .next s ∧ exec (.short k) s = .next s) ∧
    (k = 2 ∨ k = 3 → c.dmaReady k = true → c.dmaRun k = some r → c.shortDue s.tb k r = true → ∃ t, exec (.short k) s = .next t ∧
      back t [] 2 (BitVec.ofNat 32 r.moved)) ∧
    (k = 4 → c.dmaReady 4 = true → c.dmaRun 4 = some r → r.frame = some (frame, speed) →
      s.ktl.outbox = [] →
      (after < window ∨ r.desc.ctl.getLsbD 17 = false → c.mgEnd ≤ s.tb.up → ∃ t, exec .timedFrameLaunch s = .next t ∧
        back t [.mgFrame mg (wire frame)] 1 mg ∧ s.tb.up < t.chip.mgEnd) ∧
      (after < window ∨ r.desc.ctl.getLsbD 17 = false → s.tb.up < c.mgEnd → exec .timedFrameLaunch s = .next s) ∧
      (r.desc.ctl.getLsbD 17 = true → window ≤ after → after < 2 ^ 31 → ∃ t, exec .timedFrameLaunch s = .next t ∧ back t [] 3 r.desc.aux ∧
        Counted c t.chip HOSTIF.MG_LAUNCH_LATE) ∧
      (r.desc.ctl.getLsbD 17 = true → 2 ^ 31 ≤ after → exec .timedFrameLaunch s = .next s)) ∧
    (c.dmaReady 4 = false → s.ktl.outbox = [] → exec .timedFrameLaunch s = .next s) ∧
    (c.dmaReady 4 = false → s.ktl.outbox = (frame, bytes) :: more → (c.replyFits s.tb bytes = true → ∃ t, exec .timedFrameLaunch s = .next t ∧
        Sends c t.chip [.reply frame bytes] ∧ t.ktl = { s.ktl with outbox := more } ∧ t.chip.regs = c.regs) ∧
      (c.replyFits s.tb bytes = false → exec .timedFrameLaunch s = .next s)) ∧
    (c.live = true → c.domOn 1 = true → exec (.mgFrameReceive bytes stamp none) s = .next (s.onKtl (fun t => { t with
      mgLast := some (bytes, stamp + BitVec.ofNat 32 (c.rf PTP.RX_LAT 15 0)), inbox := if cmd then t.inbox ++ [bytes] else t.inbox }))) ∧
    (c.live = false → exec (.mgFrameReceive bytes stamp none) s = .next s) ∧
    (Reaches s p PTP.PTP_CTRL → v.toNat / 2 ^ 8 % 4 = 3 → exec (.ptpCtrlWrite p v) s = .next (s.onChip (fun c => c.errCount pgPtp))) ∧
    (Reaches s p PTP.PTP_CTRL → v.toNat / 2 ^ 8 % 4 ≠ 3 → c.rb PTP.PTP_CTRL 31 = false → ∃ t, exec (.ptpCtrlWrite p v) s = .next t ∧
      t.chip.rb PTP.PTP_CTRL 31 = v.getLsbD 31 ∧ t.chip.rf PTP.PTP_CTRL 9 8 = v.toNat / 2 ^ 8 % 4 ∧
      (v.getLsbD 31 = false → t.chip.reg PTP.PTP_STAT = 2#32) ∧ RegsOf [PTP.PTP_CTRL, PTP.PTP_STAT] s t) ∧
    (c.fwRuns = true → c.domOn 2 = true → c.rb PTP.PTP_CTRL 31 = true → c.mgSpeedOk speed = true → c.mgFits s.tb bytes.length speed = true →
      c.ptpOk true bytes = true →
      exec (.ptpMessageSend bytes speed none) s = .next (s.onChip (fun c => (c.mgBusy s.tb bytes.length speed).emit (.mgFrame mg (wire bytes))))) ∧
    (c.rb PTP.PTP_CTRL 31 = false ∨ c.ptpOk true bytes = false ∨ c.mgSpeedOk speed = false ∨ c.mgFits s.tb bytes.length speed = false →
      exec (.ptpMessageSend bytes speed none) s = .next s) ∧
    (c.fwRuns = true → c.domOn 1 = true → c.domOn 2 = true → c.live = true → c.rb PTP.PTP_CTRL 31 = true → c.ptpOk false bytes = true →
      c.timeSrc = 1 → c.tg.running = false → 1000 < ofs.natAbs → 0 ≤ (total : Int) - ofs →
      ∃ t, exec (.mgFrameReceive bytes stamp (some (8, ofs, len))) s = .next t ∧ t.tb.ns = ((total : Int) - ofs).toNat % 1000000000 ∧
        t.tb.sec = BitVec.ofNat 48 (((total : Int) - ofs).toNat / 1000000000) ∧ t.chip.reg PTP.PTP_STAT = 8#32)

/-! ### Mailboxes and messages (R427, R466, R467) -/

/-- R427, R454, R466, R467: GO makes a mailbox busy, unless it is busy or its length is outside 1 to 256; clearing FULL frees a reply buffer, and a reply that waits for it enters.  A message that waits is answered by its mailbox, with RESULT and DONE, or by a datagram to its sender, which leaves when the port may start it:
an unknown command with BAD_CMD, a short one with BAD_ARG, INFO and LOG_READ with their data, the image commands with their effect on the slot, the update and the boot record or with the result that says why not.  A reply whose buffer is full waits. -/
def Obligations.KettleMessages : Prop :=
  ∀ (s : State) (p : Port) (via : Via) (m n e r : Nat) (fail : Bool) (msg l : List Byte) (u : Upd) (w : DWord) (q : List (DWord × Nat)),
    let c := s.chip
    let k := s.ktl
    let mi := HOSTIF.MBX_IN m
    let mo := HOSTIF.MBX_OUT m
    let code := (msg.getD 0 0#8).toNat
    let head := fun b : Nat => [msg.getD 0 0#8, BitVec.ofNat 8 b, msg.getD 2 0#8, msg.getD 3 0#8]
    let done := fun (d : Chip) (m r : Nat) => d.rb (HOSTIF.MBX_IN m) 31 = false ∧ d.rb (HOSTIF.MBX_IN m) 30 = false ∧
      d.rf (HOSTIF.MBX_IN m) 23 16 = r ∧ d.rb (HOSTIF.MBX_IN m) 29 = true ∧ EventSet d pgHostif (16 + m)
    let said := fun (d : Chip) (m : Nat) (l : List Byte) => d.rb (HOSTIF.MBX_OUT m) 31 = true ∧ d.rf (HOSTIF.MBX_OUT m) 8 0 = l.length ∧
      EventSet d pgHostif (18 + m) ∧ ∀ x, x < 64 → d.reg (HOSTIF.MB_OUT_BUF (64 * m + x)) =
        BitVec.ofNat 32 (ofLE ((List.range 4).map (fun i => l.getD (4 * x + i) 0#8)))
    let sent := fun (t : State) (l : List Byte) => t.ktl.inbox = k.inbox.drop 1 ∧
      (k.outbox = [] ∧ c.replyFits s.tb l = true → Sends c t.chip [.reply (k.inbox.headD []) l] ∧ t.ktl.outbox = []) ∧
      (¬(k.outbox = [] ∧ c.replyFits s.tb l = true) → Sends c t.chip [] ∧ t.ktl.outbox = k.outbox ++ [(k.inbox.headD [], l)])
    let answered := fun (t : State) (r : Nat) => (∀ m, via = .mbx m → done t.chip m r) ∧
      (via = .mgmt → sent t (head r))
    let replied := fun (t : State) (data : List Byte) =>
      (∀ m, via = .mbx m → c.rb (HOSTIF.MBX_OUT m) 31 = false → done t.chip m 0 ∧ said t.chip m (head 0 ++ data)) ∧
      (∀ m, via = .mbx m → c.rb (HOSTIF.MBX_OUT m) 31 = true → t.chip = c ∧ t.mbxWaits m = some (0, head 0 ++ data)) ∧
      (via = .mgmt → sent t (head 0 ++ data))
    let rows := [Instr.info via, .logRead via, .imgBegin via fail, .imgEnd via fail, .setPending via, .clearTries via, .keyProg via]
    let asked := fun (c n : Nat) => s.message via = some msg ∧ code = c ∧ n ≤ msg.length
    let entry := fun x : Word => match c.log.find? (fun y => decide (y.seq = x)) with
      | some y => y.words.flatMap (fun v => leBytes 4 v.toNat)
      | none => List.replicate 16 0#8
    let room := k.bootRec.gen ≠ 0xFFFFFFFF#32
    let slot := argN msg 4 1
    let total := argN msg 8 4
    let ends := if u.got ≠ u.total then 2 else if fail then 6 else k.imgCheck u.slot
    (Reaches s p mi → m < 2 → n < 512 →
      (c.rb mi 30 = true → exec (.mbxGo p m n) s = .next s) ∧
      (c.rb mi 30 = false → 1 ≤ n → n ≤ 256 → ∃ t, exec (.mbxGo p m n) s = .next t ∧ t.chip.rb mi 30 = true ∧ t.chip.rb mi 31 = true ∧
        t.chip.rf mi 8 0 = n ∧ RegsOf [mi] s t) ∧
      (c.rb mi 30 = false → n = 0 ∨ 256 < n → ∃ t, exec (.mbxGo p m n) s = .next t ∧ t.chip.rb mi 30 = false ∧ t.chip.rf mi 8 0 = n ∧
        RegsOf [mi] s t)) ∧
    (Reaches s p mo → m < 2 → (Tab.get (fun _ => 0#32) c.fresh mo).getLsbD 31 = false →
      (s.mbxWaits m = none → ∃ t, exec (.mbxFullClear p m) s = .next t ∧ t.chip.rb mo 31 = false ∧ RegsOf [mo] s t) ∧
      (s.mbxWaits m = some (r, l) → r < 256 → l.length ≤ 256 → ∃ t, exec (.mbxFullClear p m) s = .next t ∧ done t.chip m r ∧
        said t.chip m l ∧ t.mbxWaits m = none)) ∧
    (∀ i, i ∈ rows → s.message via = none → exec i s = .next s) ∧
    (∀ i, i ∈ rows → s.message via = some msg → knownCmd code = false → ∃ t, exec i s = .next t ∧ answered t 1) ∧
    (s.message via = some msg → knownCmd code = true → (code ≠ 1 → exec (.info via) s = .next s) ∧
      (code ≠ 2 → exec (.logRead via) s = .next s) ∧ (code ≠ 0x16 → exec (.keyProg via) s = .next s)) ∧
    (asked 1 4 → ∃ t, exec (.info via) s = .next t ∧ replied t s.infoData) ∧
    (asked 2 9 → 1 ≤ argN msg 8 1 → argN msg 8 1 ≤ 15 → c.sramErr = [] → ∃ t, exec (.logRead via) s = .next t ∧
      replied t (leBytes 4 (argN msg 8 1) ++ (List.range (argN msg 8 1)).flatMap (fun i => entry (BitVec.ofNat 32 (argN msg 4 4 + i))))) ∧
    (asked 2 9 → argN msg 8 1 = 0 ∨ 15 < argN msg 8 1 → ∃ t, exec (.logRead via) s = .next t ∧ answered t 2) ∧
    (asked 0x10 12 → 1 < slot ∨ 2 < argN msg 5 1 ∨ total < 512 ∨ 2097152 < total → ∃ t, exec (.imgBegin via fail) s = .next t ∧
      answered t 2 ∧ t.ktl.upd = k.upd ∧ t.ktl.flash = k.flash) ∧
    (asked 0x10 12 → slot ≤ 1 → argN msg 5 1 ≤ 2 → 512 ≤ total → total ≤ 2097152 →
      (k.upd = some u → u.source ≠ argN msg 5 1 → ∃ t, exec (.imgBegin via fail) s = .next t ∧ answered t 3 ∧ t.ktl.upd = k.upd) ∧
      (k.upd = none → s.slotBusy slot = true → ∃ t, exec (.imgBegin via fail) s = .next t ∧ answered t 7 ∧ t.ktl.flash = k.flash) ∧
      (k.upd = none → s.slotBusy slot = false → ∃ t, exec (.imgBegin via fail) s = .next t ∧ answered t (if fail then 6 else 0) ∧
        t.ktl.upd = (if fail then none else some ⟨slot, argN msg 5 1, total, 0⟩) ∧ slot ∉ t.ktl.accepted ∧
        (∀ x, t.ktl.fbyte x = if slotAt slot ≤ x ∧ x < slotAt slot + 0x200000 then 0xFF#8 else k.fbyte x) ∧
        (k.bootRec.pending = slot + 1 → room → t.ktl.bootRec.pending = 0))) ∧
    (asked 0x11 8 → k.upd = none → ∃ t, exec (.imgData via fail) s = .next t ∧ answered t 7) ∧
    (asked 0x11 8 → k.upd = some u → u.source ≠ 0 → ∃ t, exec (.imgData via fail) s = .next t ∧ answered t 3) ∧
    (asked 0x11 8 → k.upd = some u → u.source = 0 → 256 < msg.length ∨ argN msg 4 4 ≠ u.got ∨ u.total < u.got + (msg.length - 8) →
      ∃ t, exec (.imgData via fail) s = .next t ∧ answered t 2 ∧ t.ktl.flash = k.flash) ∧
    (asked 0x11 8 → k.upd = some u → u.source = 0 → msg.length ≤ 256 → argN msg 4 4 = u.got → u.got + (msg.length - 8) ≤ u.total →
      ∃ t, exec (.imgData via false) s = .next t ∧ answered t 0 ∧ t.ktl.upd = some { u with got := u.got + (msg.length - 8) } ∧
        (∀ x, 8 ≤ x → x < msg.length → t.ktl.fbyte (slotAt u.slot + u.got + (x - 8)) = msg.getD x 0#8)) ∧
    (k.upd = some u → u.source = n + 1 → u.got < u.total → c.fwServes = true → c.en (pgSf n) = true → c.rb (SF.SF_CFG n) 0 = false →
      (c.sf n).fifo = (w, e) :: q → ∃ t, exec (.imgData (.stream n) fail) s = .next t ∧ (t.chip.sf n).fifo = q ∧
        t.ktl.upd = some { u with got := u.got + min 8 (u.total - u.got) }) ∧
    (asked 0x12 4 → k.upd = none → ∃ t, exec (.imgEnd via fail) s = .next t ∧ answered t 7) ∧
    (asked 0x12 4 → k.upd = some u → ∃ t, exec (.imgEnd via fail) s = .next t ∧ answered t ends ∧ t.ktl.upd = none ∧
      (ends = 0 → u.slot ∈ t.ktl.accepted ∧ EventSet t.chip pgKtl 3) ∧ (ends ≠ 0 → t.ktl.accepted = k.accepted ∧ EventSet t.chip pgKtl 4)) ∧
    (asked 0x13 5 → 1 < slot → ∃ t, exec (.setPending via fail) s = .next t ∧ answered t 2 ∧ t.ktl.bootRec = k.bootRec) ∧
    (asked 0x13 5 → slot ≤ 1 → slot ∉ k.accepted → ∃ t, exec (.setPending via fail) s = .next t ∧ answered t 7 ∧ t.ktl.bootRec = k.bootRec) ∧
    (asked 0x13 5 → slot ≤ 1 → slot ∈ k.accepted → ∃ t, exec (.setPending via true) s = .next t ∧ answered t 6 ∧ t.ktl.bootRec = k.bootRec) ∧
    (asked 0x13 5 → slot ≤ 1 → slot ∈ k.accepted → room → ∃ t, exec (.setPending via false) s = .next t ∧ answered t 0 ∧
      t.ktl.bootRec.pending = slot + 1 ∧ t.ktl.bootRec.active = k.bootRec.active ∧ t.ktl.bootRec.gen = k.bootRec.gen + 1#32) ∧
    (asked 0x14 4 → ∃ t, exec (.clearTries via) s = .next t ∧ answered t 0 ∧ t.chip.bootTries = 0) ∧
    (asked 0x15 4 → ∃ t, exec (.resetCommand via) s = .next t ∧ 7 ∈ t.chip.rst.held ∧ t.chip.rst.kettleUp = false ∧
      t.chip.rb RST.SEEN 7 = true) ∧
    (s.message via = none ∨ (s.message via = some msg ∧ knownCmd code = true ∧ code ≠ 0x15) → exec (.resetCommand via) s = .next s) ∧
    (asked 0x16 36 → k.otp.keyHash1 ≠ 0 → ∃ t, exec (.keyProg via) s = .next t ∧ answered t 7 ∧ t.ktl.otp = k.otp) ∧
    (asked 0x16 36 → k.otp.keyHash1 = 0 → ∃ t, exec (.keyProg via) s = .next t ∧ answered t 0 ∧
      t.ktl.otp.keyHash1 = ofBE ((msg.drop 4).take 32))

/-! ### Sensors, the log and the start of the Kettle (R454 to R465, R469) -/

/-- R455 to R457, R460 to R465, R469: a conversion enters its register, its highest value, and HI and LO with their hysteresis; an entry is copied to flash once, or the flash's failure is counted; the stream pushes the next entry that the ring holds, or a GAP for those that have been overwritten; RD_SEQ and reads of RD3
load entries, a single-bit error of the Kettle's SRAM among them corrected and logged, a double-bit error a trap; DECAF_REQ and CONFIRM are kept; the declaration, once the sections of the image are loaded, clears the tries, promotes the pending image and raises the rollback counter; the watchdog and a trap restart a declared core, a trap before the declaration resets the chip, and the end of a restart reloads the KFW section and completes the messages in progress. -/
def Obligations.KettleServices : Prop :=
  ∀ (s : State) (p : Port) (q : PageAt) (k o : Nat) (x : Int) (v : Word) (e : LogEnt) (pre post : List LogEnt) (on fail : Bool),
    let c := s.chip
    let kt := s.ktl
    let value := BitVec.ofNat 32 ((wOf x).toNat % 2 ^ 16)
    let hi := signedN 16 (c.rf (thrReg k) 15 0)
    let lo := signedN 16 (c.rf (thrReg k) 31 16)
    let hys : Int := c.rf (SENS.HYS k) 15 0
    let converted := fun t : State => exec (.sensorConversion k x) s = .next t
    let streams := c.rb LOG.STREAM 0 = true ∧ c.sfRoom 3 2 = true ∧ c.fwServes = true ∧ kt.streamNext ≠ c.reg LOG.WR_SEQ
    -- how far a SEQ lies behind the next one to be written
    let age := fun q : Word => (c.reg LOG.WR_SEQ - q).toNat
    let gone := ∀ y, c.log.head? = some y → age y.seq < age kt.streamNext
    let clean := c.sramErr = []
    let room := kt.bootRec.gen ≠ 0xFFFFFFFF#32
    let img := kt.sectBytes (slotAt kt.bootRec.active) 1
    let shown := fun (d : Chip) (l : Option LogEnt) => d.rb LOG.RD_STAT 0 = l.isNone ∧
      ∀ w, w < 4 → d.reg (LOG.RD w) = match l with | some e => e.words.getD w 0#32 | none => 0#32
    let slot := c.lastSlot
    let svn := c.rf KTL.FW_SVN 8 0
    let restarted := fun t : State => t.chip.kstate = 4 ∧ Counted c t.chip KTL.KRESTARTS ∧ EventSet t.chip pgKtl 1 ∧ t.ktl.inbox = [] ∧ t.ktl.outbox = [] ∧
      t.ktl.upd = none ∧ t.ktl.flash = kt.flash ∧ t.tb = s.tb
    (k < 20 → ∃ t, converted t ∧ t.chip.reg (if k < 4 then SENS.TS k else SENS.VM (k - 4)) = value ∧
      (c.rb SENS.HI_STAT k = false → hi ≤ x → t.chip.rb SENS.HI_STAT k = true ∧ EventSet t.chip pgSens 0) ∧
      (c.rb SENS.HI_STAT k = false → x < hi → t.chip.rb SENS.HI_STAT k = false) ∧
      (c.rb SENS.HI_STAT k = true → x < hi - hys → t.chip.rb SENS.HI_STAT k = false ∧ EventSet t.chip pgSens 2) ∧
      (c.rb SENS.HI_STAT k = true → hi - hys ≤ x → t.chip.rb SENS.HI_STAT k = true) ∧
      (c.rb SENS.LO_STAT k = false → x < lo → t.chip.rb SENS.LO_STAT k = true ∧ EventSet t.chip pgSens 1) ∧
      (c.rb SENS.LO_STAT k = true → lo + hys ≤ x → t.chip.rb SENS.LO_STAT k = false ∧ EventSet t.chip pgSens 2) ∧
      (k < 4 → signedN 16 (c.rf SENS.TMAX 15 0) < x → t.chip.reg SENS.TMAX = value) ∧
      (4 ≤ k → t.chip.reg SENS.TMAX = c.reg SENS.TMAX) ∧
      (k < 4 → signedN 16 (c.rf SENS.TCRIT 15 0) ≤ x → EventSet t.chip pgSens 3)) ∧
    (clean → c.fwServes = true → s.persFirst = some e → (∃ t, exec (.logPersist false) s = .next t ∧ t.ktl = kt.persPut e ∧
        t.chip.reg LOG.PERSIST_SEQ = e.seq ∧ RegsOf [LOG.PERSIST_SEQ] { s with ktl := t.ktl } t) ∧
      (∃ t, exec (.logPersist true) s = .next t ∧ t.ktl = kt ∧ Counted c t.chip LOG.FLASH_ERR ∧ EventSet t.chip pgLog 2)) ∧
    (c.fwServes = false ∨ s.persFirst = none → exec (.logPersist fail) s = .next s) ∧
    (clean → streams → c.log = pre ++ e :: post → (∀ y ∈ pre, age kt.streamNext < age y.seq) → age e.seq ≤ age kt.streamNext →
      (pre = [] → e.seq = kt.streamNext) → ∃ t, exec .logStreamPush s = .next t ∧ t.ktl = { kt with streamNext := e.seq + 1#32 } ∧
      (t.chip.sf 3).fifo = (c.sf 3).fifo ++ [(BitVec.ofNat 64 (e.seq.toNat + 2 ^ 32 * e.sec.toNat), 0),
        (BitVec.ofNat 64 (e.ns % 2 ^ 32 + 2 ^ 32 * (e.words.getD 3 0#32).toNat), 0)]) ∧
    (streams → gone → ∃ t, exec .logStreamPush s = .next t ∧ t.ktl = { kt with streamNext := c.logOldest } ∧
      (t.chip.sf 3).fifo.length = (c.sf 3).fifo.length + 2 ∧
      t.chip.rn LOG.LOST = min 0xFFFFFFFF (c.rn LOG.LOST + (c.logOldest - kt.streamNext).toNat)) ∧
    (kt.streamNext = c.reg LOG.WR_SEQ ∨ c.sfRoom 3 2 = false → exec .logStreamPush s = .next s) ∧
    (Reaches s p LOG.STREAM → ∃ t, exec (.fromOldest p on) s = .next t ∧ t.ktl = { kt with streamNext := c.logOldest } ∧
      t.chip.rb LOG.STREAM 0 = on ∧ RegsOf [LOG.STREAM] { s with ktl := t.ktl } t) ∧
    (clean → Reaches s p LOG.RD_SEQ → ∃ t, exec (.rdSeqWrite p v) s = .next t ∧ t.chip.reg LOG.RD_SEQ = v ∧ shown t.chip (c.logFind v) ∧
      RegsOf [LOG.RD_SEQ, LOG.RD 0, LOG.RD 1, LOG.RD 2, LOG.RD 3, LOG.RD_STAT] s t) ∧
    (Reaches s p LOG.RD_SEQ → c.logFind v = some e → o / 16 = ringAt v / 16 →
      (c.sramErr = [(o, false)] → ∃ t y, exec (.rdSeqWrite p v) s = .next t ∧ t.chip.reg LOG.RD_SEQ = v ∧ shown t.chip (some e) ∧
        t.chip.sramErr = [] ∧ t.chip.log.getLast? = some y ∧ y.seq = c.reg LOG.WR_SEQ ∧ y.sev = 1 ∧ y.src = 10 ∧ y.code = 3) ∧
      (c.sramErr = [(o, true)] → c.rst.kettleUp = true → c.kstate = 2 → ∃ t, exec (.rdSeqWrite p v) s = .next t ∧ restarted t ∧
        ∀ w, w < 4 → t.chip.reg (LOG.RD w) = c.reg (LOG.RD w))) ∧
    (clean → Reads s p q (LOG.RD 3) → pageBase (LOG.RD 3) ∉ c.settling → ∃ t, exec (.rd3Read p) s = .next t ∧
      (t.chip.port p).rdata = c.reg (LOG.RD 3) ∧ t.chip.reg LOG.RD_SEQ = c.reg LOG.RD_SEQ + 1#32 ∧
      shown t.chip (c.logFind (c.reg LOG.RD_SEQ + 1#32))) ∧
    (Reaches s p KTL.CTRL → (∃ t, exec (.decafReq p) s = .next t ∧ t.chip.rb KTL.BOOT 2 = true ∧ RegsOf [KTL.BOOT] s t) ∧
      (c.kstate = 1 → ∃ t, exec (.confirm p) s = .next t ∧ t.chip.rb KTL.STAT 23 = true ∧ t.chip.kstate = 1 ∧ RegsOf [KTL.STAT] s t) ∧
      (c.kstate ≠ 1 → exec (.confirm p) s = .next s)) ∧
    (kt.loaded = true → c.goodOk = true → ∃ t, exec .good s = .next t ∧ t.chip.kstate = 2 ∧ t.chip.bootTries = 0 ∧ EventSet t.chip pgKtl 0 ∧
      (kt.bootRec.pending = slot + 1 → room → t.ktl.bootRec.pending = 0 ∧ t.ktl.bootRec.active = slot) ∧
      (kt.bootRec.pending ≠ slot + 1 → t.ktl.bootRec = kt.bootRec) ∧
      (svn ≤ 256 → Kettle.wf kt = true → svn ≤ t.ktl.counter)) ∧
    (kt.loaded = false ∨ c.goodOk = false → exec .good s = .next s) ∧
    (c.rst.kettleUp = true → c.kstate = 2 → (∃ t, exec .kettleWatchdog s = .next t ∧ restarted t) ∧ ∃ t, exec .trap s = .next t ∧ restarted t) ∧
    (c.rst.kettleUp = true → c.kstate ≠ 2 → exec .kettleWatchdog s = .next s) ∧
    (c.rst.kettleUp = true → c.kstate ≠ 2 → c.kstate ≠ 4 → ∃ t, exec .trap s = .next t ∧ 9 ∈ t.chip.rst.held ∧ t.chip.rst.kettleUp = false) ∧
    (c.rst.kettleUp = false ∨ c.kstate = 4 → exec .trap s = .next s ∧ exec .kettleWatchdog s = .next s) ∧
    (c.rst.kettleUp = true → c.kstate = 4 → ∃ t, exec .kettleRestartDone s = .next t ∧ t.chip.kstate = 2 ∧
      t.ktl = { kt with waiting := [], sram := t.ktl.sram } ∧
      (∀ i, i < img.length → Tab.get (fun _ => 0#8) t.ktl.sram i = img.getD i 0#8) ∧
      (∀ i, img.length ≤ i → Tab.get (fun _ => 0#8) t.ktl.sram i = Tab.get (fun _ => 0#8) kt.sram i) ∧
      ∀ m, m < 2 → c.rb (HOSTIF.MBX_IN m) 30 = true → t.chip.rb (HOSTIF.MBX_IN m) 30 = false ∧ t.chip.rf (HOSTIF.MBX_IN m) 23 16 = 7) ∧
    (c.rst.kettleUp = false ∨ c.kstate ≠ 4 → exec .kettleRestartDone s = .next s)

/-! ### Host ports, interrupts and performance counters (R410 to R417, R430 to R437, R442) -/

/-- R410 to R417, R428, R430, R435, R442: a one-word request of either host port does what a register access of that port does, a partial write is counted and discarded, and turned away by a locked page as any other; an opcode or an address outside R413 and R414 is refused with zero bytes; STATUS and ID answer, with WIP for as
long after a write as a free value says (the model's choice, log entry 46); the loss of the link returns the function to reset; EOI ends the service of vectors, a vector with
a request sends its message once or is marked pending; CLR and FREEZE of the performance counters; the configuration space shows the
identity, BAR0 of 32 MiB and no other, the MSI-X capability, no interrupt pin, the power state, the payload, device control and the error registers (its
places, what the error registers keep, and that a longer write is ignored, are PRESUMED: log 81). -/
def Obligations.HostPortsAndInterrupts : Prop :=
  ∀ (s : State) (p : Port) (q : PageAt) (a n be speed width : Nat) (v w : Word) (op : Byte) (ws : List (Nat × Word)) (on down : Bool),
    let c := s.chip
    let at' := a / 4 * 4
    let onPage := fun p : Port => pageAt at' = some q ∧ c.reach p = true ∧ c.absent q.page.type q.inst = false ∧
      c.domOn (pageDomain q.page.type) = true
    let locked := fun t : State => EventSet t.chip (pageBase at') 30 ∧ Counted c t.chip (pgErrcnt (pageBase at')) ∧
      Counted c t.chip HOSTIF.PARTIAL_WR
    let partial' := s.onChip (fun c => c.trouble HOSTIF.PARTIAL_WR)
    let status := BitVec.ofNat 8 (2 * b2n c.qspiErr + 4 * b2n (decide (c.kstate = 3)))
    let refused := fun (t : State) (k : Nat) => t.chip.qspiErr = true ∧ Counted c t.chip HOSTIF.QSPI_ERR ∧ EventSet t.chip pgHostif 20 ∧
      Sends c t.chip (if k = 0 then [] else [.qspi (List.replicate k 0#8)])
    let allowed := a < 2 ^ 25 ∧ a % 4 = 0
    let bad := op ∉ [0x03#8, 0xEB#8, 0x02#8, 0x38#8, 0x05#8, 0x9F#8] ∨ (op ∉ [0x05#8, 0x9F#8] ∧ ¬allowed)
    let linkOk := c.live = true ∧ c.domOn 1 = true ∧ 0 ∉ c.rst.lost ∧ 2 ∉ c.rst.unlocked ∧ 1 ≤ speed ∧ speed ≤ 3 ∧ 1 ≤ width ∧ width ≤ 2
    let reads := fun (r : Nat) (x : Word) => exec (.pcieConfigRequest (.read r)) s =
      .next (s.onChip (fun c => Chip.emit { c with free := c.free + 1 } (.completion [x])))
    let due := n < 32 ∧ c.live = true ∧ c.vecReq n = true ∧ c.rb IRQ.INSERV n = false ∧ c.msixOn = true
    let entry := fun i => c.reg (HOSTIF.MSIX_TABLE (4 * n + i))
    let leafCounts := (List.range 4).flatMap (fun k => [LEAF.PCNT_LO n k, LEAF.PCNT_HI n k])
    (c.pcieOk = true → ∃ t, exec (.pcieMemoryRequest (.write a [(15, v)])) s = .next t ∧ exec (.registerWrite .pcie a v) s = .next t) ∧
    (c.pcieOk = true → onPage .pcie → be ≠ 15 →
      (Reaches s .pcie at' → exec (.pcieMemoryRequest (.write a [(be, v)])) s = .next partial') ∧
      (LocksOut c .pcie at' = true → at' / 0x1000 ≠ 8 → ∃ t, exec (.pcieMemoryRequest (.write a [(be, v)])) s = .next t ∧ locked t)) ∧
    (256 < 4 * ws.length → exec (.pcieMemoryRequest (.write a ws)) s = .next s) ∧
    (c.pcieOk = true → ∃ t u, exec (.pcieMemoryRequest (.read a [15])) s = .next t ∧ exec (.rcRead .pcie a) s = .next u ∧
      Sends u.chip t.chip [.completion [(u.chip.port .pcie).rdata]] ∧ t.chip.regs = u.chip.regs ∧ t.chip.sfs = u.chip.sfs) ∧
    (c.pcieOk = false → exec (.pcieMemoryRequest (.write a [(be, v)])) s = .next s ∧ exec (.pcieMemoryRequest (.read a [be])) s = .next s) ∧
    (∃ t, exec (.hotReset down) s = .next t ∧ t.chip.pcie = Pcie.reset ∧ t.chip.dma = [] ∧ t.chip.reg IRQ.INSERV = 0#32 ∧
      (∀ k, k < 5 → t.chip.dmaEn k = false) ∧ (∀ i, i < 128 → t.chip.reg (HOSTIF.MSIX_TABLE i) = regReset (HOSTIF.MSIX_TABLE i)) ∧
      (down = true → t.chip.reg HOSTIF.LINK = 0#32 ∧ (c.rb HOSTIF.LINK 0 = true → EventSet t.chip pgHostif 21)) ∧
      (down = false → t.chip.reg HOSTIF.LINK = c.reg HOSTIF.LINK) ∧
      (∀ r, ¬(HOSTIF.MSIX_TABLE 0 ≤ r ∧ r < HOSTIF.MSIX_TABLE 128) →
        r ∉ IRQ.INSERV :: HOSTIF.LINK :: pgEvtRaw pgHostif :: (List.range 5).map HOSTIF.DMA_CFG → t.chip.reg r = c.reg r) ∧ t.chip.tg = c.tg ∧ t.chip.cm = c.cm ∧ t.chip.sfs = c.sfs ∧ t.tb = s.tb) ∧
    (c.reach .qspi = true → allowed →
      (∃ t, exec (.registerWrite .qspi a v) s = .next t ∧ (exec (.qspiWrite a [v] 0) s =
        .next (t.onChip (fun c => { c with qspiWip := true }))) ∧ exec (.qwrite a [v] 0) s = exec (.qspiWrite a [v] 0) s) ∧
      (∃ t u, exec (.qspiRead a 1 0) s = .next t ∧ exec (.qread a 1 0) s = .next t ∧ exec (.rcRead .qspi a) s = .next u ∧
        Sends u.chip t.chip [.qspi [0#8]] ∧ t.chip.regs = u.chip.regs ∧ t.chip.sfs = u.chip.sfs) ∧
      (∃ t u x, exec (.qspiRead a 1 1) s = .next t ∧ exec (.qread a 1 1) s = .next t ∧ exec (.rcRead .qspi a) s = .next u ∧
        exec (.rcRead .qspi (a + 4)) u = .next x ∧
        let y := if a + 4 < 2 ^ 25 then x else u
        Sends y.chip t.chip [.qspi (0#8 :: List.replicate ((Config.freeWord y.chip.free).toNat % 64) 0#8 ++
          0xA5#8 :: leBytes 4 (u.chip.port .qspi).rdata.toNat)] ∧ t.chip.regs = y.chip.regs ∧ t.chip.sfs = y.chip.sfs) ∧
      (onPage .qspi → Reaches s .qspi at' → 1 ≤ n → n ≤ 3 → exec (.qspiWrite a [] n) s = .next partial')) ∧
    (c.reach .qspi = true → ¬allowed → (∃ t, exec (.qspiRead a be n) s = .next t ∧ refused t (1 + 5 * n)) ∧
      (∃ t, exec (.qread a be n) s = .next t ∧ refused t (1 + 5 * n)) ∧ (∃ t, exec (.qspiWrite a [v] n) s = .next t ∧ refused t 0) ∧
      ∃ t, exec (.qwrite a [v] n) s = .next t ∧ refused t 0) ∧
    (c.reach .qspi = true → bad → ∃ t, exec (.qspiErr op a n) s = .next t ∧ refused t n) ∧
    (¬bad → exec (.qspiErr op a n) s = .next s) ∧
    (exec (.qread a n be) s = exec (.qspiRead a n be) s ∧ exec (.qwrite a [v, w] n) s = exec (.qspiWrite a [v, w] n) s) ∧
    (c.reach .qspi = true →
      (c.qspiWip = false → ∃ t, exec (.qspiStatus n) s = .next t ∧
        t.chip = { c with qspiErr := false, out := c.out ++ [.qspi (List.replicate n status)] }) ∧
      (∃ t k, exec (.qspiStatus n) s = .next t ∧ k ≤ n ∧ t.chip.qspiErr = false ∧ (t.chip.qspiWip = true → k = n) ∧ t.chip.regs = c.regs ∧
        Sends c t.chip [.qspi (List.replicate k (status + 1#8) ++ List.replicate (n - k) status)]) ∧
      ∃ t, exec .qspiId s = .next t ∧ t.chip = { c with out := c.out ++ [.qspi (leBytes 4 (c.rn CHIP.CHIP_ID) ++ [0#8])] }) ∧
    (Reaches s p IRQ.EOI → ∃ t, exec (.eoi p v) s = .next t ∧ t.chip.reg IRQ.INSERV = c.reg IRQ.INSERV &&& ~~~v ∧ RegsOf [IRQ.INSERV] s t) ∧
    (due → c.vecMasked n = true → ∃ t, exec (.msixMessage n) s = .next t ∧ t.chip.rb HOSTIF.PBA0 n = true ∧ RegsOf [HOSTIF.PBA0] s t) ∧
    (due → c.vecMasked n = false → ∃ t, exec (.msixMessage n) s = .next t ∧
      Sends c t.chip [.msix n ((entry 0).toNat + (entry 1).toNat * 2 ^ 32) (entry 2)] ∧ t.chip.rb IRQ.INSERV n = true ∧
      t.chip.rb HOSTIF.PBA0 n = false ∧ t.chip.reg IRQ.MSGS = c.reg IRQ.MSGS + 1#32) ∧
    (c.vecReq n = false ∨ c.rb IRQ.INSERV n = true ∨ c.msixOn = false → exec (.msixMessage n) s = .next s) ∧
    (n < 64 → Reaches s p (LEAF.PCTL n) → (∃ t, exec (.leafPctlClr p n on) s = .next t ∧ t.chip.rb (LEAF.PCTL n) 0 = on ∧
        (∀ r, r ∈ leafCounts → t.chip.reg r = 0#32) ∧ RegsOf (LEAF.PCTL n :: leafCounts) s t) ∧
      ∃ t, exec (.freeze p (some n) on) s = .next t ∧ t.chip.rb (LEAF.PCTL n) 0 = on ∧ RegsOf [LEAF.PCTL n] s t) ∧
    (Reaches s p CHIP.PCTL → (∃ t, exec (.chipPctlClr p on) s = .next t ∧ t.chip.rb CHIP.PCTL 0 = on ∧
        (∀ k, k < 16 → t.chip.reg (CHIP.CCNT_LO k) = 0#32 ∧ t.chip.reg (CHIP.CCNT_HI k) = 0#32) ∧
        (n < 64 → ∀ r, r ∈ leafCounts → t.chip.reg r = 0#32)) ∧
      ∃ t, exec (.freeze p none on) s = .next t ∧ t.chip.rb CHIP.PCTL 0 = on ∧ RegsOf [CHIP.PCTL] s t) ∧
    (linkOk → ∃ t, exec (.pcieLinkUp speed width) s = .next t ∧ t.chip.rb HOSTIF.LINK 0 = true ∧
      t.chip.rf HOSTIF.LINK 31 28 = speed ∧ t.chip.rf HOSTIF.LINK 27 24 = width ∧
      (c.rb HOSTIF.LINK 0 = false → EventSet t.chip pgHostif 21) ∧ (c.rb HOSTIF.LINK 0 = true → RegsOf [HOSTIF.LINK] s t)) ∧
    (¬linkOk → exec (.pcieLinkUp speed width) s = .next s) ∧
    (c.live = true → c.rb HOSTIF.LINK 0 = true →
      reads 0 (BitVec.ofNat 32 (2 ^ 16 * c.rf CHIP.CHIP_ID 31 16 + 0x1E73)) ∧ reads 8 (BitVec.ofNat 32 (0x08800000 + c.rf CHIP.CHIP_ID 7 0)) ∧
      reads 0x10 c.pcie.bar0 ∧ (∀ r, r ∈ [0x14, 0x18, 0x1C, 0x20, 0x24, 0x30] → reads r 0#32) ∧
      reads 0x50 (BitVec.ofNat 32 (0x001F7011 + 2 ^ 30 * b2n c.pcie.funcMask + 2 ^ 31 * b2n c.pcie.msixEn)) ∧
      reads 0x54 (BitVec.ofNat 32 (HOSTIF.MSIX_TABLE 0 % 0x1000000)) ∧ reads 0x58 (BitVec.ofNat 32 (HOSTIF.PBA0 % 0x1000000)) ∧
      (∃ x, reads 0x3C x ∧ x.toNat / 2 ^ 8 % 2 ^ 8 = 0) ∧ (∃ x, reads 0x44 x ∧ x.toNat % 4 = if c.pcie.d3hot then 3 else 0) ∧
      (∃ x, reads 0x74 x ∧ x.toNat % 8 = 1 ∧ x.toNat / 2 ^ 28 % 2 = 0) ∧ (∃ x, reads 0x78 x ∧ x.toNat % 2 ^ 16 = c.pcie.devctl.toNat % 2 ^ 16) ∧
      reads 0x104 c.pcie.aerUnc ∧ reads 0x110 c.pcie.aerCor ∧
      exec (.pcieConfigRequest (.other 0x78 v)) s = .next (s.onChip (fun c => { c with pcie := { c.pcie with devctl := v &&& 0xFFFF#32 } })) ∧
      exec (.pcieConfigRequest (.other 0x104 v)) s =
        .next (s.onChip (fun c => { c with pcie := { c.pcie with aerUnc := c.pcie.aerUnc &&& ~~~v } })) ∧
      exec (.pcieConfigRequest (.other 0x110 v)) s =
        .next (s.onChip (fun c => { c with pcie := { c.pcie with aerCor := c.pcie.aerCor &&& ~~~v } })) ∧
      exec (.pcieConfigRequest (.bar0 v)) s = .next (s.onChip (fun c => { c with pcie := { c.pcie with bar0 := v &&& 0xFE000000#32 } })) ∧
      exec (.pcieConfigRequest (.command v)) s = .next (s.onChip (fun c => { c with pcie := { c.pcie with command := v &&& 6#32 } })) ∧
      exec (.pcieConfigRequest (.power on)) s = .next (s.onChip (fun c => { c with pcie := { c.pcie with d3hot := on } })) ∧
      ∃ t, exec (.pcieConfigRequest (.msix on down)) s = .next t ∧ t.chip.pcie = { c.pcie with msixEn := on, funcMask := down } ∧
        RegsOf [HOSTIF.PBA0] { s with chip := { c with pcie := t.chip.pcie } } t) ∧
    (c.rb HOSTIF.LINK 0 = false → exec (.pcieConfigRequest (.power on)) s = .next s)

/-! ### Invariants of the Kettle's store (R448, R449, R467) -/

/-- R449, R463: at reset the flash stands in its canonical form, blank, and OTP holds three copies of a blank counter. -/
def Obligations.KettleStoreAtReset : Prop := Kettle.wf State.reset.ktl = true ∧ State.reset.ktl.fbyte 0 = 0xFF#8 ∧ State.reset.ktl.counter = 0

/-- R448, R449: OTP is programmed once: through every step a programmed key hash stays and no set bit of the rollback counter goes back, the flash keeps its canonical form, and the copies of the counter stay three. -/
def Obligations.KettleStoreKept : Prop :=
  ∀ s t : State, Kettle.wf s.ktl = true → step s = .next t → Kettle.wf t.ktl = true ∧ otpKept s.ktl t.ktl = true

end
end

