-- ==== Sys2Proof/Laws/State.lean ====
section
/-!
SUPPORT. One lemma for each field of the state and each named update that leaves it as it was, true by definition, so that no
proof unfolds a record update.
-/

namespace Sys2Proof.Machine

@[simp] theorem State.onChip_pending (s : State) (f : Chip → Chip) : (s.onChip f).pending = s.pending := rfl
@[simp] theorem State.onChip_tb (s : State) (f : Chip → Chip) : (s.onChip f).tb = s.tb := rfl
@[simp] theorem State.onChip_chip (s : State) (f : Chip → Chip) : (s.onChip f).chip = f s.chip := rfl
@[simp] theorem State.onChip_ktl (s : State) (f : Chip → Chip) : (s.onChip f).ktl = s.ktl := rfl
@[simp] theorem State.onTb_pending (s : State) (f : TimeBase → TimeBase) : (s.onTb f).pending = s.pending := rfl
@[simp] theorem State.onTb_tb (s : State) (f : TimeBase → TimeBase) : (s.onTb f).tb = f s.tb := rfl
@[simp] theorem State.onTb_chip (s : State) (f : TimeBase → TimeBase) : (s.onTb f).chip = s.chip := rfl
@[simp] theorem State.onTb_ktl (s : State) (f : TimeBase → TimeBase) : (s.onTb f).ktl = s.ktl := rfl
@[simp] theorem State.onKtl_pending (s : State) (f : Kettle → Kettle) : (s.onKtl f).pending = s.pending := rfl
@[simp] theorem State.onKtl_tb (s : State) (f : Kettle → Kettle) : (s.onKtl f).tb = s.tb := rfl
@[simp] theorem State.onKtl_chip (s : State) (f : Kettle → Kettle) : (s.onKtl f).chip = s.chip := rfl
@[simp] theorem State.onKtl_ktl (s : State) (f : Kettle → Kettle) : (s.onKtl f).ktl = f s.ktl := rfl

/-! `setReg` -/

@[simp] theorem Chip.setReg_mem (c : Chip) (a : Nat) (v : Word) : (c.setReg a v).mem = c.mem := rfl
@[simp] theorem Chip.setReg_ecc (c : Chip) (a : Nat) (v : Word) : (c.setReg a v).ecc = c.ecc := rfl
@[simp] theorem Chip.setReg_fresh (c : Chip) (a : Nat) (v : Word) : (c.setReg a v).fresh = c.fresh := rfl
@[simp] theorem Chip.setReg_settling (c : Chip) (a : Nat) (v : Word) : (c.setReg a v).settling = c.settling := rfl
@[simp] theorem Chip.setReg_evNow (c : Chip) (a : Nat) (v : Word) : (c.setReg a v).evNow = c.evNow := rfl
@[simp] theorem Chip.setReg_evLast (c : Chip) (a : Nat) (v : Word) : (c.setReg a v).evLast = c.evLast := rfl
@[simp] theorem Chip.setReg_cm (c : Chip) (a : Nat) (v : Word) : (c.setReg a v).cm = c.cm := rfl
@[simp] theorem Chip.setReg_ports (c : Chip) (a : Nat) (v : Word) : (c.setReg a v).ports = c.ports := rfl
@[simp] theorem Chip.setReg_tg (c : Chip) (a : Nat) (v : Word) : (c.setReg a v).tg = c.tg := rfl
@[simp] theorem Chip.setReg_leaves (c : Chip) (a : Nat) (v : Word) : (c.setReg a v).leaves = c.leaves := rfl
@[simp] theorem Chip.setReg_pots (c : Chip) (a : Nat) (v : Word) : (c.setReg a v).pots = c.pots := rfl
@[simp] theorem Chip.setReg_cupSeq (c : Chip) (a : Nat) (v : Word) : (c.setReg a v).cupSeq = c.cupSeq := rfl
@[simp] theorem Chip.setReg_segs (c : Chip) (a : Nat) (v : Word) : (c.setReg a v).segs = c.segs := rfl
@[simp] theorem Chip.setReg_lps (c : Chip) (a : Nat) (v : Word) : (c.setReg a v).lps = c.lps := rfl
@[simp] theorem Chip.setReg_axes (c : Chip) (a : Nat) (v : Word) : (c.setReg a v).axes = c.axes := rfl
@[simp] theorem Chip.setReg_grps (c : Chip) (a : Nat) (v : Word) : (c.setReg a v).grps = c.grps := rfl
@[simp] theorem Chip.setReg_pubLog (c : Chip) (a : Nat) (v : Word) : (c.setReg a v).pubLog = c.pubLog := rfl
@[simp] theorem Chip.setReg_sigUnread (c : Chip) (a : Nat) (v : Word) : (c.setReg a v).sigUnread = c.sigUnread := rfl
@[simp] theorem Chip.setReg_src (c : Chip) (a : Nat) (v : Word) : (c.setReg a v).src = c.src := rfl
@[simp] theorem Chip.setReg_pulses (c : Chip) (a : Nat) (v : Word) : (c.setReg a v).pulses = c.pulses := rfl
@[simp] theorem Chip.setReg_pins (c : Chip) (a : Nat) (v : Word) : (c.setReg a v).pins = c.pins := rfl
@[simp] theorem Chip.setReg_vsense (c : Chip) (a : Nat) (v : Word) : (c.setReg a v).vsense = c.vsense := rfl
@[simp] theorem Chip.setReg_lfs (c : Chip) (a : Nat) (v : Word) : (c.setReg a v).lfs = c.lfs := rfl
@[simp] theorem Chip.setReg_cus (c : Chip) (a : Nat) (v : Word) : (c.setReg a v).cus = c.cus := rfl
@[simp] theorem Chip.setReg_drained (c : Chip) (a : Nat) (v : Word) : (c.setReg a v).drained = c.drained := rfl
@[simp] theorem Chip.setReg_caddyFill (c : Chip) (a : Nat) (v : Word) : (c.setReg a v).caddyFill = c.caddyFill := rfl
@[simp] theorem Chip.setReg_sfs (c : Chip) (a : Nat) (v : Word) : (c.setReg a v).sfs = c.sfs := rfl
@[simp] theorem Chip.setReg_free (c : Chip) (a : Nat) (v : Word) : (c.setReg a v).free = c.free := rfl
@[simp] theorem Chip.setReg_tray (c : Chip) (a : Nat) (v : Word) : (c.setReg a v).tray = c.tray := rfl
@[simp] theorem Chip.setReg_stby (c : Chip) (a : Nat) (v : Word) : (c.setReg a v).stby = c.stby := rfl
@[simp] theorem Chip.setReg_linkSeq (c : Chip) (a : Nat) (v : Word) : (c.setReg a v).linkSeq = c.linkSeq := rfl
@[simp] theorem Chip.setReg_log (c : Chip) (a : Nat) (v : Word) : (c.setReg a v).log = c.log := rfl
@[simp] theorem Chip.setReg_sramErr (c : Chip) (a : Nat) (v : Word) : (c.setReg a v).sramErr = c.sramErr := rfl
@[simp] theorem Chip.setReg_rst (c : Chip) (a : Nat) (v : Word) : (c.setReg a v).rst = c.rst := rfl
@[simp] theorem Chip.setReg_pcie (c : Chip) (a : Nat) (v : Word) : (c.setReg a v).pcie = c.pcie := rfl
@[simp] theorem Chip.setReg_qspiErr (c : Chip) (a : Nat) (v : Word) : (c.setReg a v).qspiErr = c.qspiErr := rfl
@[simp] theorem Chip.setReg_qspiWip (c : Chip) (a : Nat) (v : Word) : (c.setReg a v).qspiWip = c.qspiWip := rfl
@[simp] theorem Chip.setReg_mgEnd (c : Chip) (a : Nat) (v : Word) : (c.setReg a v).mgEnd = c.mgEnd := rfl
@[simp] theorem Chip.setReg_mgSpeed (c : Chip) (a : Nat) (v : Word) : (c.setReg a v).mgSpeed = c.mgSpeed := rfl
@[simp] theorem Chip.setReg_dma (c : Chip) (a : Nat) (v : Word) : (c.setReg a v).dma = c.dma := rfl
@[simp] theorem Chip.setReg_out (c : Chip) (a : Nat) (v : Word) : (c.setReg a v).out = c.out := rfl

/-! `setByte` -/

@[simp] theorem Chip.setByte_regs (c : Chip) (a : Nat) (v : Byte) : (c.setByte a v).regs = c.regs := rfl
@[simp] theorem Chip.setByte_ecc (c : Chip) (a : Nat) (v : Byte) : (c.setByte a v).ecc = c.ecc := rfl
@[simp] theorem Chip.setByte_fresh (c : Chip) (a : Nat) (v : Byte) : (c.setByte a v).fresh = c.fresh := rfl
@[simp] theorem Chip.setByte_settling (c : Chip) (a : Nat) (v : Byte) : (c.setByte a v).settling = c.settling := rfl
@[simp] theorem Chip.setByte_evNow (c : Chip) (a : Nat) (v : Byte) : (c.setByte a v).evNow = c.evNow := rfl
@[simp] theorem Chip.setByte_evLast (c : Chip) (a : Nat) (v : Byte) : (c.setByte a v).evLast = c.evLast := rfl
@[simp] theorem Chip.setByte_cm (c : Chip) (a : Nat) (v : Byte) : (c.setByte a v).cm = c.cm := rfl
@[simp] theorem Chip.setByte_ports (c : Chip) (a : Nat) (v : Byte) : (c.setByte a v).ports = c.ports := rfl
@[simp] theorem Chip.setByte_tg (c : Chip) (a : Nat) (v : Byte) : (c.setByte a v).tg = c.tg := rfl
@[simp] theorem Chip.setByte_leaves (c : Chip) (a : Nat) (v : Byte) : (c.setByte a v).leaves = c.leaves := rfl
@[simp] theorem Chip.setByte_pots (c : Chip) (a : Nat) (v : Byte) : (c.setByte a v).pots = c.pots := rfl
@[simp] theorem Chip.setByte_cupSeq (c : Chip) (a : Nat) (v : Byte) : (c.setByte a v).cupSeq = c.cupSeq := rfl
@[simp] theorem Chip.setByte_segs (c : Chip) (a : Nat) (v : Byte) : (c.setByte a v).segs = c.segs := rfl
@[simp] theorem Chip.setByte_lps (c : Chip) (a : Nat) (v : Byte) : (c.setByte a v).lps = c.lps := rfl
@[simp] theorem Chip.setByte_axes (c : Chip) (a : Nat) (v : Byte) : (c.setByte a v).axes = c.axes := rfl
@[simp] theorem Chip.setByte_grps (c : Chip) (a : Nat) (v : Byte) : (c.setByte a v).grps = c.grps := rfl
@[simp] theorem Chip.setByte_pubLog (c : Chip) (a : Nat) (v : Byte) : (c.setByte a v).pubLog = c.pubLog := rfl
@[simp] theorem Chip.setByte_sigUnread (c : Chip) (a : Nat) (v : Byte) : (c.setByte a v).sigUnread = c.sigUnread := rfl
@[simp] theorem Chip.setByte_src (c : Chip) (a : Nat) (v : Byte) : (c.setByte a v).src = c.src := rfl
@[simp] theorem Chip.setByte_pulses (c : Chip) (a : Nat) (v : Byte) : (c.setByte a v).pulses = c.pulses := rfl
@[simp] theorem Chip.setByte_pins (c : Chip) (a : Nat) (v : Byte) : (c.setByte a v).pins = c.pins := rfl
@[simp] theorem Chip.setByte_vsense (c : Chip) (a : Nat) (v : Byte) : (c.setByte a v).vsense = c.vsense := rfl
@[simp] theorem Chip.setByte_lfs (c : Chip) (a : Nat) (v : Byte) : (c.setByte a v).lfs = c.lfs := rfl
@[simp] theorem Chip.setByte_cus (c : Chip) (a : Nat) (v : Byte) : (c.setByte a v).cus = c.cus := rfl
@[simp] theorem Chip.setByte_drained (c : Chip) (a : Nat) (v : Byte) : (c.setByte a v).drained = c.drained := rfl
@[simp] theorem Chip.setByte_caddyFill (c : Chip) (a : Nat) (v : Byte) : (c.setByte a v).caddyFill = c.caddyFill := rfl
@[simp] theorem Chip.setByte_sfs (c : Chip) (a : Nat) (v : Byte) : (c.setByte a v).sfs = c.sfs := rfl
@[simp] theorem Chip.setByte_free (c : Chip) (a : Nat) (v : Byte) : (c.setByte a v).free = c.free := rfl
@[simp] theorem Chip.setByte_tray (c : Chip) (a : Nat) (v : Byte) : (c.setByte a v).tray = c.tray := rfl
@[simp] theorem Chip.setByte_stby (c : Chip) (a : Nat) (v : Byte) : (c.setByte a v).stby = c.stby := rfl
@[simp] theorem Chip.setByte_linkSeq (c : Chip) (a : Nat) (v : Byte) : (c.setByte a v).linkSeq = c.linkSeq := rfl
@[simp] theorem Chip.setByte_log (c : Chip) (a : Nat) (v : Byte) : (c.setByte a v).log = c.log := rfl
@[simp] theorem Chip.setByte_sramErr (c : Chip) (a : Nat) (v : Byte) : (c.setByte a v).sramErr = c.sramErr := rfl
@[simp] theorem Chip.setByte_rst (c : Chip) (a : Nat) (v : Byte) : (c.setByte a v).rst = c.rst := rfl
@[simp] theorem Chip.setByte_pcie (c : Chip) (a : Nat) (v : Byte) : (c.setByte a v).pcie = c.pcie := rfl
@[simp] theorem Chip.setByte_qspiErr (c : Chip) (a : Nat) (v : Byte) : (c.setByte a v).qspiErr = c.qspiErr := rfl
@[simp] theorem Chip.setByte_qspiWip (c : Chip) (a : Nat) (v : Byte) : (c.setByte a v).qspiWip = c.qspiWip := rfl
@[simp] theorem Chip.setByte_mgEnd (c : Chip) (a : Nat) (v : Byte) : (c.setByte a v).mgEnd = c.mgEnd := rfl
@[simp] theorem Chip.setByte_mgSpeed (c : Chip) (a : Nat) (v : Byte) : (c.setByte a v).mgSpeed = c.mgSpeed := rfl
@[simp] theorem Chip.setByte_dma (c : Chip) (a : Nat) (v : Byte) : (c.setByte a v).dma = c.dma := rfl
@[simp] theorem Chip.setByte_out (c : Chip) (a : Nat) (v : Byte) : (c.setByte a v).out = c.out := rfl

/-! `setLeaf` -/

@[simp] theorem Chip.setLeaf_regs (c : Chip) (n : Nat) (l : Leaf) : (c.setLeaf n l).regs = c.regs := rfl
@[simp] theorem Chip.setLeaf_mem (c : Chip) (n : Nat) (l : Leaf) : (c.setLeaf n l).mem = c.mem := rfl
@[simp] theorem Chip.setLeaf_ecc (c : Chip) (n : Nat) (l : Leaf) : (c.setLeaf n l).ecc = c.ecc := rfl
@[simp] theorem Chip.setLeaf_fresh (c : Chip) (n : Nat) (l : Leaf) : (c.setLeaf n l).fresh = c.fresh := rfl
@[simp] theorem Chip.setLeaf_settling (c : Chip) (n : Nat) (l : Leaf) : (c.setLeaf n l).settling = c.settling := rfl
@[simp] theorem Chip.setLeaf_evNow (c : Chip) (n : Nat) (l : Leaf) : (c.setLeaf n l).evNow = c.evNow := rfl
@[simp] theorem Chip.setLeaf_evLast (c : Chip) (n : Nat) (l : Leaf) : (c.setLeaf n l).evLast = c.evLast := rfl
@[simp] theorem Chip.setLeaf_cm (c : Chip) (n : Nat) (l : Leaf) : (c.setLeaf n l).cm = c.cm := rfl
@[simp] theorem Chip.setLeaf_ports (c : Chip) (n : Nat) (l : Leaf) : (c.setLeaf n l).ports = c.ports := rfl
@[simp] theorem Chip.setLeaf_tg (c : Chip) (n : Nat) (l : Leaf) : (c.setLeaf n l).tg = c.tg := rfl
@[simp] theorem Chip.setLeaf_pots (c : Chip) (n : Nat) (l : Leaf) : (c.setLeaf n l).pots = c.pots := rfl
@[simp] theorem Chip.setLeaf_cupSeq (c : Chip) (n : Nat) (l : Leaf) : (c.setLeaf n l).cupSeq = c.cupSeq := rfl
@[simp] theorem Chip.setLeaf_segs (c : Chip) (n : Nat) (l : Leaf) : (c.setLeaf n l).segs = c.segs := rfl
@[simp] theorem Chip.setLeaf_lps (c : Chip) (n : Nat) (l : Leaf) : (c.setLeaf n l).lps = c.lps := rfl
@[simp] theorem Chip.setLeaf_axes (c : Chip) (n : Nat) (l : Leaf) : (c.setLeaf n l).axes = c.axes := rfl
@[simp] theorem Chip.setLeaf_grps (c : Chip) (n : Nat) (l : Leaf) : (c.setLeaf n l).grps = c.grps := rfl
@[simp] theorem Chip.setLeaf_pubLog (c : Chip) (n : Nat) (l : Leaf) : (c.setLeaf n l).pubLog = c.pubLog := rfl
@[simp] theorem Chip.setLeaf_sigUnread (c : Chip) (n : Nat) (l : Leaf) : (c.setLeaf n l).sigUnread = c.sigUnread := rfl
@[simp] theorem Chip.setLeaf_src (c : Chip) (n : Nat) (l : Leaf) : (c.setLeaf n l).src = c.src := rfl
@[simp] theorem Chip.setLeaf_pulses (c : Chip) (n : Nat) (l : Leaf) : (c.setLeaf n l).pulses = c.pulses := rfl
@[simp] theorem Chip.setLeaf_pins (c : Chip) (n : Nat) (l : Leaf) : (c.setLeaf n l).pins = c.pins := rfl
@[simp] theorem Chip.setLeaf_vsense (c : Chip) (n : Nat) (l : Leaf) : (c.setLeaf n l).vsense = c.vsense := rfl
@[simp] theorem Chip.setLeaf_lfs (c : Chip) (n : Nat) (l : Leaf) : (c.setLeaf n l).lfs = c.lfs := rfl
@[simp] theorem Chip.setLeaf_cus (c : Chip) (n : Nat) (l : Leaf) : (c.setLeaf n l).cus = c.cus := rfl
@[simp] theorem Chip.setLeaf_drained (c : Chip) (n : Nat) (l : Leaf) : (c.setLeaf n l).drained = c.drained := rfl
@[simp] theorem Chip.setLeaf_caddyFill (c : Chip) (n : Nat) (l : Leaf) : (c.setLeaf n l).caddyFill = c.caddyFill := rfl
@[simp] theorem Chip.setLeaf_sfs (c : Chip) (n : Nat) (l : Leaf) : (c.setLeaf n l).sfs = c.sfs := rfl
@[simp] theorem Chip.setLeaf_free (c : Chip) (n : Nat) (l : Leaf) : (c.setLeaf n l).free = c.free := rfl
@[simp] theorem Chip.setLeaf_tray (c : Chip) (n : Nat) (l : Leaf) : (c.setLeaf n l).tray = c.tray := rfl
@[simp] theorem Chip.setLeaf_stby (c : Chip) (n : Nat) (l : Leaf) : (c.setLeaf n l).stby = c.stby := rfl
@[simp] theorem Chip.setLeaf_linkSeq (c : Chip) (n : Nat) (l : Leaf) : (c.setLeaf n l).linkSeq = c.linkSeq := rfl
@[simp] theorem Chip.setLeaf_log (c : Chip) (n : Nat) (l : Leaf) : (c.setLeaf n l).log = c.log := rfl
@[simp] theorem Chip.setLeaf_sramErr (c : Chip) (n : Nat) (l : Leaf) : (c.setLeaf n l).sramErr = c.sramErr := rfl
@[simp] theorem Chip.setLeaf_rst (c : Chip) (n : Nat) (l : Leaf) : (c.setLeaf n l).rst = c.rst := rfl
@[simp] theorem Chip.setLeaf_pcie (c : Chip) (n : Nat) (l : Leaf) : (c.setLeaf n l).pcie = c.pcie := rfl
@[simp] theorem Chip.setLeaf_qspiErr (c : Chip) (n : Nat) (l : Leaf) : (c.setLeaf n l).qspiErr = c.qspiErr := rfl
@[simp] theorem Chip.setLeaf_qspiWip (c : Chip) (n : Nat) (l : Leaf) : (c.setLeaf n l).qspiWip = c.qspiWip := rfl
@[simp] theorem Chip.setLeaf_mgEnd (c : Chip) (n : Nat) (l : Leaf) : (c.setLeaf n l).mgEnd = c.mgEnd := rfl
@[simp] theorem Chip.setLeaf_mgSpeed (c : Chip) (n : Nat) (l : Leaf) : (c.setLeaf n l).mgSpeed = c.mgSpeed := rfl
@[simp] theorem Chip.setLeaf_dma (c : Chip) (n : Nat) (l : Leaf) : (c.setLeaf n l).dma = c.dma := rfl
@[simp] theorem Chip.setLeaf_out (c : Chip) (n : Nat) (l : Leaf) : (c.setLeaf n l).out = c.out := rfl

/-! `modLeaf` -/

@[simp] theorem Chip.modLeaf_regs (c : Chip) (n : Nat) (f : Leaf → Leaf) : (c.modLeaf n f).regs = c.regs := rfl
@[simp] theorem Chip.modLeaf_mem (c : Chip) (n : Nat) (f : Leaf → Leaf) : (c.modLeaf n f).mem = c.mem := rfl
@[simp] theorem Chip.modLeaf_ecc (c : Chip) (n : Nat) (f : Leaf → Leaf) : (c.modLeaf n f).ecc = c.ecc := rfl
@[simp] theorem Chip.modLeaf_fresh (c : Chip) (n : Nat) (f : Leaf → Leaf) : (c.modLeaf n f).fresh = c.fresh := rfl
@[simp] theorem Chip.modLeaf_settling (c : Chip) (n : Nat) (f : Leaf → Leaf) : (c.modLeaf n f).settling = c.settling := rfl
@[simp] theorem Chip.modLeaf_evNow (c : Chip) (n : Nat) (f : Leaf → Leaf) : (c.modLeaf n f).evNow = c.evNow := rfl
@[simp] theorem Chip.modLeaf_evLast (c : Chip) (n : Nat) (f : Leaf → Leaf) : (c.modLeaf n f).evLast = c.evLast := rfl
@[simp] theorem Chip.modLeaf_cm (c : Chip) (n : Nat) (f : Leaf → Leaf) : (c.modLeaf n f).cm = c.cm := rfl
@[simp] theorem Chip.modLeaf_ports (c : Chip) (n : Nat) (f : Leaf → Leaf) : (c.modLeaf n f).ports = c.ports := rfl
@[simp] theorem Chip.modLeaf_tg (c : Chip) (n : Nat) (f : Leaf → Leaf) : (c.modLeaf n f).tg = c.tg := rfl
@[simp] theorem Chip.modLeaf_pots (c : Chip) (n : Nat) (f : Leaf → Leaf) : (c.modLeaf n f).pots = c.pots := rfl
@[simp] theorem Chip.modLeaf_cupSeq (c : Chip) (n : Nat) (f : Leaf → Leaf) : (c.modLeaf n f).cupSeq = c.cupSeq := rfl
@[simp] theorem Chip.modLeaf_segs (c : Chip) (n : Nat) (f : Leaf → Leaf) : (c.modLeaf n f).segs = c.segs := rfl
@[simp] theorem Chip.modLeaf_lps (c : Chip) (n : Nat) (f : Leaf → Leaf) : (c.modLeaf n f).lps = c.lps := rfl
@[simp] theorem Chip.modLeaf_axes (c : Chip) (n : Nat) (f : Leaf → Leaf) : (c.modLeaf n f).axes = c.axes := rfl
@[simp] theorem Chip.modLeaf_grps (c : Chip) (n : Nat) (f : Leaf → Leaf) : (c.modLeaf n f).grps = c.grps := rfl
@[simp] theorem Chip.modLeaf_pubLog (c : Chip) (n : Nat) (f : Leaf → Leaf) : (c.modLeaf n f).pubLog = c.pubLog := rfl
@[simp] theorem Chip.modLeaf_sigUnread (c : Chip) (n : Nat) (f : Leaf → Leaf) : (c.modLeaf n f).sigUnread = c.sigUnread := rfl
@[simp] theorem Chip.modLeaf_src (c : Chip) (n : Nat) (f : Leaf → Leaf) : (c.modLeaf n f).src = c.src := rfl
@[simp] theorem Chip.modLeaf_pulses (c : Chip) (n : Nat) (f : Leaf → Leaf) : (c.modLeaf n f).pulses = c.pulses := rfl
@[simp] theorem Chip.modLeaf_pins (c : Chip) (n : Nat) (f : Leaf → Leaf) : (c.modLeaf n f).pins = c.pins := rfl
@[simp] theorem Chip.modLeaf_vsense (c : Chip) (n : Nat) (f : Leaf → Leaf) : (c.modLeaf n f).vsense = c.vsense := rfl
@[simp] theorem Chip.modLeaf_lfs (c : Chip) (n : Nat) (f : Leaf → Leaf) : (c.modLeaf n f).lfs = c.lfs := rfl
@[simp] theorem Chip.modLeaf_cus (c : Chip) (n : Nat) (f : Leaf → Leaf) : (c.modLeaf n f).cus = c.cus := rfl
@[simp] theorem Chip.modLeaf_drained (c : Chip) (n : Nat) (f : Leaf → Leaf) : (c.modLeaf n f).drained = c.drained := rfl
@[simp] theorem Chip.modLeaf_caddyFill (c : Chip) (n : Nat) (f : Leaf → Leaf) : (c.modLeaf n f).caddyFill = c.caddyFill := rfl
@[simp] theorem Chip.modLeaf_sfs (c : Chip) (n : Nat) (f : Leaf → Leaf) : (c.modLeaf n f).sfs = c.sfs := rfl
@[simp] theorem Chip.modLeaf_free (c : Chip) (n : Nat) (f : Leaf → Leaf) : (c.modLeaf n f).free = c.free := rfl
@[simp] theorem Chip.modLeaf_tray (c : Chip) (n : Nat) (f : Leaf → Leaf) : (c.modLeaf n f).tray = c.tray := rfl
@[simp] theorem Chip.modLeaf_stby (c : Chip) (n : Nat) (f : Leaf → Leaf) : (c.modLeaf n f).stby = c.stby := rfl
@[simp] theorem Chip.modLeaf_linkSeq (c : Chip) (n : Nat) (f : Leaf → Leaf) : (c.modLeaf n f).linkSeq = c.linkSeq := rfl
@[simp] theorem Chip.modLeaf_log (c : Chip) (n : Nat) (f : Leaf → Leaf) : (c.modLeaf n f).log = c.log := rfl
@[simp] theorem Chip.modLeaf_sramErr (c : Chip) (n : Nat) (f : Leaf → Leaf) : (c.modLeaf n f).sramErr = c.sramErr := rfl
@[simp] theorem Chip.modLeaf_rst (c : Chip) (n : Nat) (f : Leaf → Leaf) : (c.modLeaf n f).rst = c.rst := rfl
@[simp] theorem Chip.modLeaf_pcie (c : Chip) (n : Nat) (f : Leaf → Leaf) : (c.modLeaf n f).pcie = c.pcie := rfl
@[simp] theorem Chip.modLeaf_qspiErr (c : Chip) (n : Nat) (f : Leaf → Leaf) : (c.modLeaf n f).qspiErr = c.qspiErr := rfl
@[simp] theorem Chip.modLeaf_qspiWip (c : Chip) (n : Nat) (f : Leaf → Leaf) : (c.modLeaf n f).qspiWip = c.qspiWip := rfl
@[simp] theorem Chip.modLeaf_mgEnd (c : Chip) (n : Nat) (f : Leaf → Leaf) : (c.modLeaf n f).mgEnd = c.mgEnd := rfl
@[simp] theorem Chip.modLeaf_mgSpeed (c : Chip) (n : Nat) (f : Leaf → Leaf) : (c.modLeaf n f).mgSpeed = c.mgSpeed := rfl
@[simp] theorem Chip.modLeaf_dma (c : Chip) (n : Nat) (f : Leaf → Leaf) : (c.modLeaf n f).dma = c.dma := rfl
@[simp] theorem Chip.modLeaf_out (c : Chip) (n : Nat) (f : Leaf → Leaf) : (c.modLeaf n f).out = c.out := rfl

/-! `setPot` -/

@[simp] theorem Chip.setPot_regs (c : Chip) (n : Nat) (v : Pot) : (c.setPot n v).regs = c.regs := rfl
@[simp] theorem Chip.setPot_mem (c : Chip) (n : Nat) (v : Pot) : (c.setPot n v).mem = c.mem := rfl
@[simp] theorem Chip.setPot_ecc (c : Chip) (n : Nat) (v : Pot) : (c.setPot n v).ecc = c.ecc := rfl
@[simp] theorem Chip.setPot_fresh (c : Chip) (n : Nat) (v : Pot) : (c.setPot n v).fresh = c.fresh := rfl
@[simp] theorem Chip.setPot_settling (c : Chip) (n : Nat) (v : Pot) : (c.setPot n v).settling = c.settling := rfl
@[simp] theorem Chip.setPot_evNow (c : Chip) (n : Nat) (v : Pot) : (c.setPot n v).evNow = c.evNow := rfl
@[simp] theorem Chip.setPot_evLast (c : Chip) (n : Nat) (v : Pot) : (c.setPot n v).evLast = c.evLast := rfl
@[simp] theorem Chip.setPot_cm (c : Chip) (n : Nat) (v : Pot) : (c.setPot n v).cm = c.cm := rfl
@[simp] theorem Chip.setPot_ports (c : Chip) (n : Nat) (v : Pot) : (c.setPot n v).ports = c.ports := rfl
@[simp] theorem Chip.setPot_tg (c : Chip) (n : Nat) (v : Pot) : (c.setPot n v).tg = c.tg := rfl
@[simp] theorem Chip.setPot_leaves (c : Chip) (n : Nat) (v : Pot) : (c.setPot n v).leaves = c.leaves := rfl
@[simp] theorem Chip.setPot_cupSeq (c : Chip) (n : Nat) (v : Pot) : (c.setPot n v).cupSeq = c.cupSeq := rfl
@[simp] theorem Chip.setPot_segs (c : Chip) (n : Nat) (v : Pot) : (c.setPot n v).segs = c.segs := rfl
@[simp] theorem Chip.setPot_lps (c : Chip) (n : Nat) (v : Pot) : (c.setPot n v).lps = c.lps := rfl
@[simp] theorem Chip.setPot_axes (c : Chip) (n : Nat) (v : Pot) : (c.setPot n v).axes = c.axes := rfl
@[simp] theorem Chip.setPot_grps (c : Chip) (n : Nat) (v : Pot) : (c.setPot n v).grps = c.grps := rfl
@[simp] theorem Chip.setPot_pubLog (c : Chip) (n : Nat) (v : Pot) : (c.setPot n v).pubLog = c.pubLog := rfl
@[simp] theorem Chip.setPot_sigUnread (c : Chip) (n : Nat) (v : Pot) : (c.setPot n v).sigUnread = c.sigUnread := rfl
@[simp] theorem Chip.setPot_src (c : Chip) (n : Nat) (v : Pot) : (c.setPot n v).src = c.src := rfl
@[simp] theorem Chip.setPot_pulses (c : Chip) (n : Nat) (v : Pot) : (c.setPot n v).pulses = c.pulses := rfl
@[simp] theorem Chip.setPot_pins (c : Chip) (n : Nat) (v : Pot) : (c.setPot n v).pins = c.pins := rfl
@[simp] theorem Chip.setPot_vsense (c : Chip) (n : Nat) (v : Pot) : (c.setPot n v).vsense = c.vsense := rfl
@[simp] theorem Chip.setPot_lfs (c : Chip) (n : Nat) (v : Pot) : (c.setPot n v).lfs = c.lfs := rfl
@[simp] theorem Chip.setPot_cus (c : Chip) (n : Nat) (v : Pot) : (c.setPot n v).cus = c.cus := rfl
@[simp] theorem Chip.setPot_drained (c : Chip) (n : Nat) (v : Pot) : (c.setPot n v).drained = c.drained := rfl
@[simp] theorem Chip.setPot_caddyFill (c : Chip) (n : Nat) (v : Pot) : (c.setPot n v).caddyFill = c.caddyFill := rfl
@[simp] theorem Chip.setPot_sfs (c : Chip) (n : Nat) (v : Pot) : (c.setPot n v).sfs = c.sfs := rfl
@[simp] theorem Chip.setPot_free (c : Chip) (n : Nat) (v : Pot) : (c.setPot n v).free = c.free := rfl
@[simp] theorem Chip.setPot_tray (c : Chip) (n : Nat) (v : Pot) : (c.setPot n v).tray = c.tray := rfl
@[simp] theorem Chip.setPot_stby (c : Chip) (n : Nat) (v : Pot) : (c.setPot n v).stby = c.stby := rfl
@[simp] theorem Chip.setPot_linkSeq (c : Chip) (n : Nat) (v : Pot) : (c.setPot n v).linkSeq = c.linkSeq := rfl
@[simp] theorem Chip.setPot_log (c : Chip) (n : Nat) (v : Pot) : (c.setPot n v).log = c.log := rfl
@[simp] theorem Chip.setPot_sramErr (c : Chip) (n : Nat) (v : Pot) : (c.setPot n v).sramErr = c.sramErr := rfl
@[simp] theorem Chip.setPot_rst (c : Chip) (n : Nat) (v : Pot) : (c.setPot n v).rst = c.rst := rfl
@[simp] theorem Chip.setPot_pcie (c : Chip) (n : Nat) (v : Pot) : (c.setPot n v).pcie = c.pcie := rfl
@[simp] theorem Chip.setPot_qspiErr (c : Chip) (n : Nat) (v : Pot) : (c.setPot n v).qspiErr = c.qspiErr := rfl
@[simp] theorem Chip.setPot_qspiWip (c : Chip) (n : Nat) (v : Pot) : (c.setPot n v).qspiWip = c.qspiWip := rfl
@[simp] theorem Chip.setPot_mgEnd (c : Chip) (n : Nat) (v : Pot) : (c.setPot n v).mgEnd = c.mgEnd := rfl
@[simp] theorem Chip.setPot_mgSpeed (c : Chip) (n : Nat) (v : Pot) : (c.setPot n v).mgSpeed = c.mgSpeed := rfl
@[simp] theorem Chip.setPot_dma (c : Chip) (n : Nat) (v : Pot) : (c.setPot n v).dma = c.dma := rfl
@[simp] theorem Chip.setPot_out (c : Chip) (n : Nat) (v : Pot) : (c.setPot n v).out = c.out := rfl

/-! `modPot` -/

@[simp] theorem Chip.modPot_regs (c : Chip) (n : Nat) (f : Pot → Pot) : (c.modPot n f).regs = c.regs := rfl
@[simp] theorem Chip.modPot_mem (c : Chip) (n : Nat) (f : Pot → Pot) : (c.modPot n f).mem = c.mem := rfl
@[simp] theorem Chip.modPot_ecc (c : Chip) (n : Nat) (f : Pot → Pot) : (c.modPot n f).ecc = c.ecc := rfl
@[simp] theorem Chip.modPot_fresh (c : Chip) (n : Nat) (f : Pot → Pot) : (c.modPot n f).fresh = c.fresh := rfl
@[simp] theorem Chip.modPot_settling (c : Chip) (n : Nat) (f : Pot → Pot) : (c.modPot n f).settling = c.settling := rfl
@[simp] theorem Chip.modPot_evNow (c : Chip) (n : Nat) (f : Pot → Pot) : (c.modPot n f).evNow = c.evNow := rfl
@[simp] theorem Chip.modPot_evLast (c : Chip) (n : Nat) (f : Pot → Pot) : (c.modPot n f).evLast = c.evLast := rfl
@[simp] theorem Chip.modPot_cm (c : Chip) (n : Nat) (f : Pot → Pot) : (c.modPot n f).cm = c.cm := rfl
@[simp] theorem Chip.modPot_ports (c : Chip) (n : Nat) (f : Pot → Pot) : (c.modPot n f).ports = c.ports := rfl
@[simp] theorem Chip.modPot_tg (c : Chip) (n : Nat) (f : Pot → Pot) : (c.modPot n f).tg = c.tg := rfl
@[simp] theorem Chip.modPot_leaves (c : Chip) (n : Nat) (f : Pot → Pot) : (c.modPot n f).leaves = c.leaves := rfl
@[simp] theorem Chip.modPot_cupSeq (c : Chip) (n : Nat) (f : Pot → Pot) : (c.modPot n f).cupSeq = c.cupSeq := rfl
@[simp] theorem Chip.modPot_segs (c : Chip) (n : Nat) (f : Pot → Pot) : (c.modPot n f).segs = c.segs := rfl
@[simp] theorem Chip.modPot_lps (c : Chip) (n : Nat) (f : Pot → Pot) : (c.modPot n f).lps = c.lps := rfl
@[simp] theorem Chip.modPot_axes (c : Chip) (n : Nat) (f : Pot → Pot) : (c.modPot n f).axes = c.axes := rfl
@[simp] theorem Chip.modPot_grps (c : Chip) (n : Nat) (f : Pot → Pot) : (c.modPot n f).grps = c.grps := rfl
@[simp] theorem Chip.modPot_pubLog (c : Chip) (n : Nat) (f : Pot → Pot) : (c.modPot n f).pubLog = c.pubLog := rfl
@[simp] theorem Chip.modPot_sigUnread (c : Chip) (n : Nat) (f : Pot → Pot) : (c.modPot n f).sigUnread = c.sigUnread := rfl
@[simp] theorem Chip.modPot_src (c : Chip) (n : Nat) (f : Pot → Pot) : (c.modPot n f).src = c.src := rfl
@[simp] theorem Chip.modPot_pulses (c : Chip) (n : Nat) (f : Pot → Pot) : (c.modPot n f).pulses = c.pulses := rfl
@[simp] theorem Chip.modPot_pins (c : Chip) (n : Nat) (f : Pot → Pot) : (c.modPot n f).pins = c.pins := rfl
@[simp] theorem Chip.modPot_vsense (c : Chip) (n : Nat) (f : Pot → Pot) : (c.modPot n f).vsense = c.vsense := rfl
@[simp] theorem Chip.modPot_lfs (c : Chip) (n : Nat) (f : Pot → Pot) : (c.modPot n f).lfs = c.lfs := rfl
@[simp] theorem Chip.modPot_cus (c : Chip) (n : Nat) (f : Pot → Pot) : (c.modPot n f).cus = c.cus := rfl
@[simp] theorem Chip.modPot_drained (c : Chip) (n : Nat) (f : Pot → Pot) : (c.modPot n f).drained = c.drained := rfl
@[simp] theorem Chip.modPot_caddyFill (c : Chip) (n : Nat) (f : Pot → Pot) : (c.modPot n f).caddyFill = c.caddyFill := rfl
@[simp] theorem Chip.modPot_sfs (c : Chip) (n : Nat) (f : Pot → Pot) : (c.modPot n f).sfs = c.sfs := rfl
@[simp] theorem Chip.modPot_free (c : Chip) (n : Nat) (f : Pot → Pot) : (c.modPot n f).free = c.free := rfl
@[simp] theorem Chip.modPot_tray (c : Chip) (n : Nat) (f : Pot → Pot) : (c.modPot n f).tray = c.tray := rfl
@[simp] theorem Chip.modPot_stby (c : Chip) (n : Nat) (f : Pot → Pot) : (c.modPot n f).stby = c.stby := rfl
@[simp] theorem Chip.modPot_linkSeq (c : Chip) (n : Nat) (f : Pot → Pot) : (c.modPot n f).linkSeq = c.linkSeq := rfl
@[simp] theorem Chip.modPot_log (c : Chip) (n : Nat) (f : Pot → Pot) : (c.modPot n f).log = c.log := rfl
@[simp] theorem Chip.modPot_sramErr (c : Chip) (n : Nat) (f : Pot → Pot) : (c.modPot n f).sramErr = c.sramErr := rfl
@[simp] theorem Chip.modPot_rst (c : Chip) (n : Nat) (f : Pot → Pot) : (c.modPot n f).rst = c.rst := rfl
@[simp] theorem Chip.modPot_pcie (c : Chip) (n : Nat) (f : Pot → Pot) : (c.modPot n f).pcie = c.pcie := rfl
@[simp] theorem Chip.modPot_qspiErr (c : Chip) (n : Nat) (f : Pot → Pot) : (c.modPot n f).qspiErr = c.qspiErr := rfl
@[simp] theorem Chip.modPot_qspiWip (c : Chip) (n : Nat) (f : Pot → Pot) : (c.modPot n f).qspiWip = c.qspiWip := rfl
@[simp] theorem Chip.modPot_mgEnd (c : Chip) (n : Nat) (f : Pot → Pot) : (c.modPot n f).mgEnd = c.mgEnd := rfl
@[simp] theorem Chip.modPot_mgSpeed (c : Chip) (n : Nat) (f : Pot → Pot) : (c.modPot n f).mgSpeed = c.mgSpeed := rfl
@[simp] theorem Chip.modPot_dma (c : Chip) (n : Nat) (f : Pot → Pot) : (c.modPot n f).dma = c.dma := rfl
@[simp] theorem Chip.modPot_out (c : Chip) (n : Nat) (f : Pot → Pot) : (c.modPot n f).out = c.out := rfl

/-! `modPort` -/

@[simp] theorem Chip.modPort_regs (c : Chip) (p : Port) (f : PortState → PortState) : (c.modPort p f).regs = c.regs := rfl
@[simp] theorem Chip.modPort_mem (c : Chip) (p : Port) (f : PortState → PortState) : (c.modPort p f).mem = c.mem := rfl
@[simp] theorem Chip.modPort_ecc (c : Chip) (p : Port) (f : PortState → PortState) : (c.modPort p f).ecc = c.ecc := rfl
@[simp] theorem Chip.modPort_fresh (c : Chip) (p : Port) (f : PortState → PortState) : (c.modPort p f).fresh = c.fresh := rfl
@[simp] theorem Chip.modPort_settling (c : Chip) (p : Port) (f : PortState → PortState) : (c.modPort p f).settling = c.settling := rfl
@[simp] theorem Chip.modPort_evNow (c : Chip) (p : Port) (f : PortState → PortState) : (c.modPort p f).evNow = c.evNow := rfl
@[simp] theorem Chip.modPort_evLast (c : Chip) (p : Port) (f : PortState → PortState) : (c.modPort p f).evLast = c.evLast := rfl
@[simp] theorem Chip.modPort_cm (c : Chip) (p : Port) (f : PortState → PortState) : (c.modPort p f).cm = c.cm := rfl
@[simp] theorem Chip.modPort_tg (c : Chip) (p : Port) (f : PortState → PortState) : (c.modPort p f).tg = c.tg := rfl
@[simp] theorem Chip.modPort_leaves (c : Chip) (p : Port) (f : PortState → PortState) : (c.modPort p f).leaves = c.leaves := rfl
@[simp] theorem Chip.modPort_pots (c : Chip) (p : Port) (f : PortState → PortState) : (c.modPort p f).pots = c.pots := rfl
@[simp] theorem Chip.modPort_cupSeq (c : Chip) (p : Port) (f : PortState → PortState) : (c.modPort p f).cupSeq = c.cupSeq := rfl
@[simp] theorem Chip.modPort_segs (c : Chip) (p : Port) (f : PortState → PortState) : (c.modPort p f).segs = c.segs := rfl
@[simp] theorem Chip.modPort_lps (c : Chip) (p : Port) (f : PortState → PortState) : (c.modPort p f).lps = c.lps := rfl
@[simp] theorem Chip.modPort_axes (c : Chip) (p : Port) (f : PortState → PortState) : (c.modPort p f).axes = c.axes := rfl
@[simp] theorem Chip.modPort_grps (c : Chip) (p : Port) (f : PortState → PortState) : (c.modPort p f).grps = c.grps := rfl
@[simp] theorem Chip.modPort_pubLog (c : Chip) (p : Port) (f : PortState → PortState) : (c.modPort p f).pubLog = c.pubLog := rfl
@[simp] theorem Chip.modPort_sigUnread (c : Chip) (p : Port) (f : PortState → PortState) : (c.modPort p f).sigUnread = c.sigUnread := rfl
@[simp] theorem Chip.modPort_src (c : Chip) (p : Port) (f : PortState → PortState) : (c.modPort p f).src = c.src := rfl
@[simp] theorem Chip.modPort_pulses (c : Chip) (p : Port) (f : PortState → PortState) : (c.modPort p f).pulses = c.pulses := rfl
@[simp] theorem Chip.modPort_pins (c : Chip) (p : Port) (f : PortState → PortState) : (c.modPort p f).pins = c.pins := rfl
@[simp] theorem Chip.modPort_vsense (c : Chip) (p : Port) (f : PortState → PortState) : (c.modPort p f).vsense = c.vsense := rfl
@[simp] theorem Chip.modPort_lfs (c : Chip) (p : Port) (f : PortState → PortState) : (c.modPort p f).lfs = c.lfs := rfl
@[simp] theorem Chip.modPort_cus (c : Chip) (p : Port) (f : PortState → PortState) : (c.modPort p f).cus = c.cus := rfl
@[simp] theorem Chip.modPort_drained (c : Chip) (p : Port) (f : PortState → PortState) : (c.modPort p f).drained = c.drained := rfl
@[simp] theorem Chip.modPort_caddyFill (c : Chip) (p : Port) (f : PortState → PortState) : (c.modPort p f).caddyFill = c.caddyFill := rfl
@[simp] theorem Chip.modPort_sfs (c : Chip) (p : Port) (f : PortState → PortState) : (c.modPort p f).sfs = c.sfs := rfl
@[simp] theorem Chip.modPort_free (c : Chip) (p : Port) (f : PortState → PortState) : (c.modPort p f).free = c.free := rfl
@[simp] theorem Chip.modPort_tray (c : Chip) (p : Port) (f : PortState → PortState) : (c.modPort p f).tray = c.tray := rfl
@[simp] theorem Chip.modPort_stby (c : Chip) (p : Port) (f : PortState → PortState) : (c.modPort p f).stby = c.stby := rfl
@[simp] theorem Chip.modPort_linkSeq (c : Chip) (p : Port) (f : PortState → PortState) : (c.modPort p f).linkSeq = c.linkSeq := rfl
@[simp] theorem Chip.modPort_log (c : Chip) (p : Port) (f : PortState → PortState) : (c.modPort p f).log = c.log := rfl
@[simp] theorem Chip.modPort_sramErr (c : Chip) (p : Port) (f : PortState → PortState) : (c.modPort p f).sramErr = c.sramErr := rfl
@[simp] theorem Chip.modPort_rst (c : Chip) (p : Port) (f : PortState → PortState) : (c.modPort p f).rst = c.rst := rfl
@[simp] theorem Chip.modPort_pcie (c : Chip) (p : Port) (f : PortState → PortState) : (c.modPort p f).pcie = c.pcie := rfl
@[simp] theorem Chip.modPort_qspiErr (c : Chip) (p : Port) (f : PortState → PortState) : (c.modPort p f).qspiErr = c.qspiErr := rfl
@[simp] theorem Chip.modPort_qspiWip (c : Chip) (p : Port) (f : PortState → PortState) : (c.modPort p f).qspiWip = c.qspiWip := rfl
@[simp] theorem Chip.modPort_mgEnd (c : Chip) (p : Port) (f : PortState → PortState) : (c.modPort p f).mgEnd = c.mgEnd := rfl
@[simp] theorem Chip.modPort_mgSpeed (c : Chip) (p : Port) (f : PortState → PortState) : (c.modPort p f).mgSpeed = c.mgSpeed := rfl
@[simp] theorem Chip.modPort_dma (c : Chip) (p : Port) (f : PortState → PortState) : (c.modPort p f).dma = c.dma := rfl
@[simp] theorem Chip.modPort_out (c : Chip) (p : Port) (f : PortState → PortState) : (c.modPort p f).out = c.out := rfl

/-! `modTg` -/

@[simp] theorem Chip.modTg_regs (c : Chip) (f : TickGen → TickGen) : (c.modTg f).regs = c.regs := rfl
@[simp] theorem Chip.modTg_mem (c : Chip) (f : TickGen → TickGen) : (c.modTg f).mem = c.mem := rfl
@[simp] theorem Chip.modTg_ecc (c : Chip) (f : TickGen → TickGen) : (c.modTg f).ecc = c.ecc := rfl
@[simp] theorem Chip.modTg_fresh (c : Chip) (f : TickGen → TickGen) : (c.modTg f).fresh = c.fresh := rfl
@[simp] theorem Chip.modTg_settling (c : Chip) (f : TickGen → TickGen) : (c.modTg f).settling = c.settling := rfl
@[simp] theorem Chip.modTg_evNow (c : Chip) (f : TickGen → TickGen) : (c.modTg f).evNow = c.evNow := rfl
@[simp] theorem Chip.modTg_evLast (c : Chip) (f : TickGen → TickGen) : (c.modTg f).evLast = c.evLast := rfl
@[simp] theorem Chip.modTg_cm (c : Chip) (f : TickGen → TickGen) : (c.modTg f).cm = c.cm := rfl
@[simp] theorem Chip.modTg_ports (c : Chip) (f : TickGen → TickGen) : (c.modTg f).ports = c.ports := rfl
@[simp] theorem Chip.modTg_leaves (c : Chip) (f : TickGen → TickGen) : (c.modTg f).leaves = c.leaves := rfl
@[simp] theorem Chip.modTg_pots (c : Chip) (f : TickGen → TickGen) : (c.modTg f).pots = c.pots := rfl
@[simp] theorem Chip.modTg_cupSeq (c : Chip) (f : TickGen → TickGen) : (c.modTg f).cupSeq = c.cupSeq := rfl
@[simp] theorem Chip.modTg_segs (c : Chip) (f : TickGen → TickGen) : (c.modTg f).segs = c.segs := rfl
@[simp] theorem Chip.modTg_lps (c : Chip) (f : TickGen → TickGen) : (c.modTg f).lps = c.lps := rfl
@[simp] theorem Chip.modTg_axes (c : Chip) (f : TickGen → TickGen) : (c.modTg f).axes = c.axes := rfl
@[simp] theorem Chip.modTg_grps (c : Chip) (f : TickGen → TickGen) : (c.modTg f).grps = c.grps := rfl
@[simp] theorem Chip.modTg_pubLog (c : Chip) (f : TickGen → TickGen) : (c.modTg f).pubLog = c.pubLog := rfl
@[simp] theorem Chip.modTg_sigUnread (c : Chip) (f : TickGen → TickGen) : (c.modTg f).sigUnread = c.sigUnread := rfl
@[simp] theorem Chip.modTg_src (c : Chip) (f : TickGen → TickGen) : (c.modTg f).src = c.src := rfl
@[simp] theorem Chip.modTg_pulses (c : Chip) (f : TickGen → TickGen) : (c.modTg f).pulses = c.pulses := rfl
@[simp] theorem Chip.modTg_pins (c : Chip) (f : TickGen → TickGen) : (c.modTg f).pins = c.pins := rfl
@[simp] theorem Chip.modTg_vsense (c : Chip) (f : TickGen → TickGen) : (c.modTg f).vsense = c.vsense := rfl
@[simp] theorem Chip.modTg_lfs (c : Chip) (f : TickGen → TickGen) : (c.modTg f).lfs = c.lfs := rfl
@[simp] theorem Chip.modTg_cus (c : Chip) (f : TickGen → TickGen) : (c.modTg f).cus = c.cus := rfl
@[simp] theorem Chip.modTg_drained (c : Chip) (f : TickGen → TickGen) : (c.modTg f).drained = c.drained := rfl
@[simp] theorem Chip.modTg_caddyFill (c : Chip) (f : TickGen → TickGen) : (c.modTg f).caddyFill = c.caddyFill := rfl
@[simp] theorem Chip.modTg_sfs (c : Chip) (f : TickGen → TickGen) : (c.modTg f).sfs = c.sfs := rfl
@[simp] theorem Chip.modTg_free (c : Chip) (f : TickGen → TickGen) : (c.modTg f).free = c.free := rfl
@[simp] theorem Chip.modTg_tray (c : Chip) (f : TickGen → TickGen) : (c.modTg f).tray = c.tray := rfl
@[simp] theorem Chip.modTg_stby (c : Chip) (f : TickGen → TickGen) : (c.modTg f).stby = c.stby := rfl
@[simp] theorem Chip.modTg_linkSeq (c : Chip) (f : TickGen → TickGen) : (c.modTg f).linkSeq = c.linkSeq := rfl
@[simp] theorem Chip.modTg_log (c : Chip) (f : TickGen → TickGen) : (c.modTg f).log = c.log := rfl
@[simp] theorem Chip.modTg_sramErr (c : Chip) (f : TickGen → TickGen) : (c.modTg f).sramErr = c.sramErr := rfl
@[simp] theorem Chip.modTg_rst (c : Chip) (f : TickGen → TickGen) : (c.modTg f).rst = c.rst := rfl
@[simp] theorem Chip.modTg_pcie (c : Chip) (f : TickGen → TickGen) : (c.modTg f).pcie = c.pcie := rfl
@[simp] theorem Chip.modTg_qspiErr (c : Chip) (f : TickGen → TickGen) : (c.modTg f).qspiErr = c.qspiErr := rfl
@[simp] theorem Chip.modTg_qspiWip (c : Chip) (f : TickGen → TickGen) : (c.modTg f).qspiWip = c.qspiWip := rfl
@[simp] theorem Chip.modTg_mgEnd (c : Chip) (f : TickGen → TickGen) : (c.modTg f).mgEnd = c.mgEnd := rfl
@[simp] theorem Chip.modTg_mgSpeed (c : Chip) (f : TickGen → TickGen) : (c.modTg f).mgSpeed = c.mgSpeed := rfl
@[simp] theorem Chip.modTg_dma (c : Chip) (f : TickGen → TickGen) : (c.modTg f).dma = c.dma := rfl
@[simp] theorem Chip.modTg_out (c : Chip) (f : TickGen → TickGen) : (c.modTg f).out = c.out := rfl

/-! `modCm` -/

@[simp] theorem Chip.modCm_regs (c : Chip) (f : Commit → Commit) : (c.modCm f).regs = c.regs := rfl
@[simp] theorem Chip.modCm_mem (c : Chip) (f : Commit → Commit) : (c.modCm f).mem = c.mem := rfl
@[simp] theorem Chip.modCm_ecc (c : Chip) (f : Commit → Commit) : (c.modCm f).ecc = c.ecc := rfl
@[simp] theorem Chip.modCm_fresh (c : Chip) (f : Commit → Commit) : (c.modCm f).fresh = c.fresh := rfl
@[simp] theorem Chip.modCm_settling (c : Chip) (f : Commit → Commit) : (c.modCm f).settling = c.settling := rfl
@[simp] theorem Chip.modCm_evNow (c : Chip) (f : Commit → Commit) : (c.modCm f).evNow = c.evNow := rfl
@[simp] theorem Chip.modCm_evLast (c : Chip) (f : Commit → Commit) : (c.modCm f).evLast = c.evLast := rfl
@[simp] theorem Chip.modCm_ports (c : Chip) (f : Commit → Commit) : (c.modCm f).ports = c.ports := rfl
@[simp] theorem Chip.modCm_tg (c : Chip) (f : Commit → Commit) : (c.modCm f).tg = c.tg := rfl
@[simp] theorem Chip.modCm_leaves (c : Chip) (f : Commit → Commit) : (c.modCm f).leaves = c.leaves := rfl
@[simp] theorem Chip.modCm_pots (c : Chip) (f : Commit → Commit) : (c.modCm f).pots = c.pots := rfl
@[simp] theorem Chip.modCm_cupSeq (c : Chip) (f : Commit → Commit) : (c.modCm f).cupSeq = c.cupSeq := rfl
@[simp] theorem Chip.modCm_segs (c : Chip) (f : Commit → Commit) : (c.modCm f).segs = c.segs := rfl
@[simp] theorem Chip.modCm_lps (c : Chip) (f : Commit → Commit) : (c.modCm f).lps = c.lps := rfl
@[simp] theorem Chip.modCm_axes (c : Chip) (f : Commit → Commit) : (c.modCm f).axes = c.axes := rfl
@[simp] theorem Chip.modCm_grps (c : Chip) (f : Commit → Commit) : (c.modCm f).grps = c.grps := rfl
@[simp] theorem Chip.modCm_pubLog (c : Chip) (f : Commit → Commit) : (c.modCm f).pubLog = c.pubLog := rfl
@[simp] theorem Chip.modCm_sigUnread (c : Chip) (f : Commit → Commit) : (c.modCm f).sigUnread = c.sigUnread := rfl
@[simp] theorem Chip.modCm_src (c : Chip) (f : Commit → Commit) : (c.modCm f).src = c.src := rfl
@[simp] theorem Chip.modCm_pulses (c : Chip) (f : Commit → Commit) : (c.modCm f).pulses = c.pulses := rfl
@[simp] theorem Chip.modCm_pins (c : Chip) (f : Commit → Commit) : (c.modCm f).pins = c.pins := rfl
@[simp] theorem Chip.modCm_vsense (c : Chip) (f : Commit → Commit) : (c.modCm f).vsense = c.vsense := rfl
@[simp] theorem Chip.modCm_lfs (c : Chip) (f : Commit → Commit) : (c.modCm f).lfs = c.lfs := rfl
@[simp] theorem Chip.modCm_cus (c : Chip) (f : Commit → Commit) : (c.modCm f).cus = c.cus := rfl
@[simp] theorem Chip.modCm_drained (c : Chip) (f : Commit → Commit) : (c.modCm f).drained = c.drained := rfl
@[simp] theorem Chip.modCm_caddyFill (c : Chip) (f : Commit → Commit) : (c.modCm f).caddyFill = c.caddyFill := rfl
@[simp] theorem Chip.modCm_sfs (c : Chip) (f : Commit → Commit) : (c.modCm f).sfs = c.sfs := rfl
@[simp] theorem Chip.modCm_free (c : Chip) (f : Commit → Commit) : (c.modCm f).free = c.free := rfl
@[simp] theorem Chip.modCm_tray (c : Chip) (f : Commit → Commit) : (c.modCm f).tray = c.tray := rfl
@[simp] theorem Chip.modCm_stby (c : Chip) (f : Commit → Commit) : (c.modCm f).stby = c.stby := rfl
@[simp] theorem Chip.modCm_linkSeq (c : Chip) (f : Commit → Commit) : (c.modCm f).linkSeq = c.linkSeq := rfl
@[simp] theorem Chip.modCm_log (c : Chip) (f : Commit → Commit) : (c.modCm f).log = c.log := rfl
@[simp] theorem Chip.modCm_sramErr (c : Chip) (f : Commit → Commit) : (c.modCm f).sramErr = c.sramErr := rfl
@[simp] theorem Chip.modCm_rst (c : Chip) (f : Commit → Commit) : (c.modCm f).rst = c.rst := rfl
@[simp] theorem Chip.modCm_pcie (c : Chip) (f : Commit → Commit) : (c.modCm f).pcie = c.pcie := rfl
@[simp] theorem Chip.modCm_qspiErr (c : Chip) (f : Commit → Commit) : (c.modCm f).qspiErr = c.qspiErr := rfl
@[simp] theorem Chip.modCm_qspiWip (c : Chip) (f : Commit → Commit) : (c.modCm f).qspiWip = c.qspiWip := rfl
@[simp] theorem Chip.modCm_mgEnd (c : Chip) (f : Commit → Commit) : (c.modCm f).mgEnd = c.mgEnd := rfl
@[simp] theorem Chip.modCm_mgSpeed (c : Chip) (f : Commit → Commit) : (c.modCm f).mgSpeed = c.mgSpeed := rfl
@[simp] theorem Chip.modCm_dma (c : Chip) (f : Commit → Commit) : (c.modCm f).dma = c.dma := rfl
@[simp] theorem Chip.modCm_out (c : Chip) (f : Commit → Commit) : (c.modCm f).out = c.out := rfl

/-! `modStby` -/

@[simp] theorem Chip.modStby_regs (c : Chip) (f : Stby → Stby) : (c.modStby f).regs = c.regs := rfl
@[simp] theorem Chip.modStby_mem (c : Chip) (f : Stby → Stby) : (c.modStby f).mem = c.mem := rfl
@[simp] theorem Chip.modStby_ecc (c : Chip) (f : Stby → Stby) : (c.modStby f).ecc = c.ecc := rfl
@[simp] theorem Chip.modStby_fresh (c : Chip) (f : Stby → Stby) : (c.modStby f).fresh = c.fresh := rfl
@[simp] theorem Chip.modStby_settling (c : Chip) (f : Stby → Stby) : (c.modStby f).settling = c.settling := rfl
@[simp] theorem Chip.modStby_evNow (c : Chip) (f : Stby → Stby) : (c.modStby f).evNow = c.evNow := rfl
@[simp] theorem Chip.modStby_evLast (c : Chip) (f : Stby → Stby) : (c.modStby f).evLast = c.evLast := rfl
@[simp] theorem Chip.modStby_cm (c : Chip) (f : Stby → Stby) : (c.modStby f).cm = c.cm := rfl
@[simp] theorem Chip.modStby_ports (c : Chip) (f : Stby → Stby) : (c.modStby f).ports = c.ports := rfl
@[simp] theorem Chip.modStby_tg (c : Chip) (f : Stby → Stby) : (c.modStby f).tg = c.tg := rfl
@[simp] theorem Chip.modStby_leaves (c : Chip) (f : Stby → Stby) : (c.modStby f).leaves = c.leaves := rfl
@[simp] theorem Chip.modStby_pots (c : Chip) (f : Stby → Stby) : (c.modStby f).pots = c.pots := rfl
@[simp] theorem Chip.modStby_cupSeq (c : Chip) (f : Stby → Stby) : (c.modStby f).cupSeq = c.cupSeq := rfl
@[simp] theorem Chip.modStby_segs (c : Chip) (f : Stby → Stby) : (c.modStby f).segs = c.segs := rfl
@[simp] theorem Chip.modStby_lps (c : Chip) (f : Stby → Stby) : (c.modStby f).lps = c.lps := rfl
@[simp] theorem Chip.modStby_axes (c : Chip) (f : Stby → Stby) : (c.modStby f).axes = c.axes := rfl
@[simp] theorem Chip.modStby_grps (c : Chip) (f : Stby → Stby) : (c.modStby f).grps = c.grps := rfl
@[simp] theorem Chip.modStby_pubLog (c : Chip) (f : Stby → Stby) : (c.modStby f).pubLog = c.pubLog := rfl
@[simp] theorem Chip.modStby_sigUnread (c : Chip) (f : Stby → Stby) : (c.modStby f).sigUnread = c.sigUnread := rfl
@[simp] theorem Chip.modStby_src (c : Chip) (f : Stby → Stby) : (c.modStby f).src = c.src := rfl
@[simp] theorem Chip.modStby_pulses (c : Chip) (f : Stby → Stby) : (c.modStby f).pulses = c.pulses := rfl
@[simp] theorem Chip.modStby_pins (c : Chip) (f : Stby → Stby) : (c.modStby f).pins = c.pins := rfl
@[simp] theorem Chip.modStby_vsense (c : Chip) (f : Stby → Stby) : (c.modStby f).vsense = c.vsense := rfl
@[simp] theorem Chip.modStby_lfs (c : Chip) (f : Stby → Stby) : (c.modStby f).lfs = c.lfs := rfl
@[simp] theorem Chip.modStby_cus (c : Chip) (f : Stby → Stby) : (c.modStby f).cus = c.cus := rfl
@[simp] theorem Chip.modStby_drained (c : Chip) (f : Stby → Stby) : (c.modStby f).drained = c.drained := rfl
@[simp] theorem Chip.modStby_caddyFill (c : Chip) (f : Stby → Stby) : (c.modStby f).caddyFill = c.caddyFill := rfl
@[simp] theorem Chip.modStby_sfs (c : Chip) (f : Stby → Stby) : (c.modStby f).sfs = c.sfs := rfl
@[simp] theorem Chip.modStby_free (c : Chip) (f : Stby → Stby) : (c.modStby f).free = c.free := rfl
@[simp] theorem Chip.modStby_tray (c : Chip) (f : Stby → Stby) : (c.modStby f).tray = c.tray := rfl
@[simp] theorem Chip.modStby_linkSeq (c : Chip) (f : Stby → Stby) : (c.modStby f).linkSeq = c.linkSeq := rfl
@[simp] theorem Chip.modStby_log (c : Chip) (f : Stby → Stby) : (c.modStby f).log = c.log := rfl
@[simp] theorem Chip.modStby_sramErr (c : Chip) (f : Stby → Stby) : (c.modStby f).sramErr = c.sramErr := rfl
@[simp] theorem Chip.modStby_rst (c : Chip) (f : Stby → Stby) : (c.modStby f).rst = c.rst := rfl
@[simp] theorem Chip.modStby_pcie (c : Chip) (f : Stby → Stby) : (c.modStby f).pcie = c.pcie := rfl
@[simp] theorem Chip.modStby_qspiErr (c : Chip) (f : Stby → Stby) : (c.modStby f).qspiErr = c.qspiErr := rfl
@[simp] theorem Chip.modStby_qspiWip (c : Chip) (f : Stby → Stby) : (c.modStby f).qspiWip = c.qspiWip := rfl
@[simp] theorem Chip.modStby_mgEnd (c : Chip) (f : Stby → Stby) : (c.modStby f).mgEnd = c.mgEnd := rfl
@[simp] theorem Chip.modStby_mgSpeed (c : Chip) (f : Stby → Stby) : (c.modStby f).mgSpeed = c.mgSpeed := rfl
@[simp] theorem Chip.modStby_dma (c : Chip) (f : Stby → Stby) : (c.modStby f).dma = c.dma := rfl
@[simp] theorem Chip.modStby_out (c : Chip) (f : Stby → Stby) : (c.modStby f).out = c.out := rfl

/-! `emit` -/

@[simp] theorem Chip.emit_regs (c : Chip) (o : Out) : (c.emit o).regs = c.regs := rfl
@[simp] theorem Chip.emit_mem (c : Chip) (o : Out) : (c.emit o).mem = c.mem := rfl
@[simp] theorem Chip.emit_ecc (c : Chip) (o : Out) : (c.emit o).ecc = c.ecc := rfl
@[simp] theorem Chip.emit_fresh (c : Chip) (o : Out) : (c.emit o).fresh = c.fresh := rfl
@[simp] theorem Chip.emit_settling (c : Chip) (o : Out) : (c.emit o).settling = c.settling := rfl
@[simp] theorem Chip.emit_evNow (c : Chip) (o : Out) : (c.emit o).evNow = c.evNow := rfl
@[simp] theorem Chip.emit_evLast (c : Chip) (o : Out) : (c.emit o).evLast = c.evLast := rfl
@[simp] theorem Chip.emit_cm (c : Chip) (o : Out) : (c.emit o).cm = c.cm := rfl
@[simp] theorem Chip.emit_ports (c : Chip) (o : Out) : (c.emit o).ports = c.ports := rfl
@[simp] theorem Chip.emit_tg (c : Chip) (o : Out) : (c.emit o).tg = c.tg := rfl
@[simp] theorem Chip.emit_leaves (c : Chip) (o : Out) : (c.emit o).leaves = c.leaves := rfl
@[simp] theorem Chip.emit_pots (c : Chip) (o : Out) : (c.emit o).pots = c.pots := rfl
@[simp] theorem Chip.emit_cupSeq (c : Chip) (o : Out) : (c.emit o).cupSeq = c.cupSeq := rfl
@[simp] theorem Chip.emit_segs (c : Chip) (o : Out) : (c.emit o).segs = c.segs := rfl
@[simp] theorem Chip.emit_lps (c : Chip) (o : Out) : (c.emit o).lps = c.lps := rfl
@[simp] theorem Chip.emit_axes (c : Chip) (o : Out) : (c.emit o).axes = c.axes := rfl
@[simp] theorem Chip.emit_grps (c : Chip) (o : Out) : (c.emit o).grps = c.grps := rfl
@[simp] theorem Chip.emit_pubLog (c : Chip) (o : Out) : (c.emit o).pubLog = c.pubLog := rfl
@[simp] theorem Chip.emit_sigUnread (c : Chip) (o : Out) : (c.emit o).sigUnread = c.sigUnread := rfl
@[simp] theorem Chip.emit_src (c : Chip) (o : Out) : (c.emit o).src = c.src := rfl
@[simp] theorem Chip.emit_pulses (c : Chip) (o : Out) : (c.emit o).pulses = c.pulses := rfl
@[simp] theorem Chip.emit_pins (c : Chip) (o : Out) : (c.emit o).pins = c.pins := rfl
@[simp] theorem Chip.emit_vsense (c : Chip) (o : Out) : (c.emit o).vsense = c.vsense := rfl
@[simp] theorem Chip.emit_lfs (c : Chip) (o : Out) : (c.emit o).lfs = c.lfs := rfl
@[simp] theorem Chip.emit_cus (c : Chip) (o : Out) : (c.emit o).cus = c.cus := rfl
@[simp] theorem Chip.emit_drained (c : Chip) (o : Out) : (c.emit o).drained = c.drained := rfl
@[simp] theorem Chip.emit_caddyFill (c : Chip) (o : Out) : (c.emit o).caddyFill = c.caddyFill := rfl
@[simp] theorem Chip.emit_sfs (c : Chip) (o : Out) : (c.emit o).sfs = c.sfs := rfl
@[simp] theorem Chip.emit_free (c : Chip) (o : Out) : (c.emit o).free = c.free := rfl
@[simp] theorem Chip.emit_tray (c : Chip) (o : Out) : (c.emit o).tray = c.tray := rfl
@[simp] theorem Chip.emit_stby (c : Chip) (o : Out) : (c.emit o).stby = c.stby := rfl
@[simp] theorem Chip.emit_linkSeq (c : Chip) (o : Out) : (c.emit o).linkSeq = c.linkSeq := rfl
@[simp] theorem Chip.emit_log (c : Chip) (o : Out) : (c.emit o).log = c.log := rfl
@[simp] theorem Chip.emit_sramErr (c : Chip) (o : Out) : (c.emit o).sramErr = c.sramErr := rfl
@[simp] theorem Chip.emit_rst (c : Chip) (o : Out) : (c.emit o).rst = c.rst := rfl
@[simp] theorem Chip.emit_pcie (c : Chip) (o : Out) : (c.emit o).pcie = c.pcie := rfl
@[simp] theorem Chip.emit_qspiErr (c : Chip) (o : Out) : (c.emit o).qspiErr = c.qspiErr := rfl
@[simp] theorem Chip.emit_qspiWip (c : Chip) (o : Out) : (c.emit o).qspiWip = c.qspiWip := rfl
@[simp] theorem Chip.emit_mgEnd (c : Chip) (o : Out) : (c.emit o).mgEnd = c.mgEnd := rfl
@[simp] theorem Chip.emit_mgSpeed (c : Chip) (o : Out) : (c.emit o).mgSpeed = c.mgSpeed := rfl
@[simp] theorem Chip.emit_dma (c : Chip) (o : Out) : (c.emit o).dma = c.dma := rfl

/-! `modSeg` -/

@[simp] theorem Chip.modSeg_regs (c : Chip) (n : Nat) (f : Seg → Seg) : (c.modSeg n f).regs = c.regs := rfl
@[simp] theorem Chip.modSeg_mem (c : Chip) (n : Nat) (f : Seg → Seg) : (c.modSeg n f).mem = c.mem := rfl
@[simp] theorem Chip.modSeg_ecc (c : Chip) (n : Nat) (f : Seg → Seg) : (c.modSeg n f).ecc = c.ecc := rfl
@[simp] theorem Chip.modSeg_fresh (c : Chip) (n : Nat) (f : Seg → Seg) : (c.modSeg n f).fresh = c.fresh := rfl
@[simp] theorem Chip.modSeg_settling (c : Chip) (n : Nat) (f : Seg → Seg) : (c.modSeg n f).settling = c.settling := rfl
@[simp] theorem Chip.modSeg_evNow (c : Chip) (n : Nat) (f : Seg → Seg) : (c.modSeg n f).evNow = c.evNow := rfl
@[simp] theorem Chip.modSeg_evLast (c : Chip) (n : Nat) (f : Seg → Seg) : (c.modSeg n f).evLast = c.evLast := rfl
@[simp] theorem Chip.modSeg_cm (c : Chip) (n : Nat) (f : Seg → Seg) : (c.modSeg n f).cm = c.cm := rfl
@[simp] theorem Chip.modSeg_ports (c : Chip) (n : Nat) (f : Seg → Seg) : (c.modSeg n f).ports = c.ports := rfl
@[simp] theorem Chip.modSeg_tg (c : Chip) (n : Nat) (f : Seg → Seg) : (c.modSeg n f).tg = c.tg := rfl
@[simp] theorem Chip.modSeg_leaves (c : Chip) (n : Nat) (f : Seg → Seg) : (c.modSeg n f).leaves = c.leaves := rfl
@[simp] theorem Chip.modSeg_pots (c : Chip) (n : Nat) (f : Seg → Seg) : (c.modSeg n f).pots = c.pots := rfl
@[simp] theorem Chip.modSeg_cupSeq (c : Chip) (n : Nat) (f : Seg → Seg) : (c.modSeg n f).cupSeq = c.cupSeq := rfl
@[simp] theorem Chip.modSeg_lps (c : Chip) (n : Nat) (f : Seg → Seg) : (c.modSeg n f).lps = c.lps := rfl
@[simp] theorem Chip.modSeg_axes (c : Chip) (n : Nat) (f : Seg → Seg) : (c.modSeg n f).axes = c.axes := rfl
@[simp] theorem Chip.modSeg_grps (c : Chip) (n : Nat) (f : Seg → Seg) : (c.modSeg n f).grps = c.grps := rfl
@[simp] theorem Chip.modSeg_pubLog (c : Chip) (n : Nat) (f : Seg → Seg) : (c.modSeg n f).pubLog = c.pubLog := rfl
@[simp] theorem Chip.modSeg_sigUnread (c : Chip) (n : Nat) (f : Seg → Seg) : (c.modSeg n f).sigUnread = c.sigUnread := rfl
@[simp] theorem Chip.modSeg_src (c : Chip) (n : Nat) (f : Seg → Seg) : (c.modSeg n f).src = c.src := rfl
@[simp] theorem Chip.modSeg_pulses (c : Chip) (n : Nat) (f : Seg → Seg) : (c.modSeg n f).pulses = c.pulses := rfl
@[simp] theorem Chip.modSeg_pins (c : Chip) (n : Nat) (f : Seg → Seg) : (c.modSeg n f).pins = c.pins := rfl
@[simp] theorem Chip.modSeg_vsense (c : Chip) (n : Nat) (f : Seg → Seg) : (c.modSeg n f).vsense = c.vsense := rfl
@[simp] theorem Chip.modSeg_lfs (c : Chip) (n : Nat) (f : Seg → Seg) : (c.modSeg n f).lfs = c.lfs := rfl
@[simp] theorem Chip.modSeg_cus (c : Chip) (n : Nat) (f : Seg → Seg) : (c.modSeg n f).cus = c.cus := rfl
@[simp] theorem Chip.modSeg_drained (c : Chip) (n : Nat) (f : Seg → Seg) : (c.modSeg n f).drained = c.drained := rfl
@[simp] theorem Chip.modSeg_caddyFill (c : Chip) (n : Nat) (f : Seg → Seg) : (c.modSeg n f).caddyFill = c.caddyFill := rfl
@[simp] theorem Chip.modSeg_sfs (c : Chip) (n : Nat) (f : Seg → Seg) : (c.modSeg n f).sfs = c.sfs := rfl
@[simp] theorem Chip.modSeg_free (c : Chip) (n : Nat) (f : Seg → Seg) : (c.modSeg n f).free = c.free := rfl
@[simp] theorem Chip.modSeg_tray (c : Chip) (n : Nat) (f : Seg → Seg) : (c.modSeg n f).tray = c.tray := rfl
@[simp] theorem Chip.modSeg_stby (c : Chip) (n : Nat) (f : Seg → Seg) : (c.modSeg n f).stby = c.stby := rfl
@[simp] theorem Chip.modSeg_linkSeq (c : Chip) (n : Nat) (f : Seg → Seg) : (c.modSeg n f).linkSeq = c.linkSeq := rfl
@[simp] theorem Chip.modSeg_log (c : Chip) (n : Nat) (f : Seg → Seg) : (c.modSeg n f).log = c.log := rfl
@[simp] theorem Chip.modSeg_sramErr (c : Chip) (n : Nat) (f : Seg → Seg) : (c.modSeg n f).sramErr = c.sramErr := rfl
@[simp] theorem Chip.modSeg_rst (c : Chip) (n : Nat) (f : Seg → Seg) : (c.modSeg n f).rst = c.rst := rfl
@[simp] theorem Chip.modSeg_pcie (c : Chip) (n : Nat) (f : Seg → Seg) : (c.modSeg n f).pcie = c.pcie := rfl
@[simp] theorem Chip.modSeg_qspiErr (c : Chip) (n : Nat) (f : Seg → Seg) : (c.modSeg n f).qspiErr = c.qspiErr := rfl
@[simp] theorem Chip.modSeg_qspiWip (c : Chip) (n : Nat) (f : Seg → Seg) : (c.modSeg n f).qspiWip = c.qspiWip := rfl
@[simp] theorem Chip.modSeg_mgEnd (c : Chip) (n : Nat) (f : Seg → Seg) : (c.modSeg n f).mgEnd = c.mgEnd := rfl
@[simp] theorem Chip.modSeg_mgSpeed (c : Chip) (n : Nat) (f : Seg → Seg) : (c.modSeg n f).mgSpeed = c.mgSpeed := rfl
@[simp] theorem Chip.modSeg_dma (c : Chip) (n : Nat) (f : Seg → Seg) : (c.modSeg n f).dma = c.dma := rfl
@[simp] theorem Chip.modSeg_out (c : Chip) (n : Nat) (f : Seg → Seg) : (c.modSeg n f).out = c.out := rfl

/-! `modLp` -/

@[simp] theorem Chip.modLp_regs (c : Chip) (n : Nat) (f : Lp → Lp) : (c.modLp n f).regs = c.regs := rfl
@[simp] theorem Chip.modLp_mem (c : Chip) (n : Nat) (f : Lp → Lp) : (c.modLp n f).mem = c.mem := rfl
@[simp] theorem Chip.modLp_ecc (c : Chip) (n : Nat) (f : Lp → Lp) : (c.modLp n f).ecc = c.ecc := rfl
@[simp] theorem Chip.modLp_fresh (c : Chip) (n : Nat) (f : Lp → Lp) : (c.modLp n f).fresh = c.fresh := rfl
@[simp] theorem Chip.modLp_settling (c : Chip) (n : Nat) (f : Lp → Lp) : (c.modLp n f).settling = c.settling := rfl
@[simp] theorem Chip.modLp_evNow (c : Chip) (n : Nat) (f : Lp → Lp) : (c.modLp n f).evNow = c.evNow := rfl
@[simp] theorem Chip.modLp_evLast (c : Chip) (n : Nat) (f : Lp → Lp) : (c.modLp n f).evLast = c.evLast := rfl
@[simp] theorem Chip.modLp_cm (c : Chip) (n : Nat) (f : Lp → Lp) : (c.modLp n f).cm = c.cm := rfl
@[simp] theorem Chip.modLp_ports (c : Chip) (n : Nat) (f : Lp → Lp) : (c.modLp n f).ports = c.ports := rfl
@[simp] theorem Chip.modLp_tg (c : Chip) (n : Nat) (f : Lp → Lp) : (c.modLp n f).tg = c.tg := rfl
@[simp] theorem Chip.modLp_leaves (c : Chip) (n : Nat) (f : Lp → Lp) : (c.modLp n f).leaves = c.leaves := rfl
@[simp] theorem Chip.modLp_pots (c : Chip) (n : Nat) (f : Lp → Lp) : (c.modLp n f).pots = c.pots := rfl
@[simp] theorem Chip.modLp_cupSeq (c : Chip) (n : Nat) (f : Lp → Lp) : (c.modLp n f).cupSeq = c.cupSeq := rfl
@[simp] theorem Chip.modLp_segs (c : Chip) (n : Nat) (f : Lp → Lp) : (c.modLp n f).segs = c.segs := rfl
@[simp] theorem Chip.modLp_axes (c : Chip) (n : Nat) (f : Lp → Lp) : (c.modLp n f).axes = c.axes := rfl
@[simp] theorem Chip.modLp_grps (c : Chip) (n : Nat) (f : Lp → Lp) : (c.modLp n f).grps = c.grps := rfl
@[simp] theorem Chip.modLp_pubLog (c : Chip) (n : Nat) (f : Lp → Lp) : (c.modLp n f).pubLog = c.pubLog := rfl
@[simp] theorem Chip.modLp_sigUnread (c : Chip) (n : Nat) (f : Lp → Lp) : (c.modLp n f).sigUnread = c.sigUnread := rfl
@[simp] theorem Chip.modLp_src (c : Chip) (n : Nat) (f : Lp → Lp) : (c.modLp n f).src = c.src := rfl
@[simp] theorem Chip.modLp_pulses (c : Chip) (n : Nat) (f : Lp → Lp) : (c.modLp n f).pulses = c.pulses := rfl
@[simp] theorem Chip.modLp_pins (c : Chip) (n : Nat) (f : Lp → Lp) : (c.modLp n f).pins = c.pins := rfl
@[simp] theorem Chip.modLp_vsense (c : Chip) (n : Nat) (f : Lp → Lp) : (c.modLp n f).vsense = c.vsense := rfl
@[simp] theorem Chip.modLp_lfs (c : Chip) (n : Nat) (f : Lp → Lp) : (c.modLp n f).lfs = c.lfs := rfl
@[simp] theorem Chip.modLp_cus (c : Chip) (n : Nat) (f : Lp → Lp) : (c.modLp n f).cus = c.cus := rfl
@[simp] theorem Chip.modLp_drained (c : Chip) (n : Nat) (f : Lp → Lp) : (c.modLp n f).drained = c.drained := rfl
@[simp] theorem Chip.modLp_caddyFill (c : Chip) (n : Nat) (f : Lp → Lp) : (c.modLp n f).caddyFill = c.caddyFill := rfl
@[simp] theorem Chip.modLp_sfs (c : Chip) (n : Nat) (f : Lp → Lp) : (c.modLp n f).sfs = c.sfs := rfl
@[simp] theorem Chip.modLp_free (c : Chip) (n : Nat) (f : Lp → Lp) : (c.modLp n f).free = c.free := rfl
@[simp] theorem Chip.modLp_tray (c : Chip) (n : Nat) (f : Lp → Lp) : (c.modLp n f).tray = c.tray := rfl
@[simp] theorem Chip.modLp_stby (c : Chip) (n : Nat) (f : Lp → Lp) : (c.modLp n f).stby = c.stby := rfl
@[simp] theorem Chip.modLp_linkSeq (c : Chip) (n : Nat) (f : Lp → Lp) : (c.modLp n f).linkSeq = c.linkSeq := rfl
@[simp] theorem Chip.modLp_log (c : Chip) (n : Nat) (f : Lp → Lp) : (c.modLp n f).log = c.log := rfl
@[simp] theorem Chip.modLp_sramErr (c : Chip) (n : Nat) (f : Lp → Lp) : (c.modLp n f).sramErr = c.sramErr := rfl
@[simp] theorem Chip.modLp_rst (c : Chip) (n : Nat) (f : Lp → Lp) : (c.modLp n f).rst = c.rst := rfl
@[simp] theorem Chip.modLp_pcie (c : Chip) (n : Nat) (f : Lp → Lp) : (c.modLp n f).pcie = c.pcie := rfl
@[simp] theorem Chip.modLp_qspiErr (c : Chip) (n : Nat) (f : Lp → Lp) : (c.modLp n f).qspiErr = c.qspiErr := rfl
@[simp] theorem Chip.modLp_qspiWip (c : Chip) (n : Nat) (f : Lp → Lp) : (c.modLp n f).qspiWip = c.qspiWip := rfl
@[simp] theorem Chip.modLp_mgEnd (c : Chip) (n : Nat) (f : Lp → Lp) : (c.modLp n f).mgEnd = c.mgEnd := rfl
@[simp] theorem Chip.modLp_mgSpeed (c : Chip) (n : Nat) (f : Lp → Lp) : (c.modLp n f).mgSpeed = c.mgSpeed := rfl
@[simp] theorem Chip.modLp_dma (c : Chip) (n : Nat) (f : Lp → Lp) : (c.modLp n f).dma = c.dma := rfl
@[simp] theorem Chip.modLp_out (c : Chip) (n : Nat) (f : Lp → Lp) : (c.modLp n f).out = c.out := rfl

/-! `modAx` -/

@[simp] theorem Chip.modAx_regs (c : Chip) (n : Nat) (f : AxisSt → AxisSt) : (c.modAx n f).regs = c.regs := rfl
@[simp] theorem Chip.modAx_mem (c : Chip) (n : Nat) (f : AxisSt → AxisSt) : (c.modAx n f).mem = c.mem := rfl
@[simp] theorem Chip.modAx_ecc (c : Chip) (n : Nat) (f : AxisSt → AxisSt) : (c.modAx n f).ecc = c.ecc := rfl
@[simp] theorem Chip.modAx_fresh (c : Chip) (n : Nat) (f : AxisSt → AxisSt) : (c.modAx n f).fresh = c.fresh := rfl
@[simp] theorem Chip.modAx_settling (c : Chip) (n : Nat) (f : AxisSt → AxisSt) : (c.modAx n f).settling = c.settling := rfl
@[simp] theorem Chip.modAx_evNow (c : Chip) (n : Nat) (f : AxisSt → AxisSt) : (c.modAx n f).evNow = c.evNow := rfl
@[simp] theorem Chip.modAx_evLast (c : Chip) (n : Nat) (f : AxisSt → AxisSt) : (c.modAx n f).evLast = c.evLast := rfl
@[simp] theorem Chip.modAx_cm (c : Chip) (n : Nat) (f : AxisSt → AxisSt) : (c.modAx n f).cm = c.cm := rfl
@[simp] theorem Chip.modAx_ports (c : Chip) (n : Nat) (f : AxisSt → AxisSt) : (c.modAx n f).ports = c.ports := rfl
@[simp] theorem Chip.modAx_tg (c : Chip) (n : Nat) (f : AxisSt → AxisSt) : (c.modAx n f).tg = c.tg := rfl
@[simp] theorem Chip.modAx_leaves (c : Chip) (n : Nat) (f : AxisSt → AxisSt) : (c.modAx n f).leaves = c.leaves := rfl
@[simp] theorem Chip.modAx_pots (c : Chip) (n : Nat) (f : AxisSt → AxisSt) : (c.modAx n f).pots = c.pots := rfl
@[simp] theorem Chip.modAx_cupSeq (c : Chip) (n : Nat) (f : AxisSt → AxisSt) : (c.modAx n f).cupSeq = c.cupSeq := rfl
@[simp] theorem Chip.modAx_segs (c : Chip) (n : Nat) (f : AxisSt → AxisSt) : (c.modAx n f).segs = c.segs := rfl
@[simp] theorem Chip.modAx_lps (c : Chip) (n : Nat) (f : AxisSt → AxisSt) : (c.modAx n f).lps = c.lps := rfl
@[simp] theorem Chip.modAx_grps (c : Chip) (n : Nat) (f : AxisSt → AxisSt) : (c.modAx n f).grps = c.grps := rfl
@[simp] theorem Chip.modAx_pubLog (c : Chip) (n : Nat) (f : AxisSt → AxisSt) : (c.modAx n f).pubLog = c.pubLog := rfl
@[simp] theorem Chip.modAx_sigUnread (c : Chip) (n : Nat) (f : AxisSt → AxisSt) : (c.modAx n f).sigUnread = c.sigUnread := rfl
@[simp] theorem Chip.modAx_src (c : Chip) (n : Nat) (f : AxisSt → AxisSt) : (c.modAx n f).src = c.src := rfl
@[simp] theorem Chip.modAx_pulses (c : Chip) (n : Nat) (f : AxisSt → AxisSt) : (c.modAx n f).pulses = c.pulses := rfl
@[simp] theorem Chip.modAx_pins (c : Chip) (n : Nat) (f : AxisSt → AxisSt) : (c.modAx n f).pins = c.pins := rfl
@[simp] theorem Chip.modAx_vsense (c : Chip) (n : Nat) (f : AxisSt → AxisSt) : (c.modAx n f).vsense = c.vsense := rfl
@[simp] theorem Chip.modAx_lfs (c : Chip) (n : Nat) (f : AxisSt → AxisSt) : (c.modAx n f).lfs = c.lfs := rfl
@[simp] theorem Chip.modAx_cus (c : Chip) (n : Nat) (f : AxisSt → AxisSt) : (c.modAx n f).cus = c.cus := rfl
@[simp] theorem Chip.modAx_drained (c : Chip) (n : Nat) (f : AxisSt → AxisSt) : (c.modAx n f).drained = c.drained := rfl
@[simp] theorem Chip.modAx_caddyFill (c : Chip) (n : Nat) (f : AxisSt → AxisSt) : (c.modAx n f).caddyFill = c.caddyFill := rfl
@[simp] theorem Chip.modAx_sfs (c : Chip) (n : Nat) (f : AxisSt → AxisSt) : (c.modAx n f).sfs = c.sfs := rfl
@[simp] theorem Chip.modAx_free (c : Chip) (n : Nat) (f : AxisSt → AxisSt) : (c.modAx n f).free = c.free := rfl
@[simp] theorem Chip.modAx_tray (c : Chip) (n : Nat) (f : AxisSt → AxisSt) : (c.modAx n f).tray = c.tray := rfl
@[simp] theorem Chip.modAx_stby (c : Chip) (n : Nat) (f : AxisSt → AxisSt) : (c.modAx n f).stby = c.stby := rfl
@[simp] theorem Chip.modAx_linkSeq (c : Chip) (n : Nat) (f : AxisSt → AxisSt) : (c.modAx n f).linkSeq = c.linkSeq := rfl
@[simp] theorem Chip.modAx_log (c : Chip) (n : Nat) (f : AxisSt → AxisSt) : (c.modAx n f).log = c.log := rfl
@[simp] theorem Chip.modAx_sramErr (c : Chip) (n : Nat) (f : AxisSt → AxisSt) : (c.modAx n f).sramErr = c.sramErr := rfl
@[simp] theorem Chip.modAx_rst (c : Chip) (n : Nat) (f : AxisSt → AxisSt) : (c.modAx n f).rst = c.rst := rfl
@[simp] theorem Chip.modAx_pcie (c : Chip) (n : Nat) (f : AxisSt → AxisSt) : (c.modAx n f).pcie = c.pcie := rfl
@[simp] theorem Chip.modAx_qspiErr (c : Chip) (n : Nat) (f : AxisSt → AxisSt) : (c.modAx n f).qspiErr = c.qspiErr := rfl
@[simp] theorem Chip.modAx_qspiWip (c : Chip) (n : Nat) (f : AxisSt → AxisSt) : (c.modAx n f).qspiWip = c.qspiWip := rfl
@[simp] theorem Chip.modAx_mgEnd (c : Chip) (n : Nat) (f : AxisSt → AxisSt) : (c.modAx n f).mgEnd = c.mgEnd := rfl
@[simp] theorem Chip.modAx_mgSpeed (c : Chip) (n : Nat) (f : AxisSt → AxisSt) : (c.modAx n f).mgSpeed = c.mgSpeed := rfl
@[simp] theorem Chip.modAx_dma (c : Chip) (n : Nat) (f : AxisSt → AxisSt) : (c.modAx n f).dma = c.dma := rfl
@[simp] theorem Chip.modAx_out (c : Chip) (n : Nat) (f : AxisSt → AxisSt) : (c.modAx n f).out = c.out := rfl

/-! `modGrp` -/

@[simp] theorem Chip.modGrp_regs (c : Chip) (n : Nat) (f : Grp → Grp) : (c.modGrp n f).regs = c.regs := rfl
@[simp] theorem Chip.modGrp_mem (c : Chip) (n : Nat) (f : Grp → Grp) : (c.modGrp n f).mem = c.mem := rfl
@[simp] theorem Chip.modGrp_ecc (c : Chip) (n : Nat) (f : Grp → Grp) : (c.modGrp n f).ecc = c.ecc := rfl
@[simp] theorem Chip.modGrp_fresh (c : Chip) (n : Nat) (f : Grp → Grp) : (c.modGrp n f).fresh = c.fresh := rfl
@[simp] theorem Chip.modGrp_settling (c : Chip) (n : Nat) (f : Grp → Grp) : (c.modGrp n f).settling = c.settling := rfl
@[simp] theorem Chip.modGrp_evNow (c : Chip) (n : Nat) (f : Grp → Grp) : (c.modGrp n f).evNow = c.evNow := rfl
@[simp] theorem Chip.modGrp_evLast (c : Chip) (n : Nat) (f : Grp → Grp) : (c.modGrp n f).evLast = c.evLast := rfl
@[simp] theorem Chip.modGrp_cm (c : Chip) (n : Nat) (f : Grp → Grp) : (c.modGrp n f).cm = c.cm := rfl
@[simp] theorem Chip.modGrp_ports (c : Chip) (n : Nat) (f : Grp → Grp) : (c.modGrp n f).ports = c.ports := rfl
@[simp] theorem Chip.modGrp_tg (c : Chip) (n : Nat) (f : Grp → Grp) : (c.modGrp n f).tg = c.tg := rfl
@[simp] theorem Chip.modGrp_leaves (c : Chip) (n : Nat) (f : Grp → Grp) : (c.modGrp n f).leaves = c.leaves := rfl
@[simp] theorem Chip.modGrp_pots (c : Chip) (n : Nat) (f : Grp → Grp) : (c.modGrp n f).pots = c.pots := rfl
@[simp] theorem Chip.modGrp_cupSeq (c : Chip) (n : Nat) (f : Grp → Grp) : (c.modGrp n f).cupSeq = c.cupSeq := rfl
@[simp] theorem Chip.modGrp_segs (c : Chip) (n : Nat) (f : Grp → Grp) : (c.modGrp n f).segs = c.segs := rfl
@[simp] theorem Chip.modGrp_lps (c : Chip) (n : Nat) (f : Grp → Grp) : (c.modGrp n f).lps = c.lps := rfl
@[simp] theorem Chip.modGrp_axes (c : Chip) (n : Nat) (f : Grp → Grp) : (c.modGrp n f).axes = c.axes := rfl
@[simp] theorem Chip.modGrp_pubLog (c : Chip) (n : Nat) (f : Grp → Grp) : (c.modGrp n f).pubLog = c.pubLog := rfl
@[simp] theorem Chip.modGrp_sigUnread (c : Chip) (n : Nat) (f : Grp → Grp) : (c.modGrp n f).sigUnread = c.sigUnread := rfl
@[simp] theorem Chip.modGrp_src (c : Chip) (n : Nat) (f : Grp → Grp) : (c.modGrp n f).src = c.src := rfl
@[simp] theorem Chip.modGrp_pulses (c : Chip) (n : Nat) (f : Grp → Grp) : (c.modGrp n f).pulses = c.pulses := rfl
@[simp] theorem Chip.modGrp_pins (c : Chip) (n : Nat) (f : Grp → Grp) : (c.modGrp n f).pins = c.pins := rfl
@[simp] theorem Chip.modGrp_vsense (c : Chip) (n : Nat) (f : Grp → Grp) : (c.modGrp n f).vsense = c.vsense := rfl
@[simp] theorem Chip.modGrp_lfs (c : Chip) (n : Nat) (f : Grp → Grp) : (c.modGrp n f).lfs = c.lfs := rfl
@[simp] theorem Chip.modGrp_cus (c : Chip) (n : Nat) (f : Grp → Grp) : (c.modGrp n f).cus = c.cus := rfl
@[simp] theorem Chip.modGrp_drained (c : Chip) (n : Nat) (f : Grp → Grp) : (c.modGrp n f).drained = c.drained := rfl
@[simp] theorem Chip.modGrp_caddyFill (c : Chip) (n : Nat) (f : Grp → Grp) : (c.modGrp n f).caddyFill = c.caddyFill := rfl
@[simp] theorem Chip.modGrp_sfs (c : Chip) (n : Nat) (f : Grp → Grp) : (c.modGrp n f).sfs = c.sfs := rfl
@[simp] theorem Chip.modGrp_free (c : Chip) (n : Nat) (f : Grp → Grp) : (c.modGrp n f).free = c.free := rfl
@[simp] theorem Chip.modGrp_tray (c : Chip) (n : Nat) (f : Grp → Grp) : (c.modGrp n f).tray = c.tray := rfl
@[simp] theorem Chip.modGrp_stby (c : Chip) (n : Nat) (f : Grp → Grp) : (c.modGrp n f).stby = c.stby := rfl
@[simp] theorem Chip.modGrp_linkSeq (c : Chip) (n : Nat) (f : Grp → Grp) : (c.modGrp n f).linkSeq = c.linkSeq := rfl
@[simp] theorem Chip.modGrp_log (c : Chip) (n : Nat) (f : Grp → Grp) : (c.modGrp n f).log = c.log := rfl
@[simp] theorem Chip.modGrp_sramErr (c : Chip) (n : Nat) (f : Grp → Grp) : (c.modGrp n f).sramErr = c.sramErr := rfl
@[simp] theorem Chip.modGrp_rst (c : Chip) (n : Nat) (f : Grp → Grp) : (c.modGrp n f).rst = c.rst := rfl
@[simp] theorem Chip.modGrp_pcie (c : Chip) (n : Nat) (f : Grp → Grp) : (c.modGrp n f).pcie = c.pcie := rfl
@[simp] theorem Chip.modGrp_qspiErr (c : Chip) (n : Nat) (f : Grp → Grp) : (c.modGrp n f).qspiErr = c.qspiErr := rfl
@[simp] theorem Chip.modGrp_qspiWip (c : Chip) (n : Nat) (f : Grp → Grp) : (c.modGrp n f).qspiWip = c.qspiWip := rfl
@[simp] theorem Chip.modGrp_mgEnd (c : Chip) (n : Nat) (f : Grp → Grp) : (c.modGrp n f).mgEnd = c.mgEnd := rfl
@[simp] theorem Chip.modGrp_mgSpeed (c : Chip) (n : Nat) (f : Grp → Grp) : (c.modGrp n f).mgSpeed = c.mgSpeed := rfl
@[simp] theorem Chip.modGrp_dma (c : Chip) (n : Nat) (f : Grp → Grp) : (c.modGrp n f).dma = c.dma := rfl
@[simp] theorem Chip.modGrp_out (c : Chip) (n : Nat) (f : Grp → Grp) : (c.modGrp n f).out = c.out := rfl

/-! `modPin` -/

@[simp] theorem Chip.modPin_regs (c : Chip) (n : Nat) (f : Pin → Pin) : (c.modPin n f).regs = c.regs := rfl
@[simp] theorem Chip.modPin_mem (c : Chip) (n : Nat) (f : Pin → Pin) : (c.modPin n f).mem = c.mem := rfl
@[simp] theorem Chip.modPin_ecc (c : Chip) (n : Nat) (f : Pin → Pin) : (c.modPin n f).ecc = c.ecc := rfl
@[simp] theorem Chip.modPin_fresh (c : Chip) (n : Nat) (f : Pin → Pin) : (c.modPin n f).fresh = c.fresh := rfl
@[simp] theorem Chip.modPin_settling (c : Chip) (n : Nat) (f : Pin → Pin) : (c.modPin n f).settling = c.settling := rfl
@[simp] theorem Chip.modPin_evNow (c : Chip) (n : Nat) (f : Pin → Pin) : (c.modPin n f).evNow = c.evNow := rfl
@[simp] theorem Chip.modPin_evLast (c : Chip) (n : Nat) (f : Pin → Pin) : (c.modPin n f).evLast = c.evLast := rfl
@[simp] theorem Chip.modPin_cm (c : Chip) (n : Nat) (f : Pin → Pin) : (c.modPin n f).cm = c.cm := rfl
@[simp] theorem Chip.modPin_ports (c : Chip) (n : Nat) (f : Pin → Pin) : (c.modPin n f).ports = c.ports := rfl
@[simp] theorem Chip.modPin_tg (c : Chip) (n : Nat) (f : Pin → Pin) : (c.modPin n f).tg = c.tg := rfl
@[simp] theorem Chip.modPin_leaves (c : Chip) (n : Nat) (f : Pin → Pin) : (c.modPin n f).leaves = c.leaves := rfl
@[simp] theorem Chip.modPin_pots (c : Chip) (n : Nat) (f : Pin → Pin) : (c.modPin n f).pots = c.pots := rfl
@[simp] theorem Chip.modPin_cupSeq (c : Chip) (n : Nat) (f : Pin → Pin) : (c.modPin n f).cupSeq = c.cupSeq := rfl
@[simp] theorem Chip.modPin_segs (c : Chip) (n : Nat) (f : Pin → Pin) : (c.modPin n f).segs = c.segs := rfl
@[simp] theorem Chip.modPin_lps (c : Chip) (n : Nat) (f : Pin → Pin) : (c.modPin n f).lps = c.lps := rfl
@[simp] theorem Chip.modPin_axes (c : Chip) (n : Nat) (f : Pin → Pin) : (c.modPin n f).axes = c.axes := rfl
@[simp] theorem Chip.modPin_grps (c : Chip) (n : Nat) (f : Pin → Pin) : (c.modPin n f).grps = c.grps := rfl
@[simp] theorem Chip.modPin_pubLog (c : Chip) (n : Nat) (f : Pin → Pin) : (c.modPin n f).pubLog = c.pubLog := rfl
@[simp] theorem Chip.modPin_sigUnread (c : Chip) (n : Nat) (f : Pin → Pin) : (c.modPin n f).sigUnread = c.sigUnread := rfl
@[simp] theorem Chip.modPin_src (c : Chip) (n : Nat) (f : Pin → Pin) : (c.modPin n f).src = c.src := rfl
@[simp] theorem Chip.modPin_pulses (c : Chip) (n : Nat) (f : Pin → Pin) : (c.modPin n f).pulses = c.pulses := rfl
@[simp] theorem Chip.modPin_vsense (c : Chip) (n : Nat) (f : Pin → Pin) : (c.modPin n f).vsense = c.vsense := rfl
@[simp] theorem Chip.modPin_lfs (c : Chip) (n : Nat) (f : Pin → Pin) : (c.modPin n f).lfs = c.lfs := rfl
@[simp] theorem Chip.modPin_cus (c : Chip) (n : Nat) (f : Pin → Pin) : (c.modPin n f).cus = c.cus := rfl
@[simp] theorem Chip.modPin_drained (c : Chip) (n : Nat) (f : Pin → Pin) : (c.modPin n f).drained = c.drained := rfl
@[simp] theorem Chip.modPin_caddyFill (c : Chip) (n : Nat) (f : Pin → Pin) : (c.modPin n f).caddyFill = c.caddyFill := rfl
@[simp] theorem Chip.modPin_sfs (c : Chip) (n : Nat) (f : Pin → Pin) : (c.modPin n f).sfs = c.sfs := rfl
@[simp] theorem Chip.modPin_free (c : Chip) (n : Nat) (f : Pin → Pin) : (c.modPin n f).free = c.free := rfl
@[simp] theorem Chip.modPin_tray (c : Chip) (n : Nat) (f : Pin → Pin) : (c.modPin n f).tray = c.tray := rfl
@[simp] theorem Chip.modPin_stby (c : Chip) (n : Nat) (f : Pin → Pin) : (c.modPin n f).stby = c.stby := rfl
@[simp] theorem Chip.modPin_linkSeq (c : Chip) (n : Nat) (f : Pin → Pin) : (c.modPin n f).linkSeq = c.linkSeq := rfl
@[simp] theorem Chip.modPin_log (c : Chip) (n : Nat) (f : Pin → Pin) : (c.modPin n f).log = c.log := rfl
@[simp] theorem Chip.modPin_sramErr (c : Chip) (n : Nat) (f : Pin → Pin) : (c.modPin n f).sramErr = c.sramErr := rfl
@[simp] theorem Chip.modPin_rst (c : Chip) (n : Nat) (f : Pin → Pin) : (c.modPin n f).rst = c.rst := rfl
@[simp] theorem Chip.modPin_pcie (c : Chip) (n : Nat) (f : Pin → Pin) : (c.modPin n f).pcie = c.pcie := rfl
@[simp] theorem Chip.modPin_qspiErr (c : Chip) (n : Nat) (f : Pin → Pin) : (c.modPin n f).qspiErr = c.qspiErr := rfl
@[simp] theorem Chip.modPin_qspiWip (c : Chip) (n : Nat) (f : Pin → Pin) : (c.modPin n f).qspiWip = c.qspiWip := rfl
@[simp] theorem Chip.modPin_mgEnd (c : Chip) (n : Nat) (f : Pin → Pin) : (c.modPin n f).mgEnd = c.mgEnd := rfl
@[simp] theorem Chip.modPin_mgSpeed (c : Chip) (n : Nat) (f : Pin → Pin) : (c.modPin n f).mgSpeed = c.mgSpeed := rfl
@[simp] theorem Chip.modPin_dma (c : Chip) (n : Nat) (f : Pin → Pin) : (c.modPin n f).dma = c.dma := rfl
@[simp] theorem Chip.modPin_out (c : Chip) (n : Nat) (f : Pin → Pin) : (c.modPin n f).out = c.out := rfl

/-! `modLf` -/

@[simp] theorem Chip.modLf_regs (c : Chip) (n : Nat) (f : Lf → Lf) : (c.modLf n f).regs = c.regs := rfl
@[simp] theorem Chip.modLf_mem (c : Chip) (n : Nat) (f : Lf → Lf) : (c.modLf n f).mem = c.mem := rfl
@[simp] theorem Chip.modLf_ecc (c : Chip) (n : Nat) (f : Lf → Lf) : (c.modLf n f).ecc = c.ecc := rfl
@[simp] theorem Chip.modLf_fresh (c : Chip) (n : Nat) (f : Lf → Lf) : (c.modLf n f).fresh = c.fresh := rfl
@[simp] theorem Chip.modLf_settling (c : Chip) (n : Nat) (f : Lf → Lf) : (c.modLf n f).settling = c.settling := rfl
@[simp] theorem Chip.modLf_evNow (c : Chip) (n : Nat) (f : Lf → Lf) : (c.modLf n f).evNow = c.evNow := rfl
@[simp] theorem Chip.modLf_evLast (c : Chip) (n : Nat) (f : Lf → Lf) : (c.modLf n f).evLast = c.evLast := rfl
@[simp] theorem Chip.modLf_cm (c : Chip) (n : Nat) (f : Lf → Lf) : (c.modLf n f).cm = c.cm := rfl
@[simp] theorem Chip.modLf_ports (c : Chip) (n : Nat) (f : Lf → Lf) : (c.modLf n f).ports = c.ports := rfl
@[simp] theorem Chip.modLf_tg (c : Chip) (n : Nat) (f : Lf → Lf) : (c.modLf n f).tg = c.tg := rfl
@[simp] theorem Chip.modLf_leaves (c : Chip) (n : Nat) (f : Lf → Lf) : (c.modLf n f).leaves = c.leaves := rfl
@[simp] theorem Chip.modLf_pots (c : Chip) (n : Nat) (f : Lf → Lf) : (c.modLf n f).pots = c.pots := rfl
@[simp] theorem Chip.modLf_cupSeq (c : Chip) (n : Nat) (f : Lf → Lf) : (c.modLf n f).cupSeq = c.cupSeq := rfl
@[simp] theorem Chip.modLf_segs (c : Chip) (n : Nat) (f : Lf → Lf) : (c.modLf n f).segs = c.segs := rfl
@[simp] theorem Chip.modLf_lps (c : Chip) (n : Nat) (f : Lf → Lf) : (c.modLf n f).lps = c.lps := rfl
@[simp] theorem Chip.modLf_axes (c : Chip) (n : Nat) (f : Lf → Lf) : (c.modLf n f).axes = c.axes := rfl
@[simp] theorem Chip.modLf_grps (c : Chip) (n : Nat) (f : Lf → Lf) : (c.modLf n f).grps = c.grps := rfl
@[simp] theorem Chip.modLf_pubLog (c : Chip) (n : Nat) (f : Lf → Lf) : (c.modLf n f).pubLog = c.pubLog := rfl
@[simp] theorem Chip.modLf_sigUnread (c : Chip) (n : Nat) (f : Lf → Lf) : (c.modLf n f).sigUnread = c.sigUnread := rfl
@[simp] theorem Chip.modLf_src (c : Chip) (n : Nat) (f : Lf → Lf) : (c.modLf n f).src = c.src := rfl
@[simp] theorem Chip.modLf_pulses (c : Chip) (n : Nat) (f : Lf → Lf) : (c.modLf n f).pulses = c.pulses := rfl
@[simp] theorem Chip.modLf_pins (c : Chip) (n : Nat) (f : Lf → Lf) : (c.modLf n f).pins = c.pins := rfl
@[simp] theorem Chip.modLf_vsense (c : Chip) (n : Nat) (f : Lf → Lf) : (c.modLf n f).vsense = c.vsense := rfl
@[simp] theorem Chip.modLf_cus (c : Chip) (n : Nat) (f : Lf → Lf) : (c.modLf n f).cus = c.cus := rfl
@[simp] theorem Chip.modLf_drained (c : Chip) (n : Nat) (f : Lf → Lf) : (c.modLf n f).drained = c.drained := rfl
@[simp] theorem Chip.modLf_caddyFill (c : Chip) (n : Nat) (f : Lf → Lf) : (c.modLf n f).caddyFill = c.caddyFill := rfl
@[simp] theorem Chip.modLf_sfs (c : Chip) (n : Nat) (f : Lf → Lf) : (c.modLf n f).sfs = c.sfs := rfl
@[simp] theorem Chip.modLf_free (c : Chip) (n : Nat) (f : Lf → Lf) : (c.modLf n f).free = c.free := rfl
@[simp] theorem Chip.modLf_tray (c : Chip) (n : Nat) (f : Lf → Lf) : (c.modLf n f).tray = c.tray := rfl
@[simp] theorem Chip.modLf_stby (c : Chip) (n : Nat) (f : Lf → Lf) : (c.modLf n f).stby = c.stby := rfl
@[simp] theorem Chip.modLf_linkSeq (c : Chip) (n : Nat) (f : Lf → Lf) : (c.modLf n f).linkSeq = c.linkSeq := rfl
@[simp] theorem Chip.modLf_log (c : Chip) (n : Nat) (f : Lf → Lf) : (c.modLf n f).log = c.log := rfl
@[simp] theorem Chip.modLf_sramErr (c : Chip) (n : Nat) (f : Lf → Lf) : (c.modLf n f).sramErr = c.sramErr := rfl
@[simp] theorem Chip.modLf_rst (c : Chip) (n : Nat) (f : Lf → Lf) : (c.modLf n f).rst = c.rst := rfl
@[simp] theorem Chip.modLf_pcie (c : Chip) (n : Nat) (f : Lf → Lf) : (c.modLf n f).pcie = c.pcie := rfl
@[simp] theorem Chip.modLf_qspiErr (c : Chip) (n : Nat) (f : Lf → Lf) : (c.modLf n f).qspiErr = c.qspiErr := rfl
@[simp] theorem Chip.modLf_qspiWip (c : Chip) (n : Nat) (f : Lf → Lf) : (c.modLf n f).qspiWip = c.qspiWip := rfl
@[simp] theorem Chip.modLf_mgEnd (c : Chip) (n : Nat) (f : Lf → Lf) : (c.modLf n f).mgEnd = c.mgEnd := rfl
@[simp] theorem Chip.modLf_mgSpeed (c : Chip) (n : Nat) (f : Lf → Lf) : (c.modLf n f).mgSpeed = c.mgSpeed := rfl
@[simp] theorem Chip.modLf_dma (c : Chip) (n : Nat) (f : Lf → Lf) : (c.modLf n f).dma = c.dma := rfl
@[simp] theorem Chip.modLf_out (c : Chip) (n : Nat) (f : Lf → Lf) : (c.modLf n f).out = c.out := rfl

/-! `modCu` -/

@[simp] theorem Chip.modCu_regs (c : Chip) (n : Nat) (f : Cu → Cu) : (c.modCu n f).regs = c.regs := rfl
@[simp] theorem Chip.modCu_mem (c : Chip) (n : Nat) (f : Cu → Cu) : (c.modCu n f).mem = c.mem := rfl
@[simp] theorem Chip.modCu_ecc (c : Chip) (n : Nat) (f : Cu → Cu) : (c.modCu n f).ecc = c.ecc := rfl
@[simp] theorem Chip.modCu_fresh (c : Chip) (n : Nat) (f : Cu → Cu) : (c.modCu n f).fresh = c.fresh := rfl
@[simp] theorem Chip.modCu_settling (c : Chip) (n : Nat) (f : Cu → Cu) : (c.modCu n f).settling = c.settling := rfl
@[simp] theorem Chip.modCu_evNow (c : Chip) (n : Nat) (f : Cu → Cu) : (c.modCu n f).evNow = c.evNow := rfl
@[simp] theorem Chip.modCu_evLast (c : Chip) (n : Nat) (f : Cu → Cu) : (c.modCu n f).evLast = c.evLast := rfl
@[simp] theorem Chip.modCu_cm (c : Chip) (n : Nat) (f : Cu → Cu) : (c.modCu n f).cm = c.cm := rfl
@[simp] theorem Chip.modCu_ports (c : Chip) (n : Nat) (f : Cu → Cu) : (c.modCu n f).ports = c.ports := rfl
@[simp] theorem Chip.modCu_tg (c : Chip) (n : Nat) (f : Cu → Cu) : (c.modCu n f).tg = c.tg := rfl
@[simp] theorem Chip.modCu_leaves (c : Chip) (n : Nat) (f : Cu → Cu) : (c.modCu n f).leaves = c.leaves := rfl
@[simp] theorem Chip.modCu_pots (c : Chip) (n : Nat) (f : Cu → Cu) : (c.modCu n f).pots = c.pots := rfl
@[simp] theorem Chip.modCu_cupSeq (c : Chip) (n : Nat) (f : Cu → Cu) : (c.modCu n f).cupSeq = c.cupSeq := rfl
@[simp] theorem Chip.modCu_segs (c : Chip) (n : Nat) (f : Cu → Cu) : (c.modCu n f).segs = c.segs := rfl
@[simp] theorem Chip.modCu_lps (c : Chip) (n : Nat) (f : Cu → Cu) : (c.modCu n f).lps = c.lps := rfl
@[simp] theorem Chip.modCu_axes (c : Chip) (n : Nat) (f : Cu → Cu) : (c.modCu n f).axes = c.axes := rfl
@[simp] theorem Chip.modCu_grps (c : Chip) (n : Nat) (f : Cu → Cu) : (c.modCu n f).grps = c.grps := rfl
@[simp] theorem Chip.modCu_pubLog (c : Chip) (n : Nat) (f : Cu → Cu) : (c.modCu n f).pubLog = c.pubLog := rfl
@[simp] theorem Chip.modCu_sigUnread (c : Chip) (n : Nat) (f : Cu → Cu) : (c.modCu n f).sigUnread = c.sigUnread := rfl
@[simp] theorem Chip.modCu_src (c : Chip) (n : Nat) (f : Cu → Cu) : (c.modCu n f).src = c.src := rfl
@[simp] theorem Chip.modCu_pulses (c : Chip) (n : Nat) (f : Cu → Cu) : (c.modCu n f).pulses = c.pulses := rfl
@[simp] theorem Chip.modCu_pins (c : Chip) (n : Nat) (f : Cu → Cu) : (c.modCu n f).pins = c.pins := rfl
@[simp] theorem Chip.modCu_vsense (c : Chip) (n : Nat) (f : Cu → Cu) : (c.modCu n f).vsense = c.vsense := rfl
@[simp] theorem Chip.modCu_lfs (c : Chip) (n : Nat) (f : Cu → Cu) : (c.modCu n f).lfs = c.lfs := rfl
@[simp] theorem Chip.modCu_drained (c : Chip) (n : Nat) (f : Cu → Cu) : (c.modCu n f).drained = c.drained := rfl
@[simp] theorem Chip.modCu_caddyFill (c : Chip) (n : Nat) (f : Cu → Cu) : (c.modCu n f).caddyFill = c.caddyFill := rfl
@[simp] theorem Chip.modCu_sfs (c : Chip) (n : Nat) (f : Cu → Cu) : (c.modCu n f).sfs = c.sfs := rfl
@[simp] theorem Chip.modCu_free (c : Chip) (n : Nat) (f : Cu → Cu) : (c.modCu n f).free = c.free := rfl
@[simp] theorem Chip.modCu_tray (c : Chip) (n : Nat) (f : Cu → Cu) : (c.modCu n f).tray = c.tray := rfl
@[simp] theorem Chip.modCu_stby (c : Chip) (n : Nat) (f : Cu → Cu) : (c.modCu n f).stby = c.stby := rfl
@[simp] theorem Chip.modCu_linkSeq (c : Chip) (n : Nat) (f : Cu → Cu) : (c.modCu n f).linkSeq = c.linkSeq := rfl
@[simp] theorem Chip.modCu_log (c : Chip) (n : Nat) (f : Cu → Cu) : (c.modCu n f).log = c.log := rfl
@[simp] theorem Chip.modCu_sramErr (c : Chip) (n : Nat) (f : Cu → Cu) : (c.modCu n f).sramErr = c.sramErr := rfl
@[simp] theorem Chip.modCu_rst (c : Chip) (n : Nat) (f : Cu → Cu) : (c.modCu n f).rst = c.rst := rfl
@[simp] theorem Chip.modCu_pcie (c : Chip) (n : Nat) (f : Cu → Cu) : (c.modCu n f).pcie = c.pcie := rfl
@[simp] theorem Chip.modCu_qspiErr (c : Chip) (n : Nat) (f : Cu → Cu) : (c.modCu n f).qspiErr = c.qspiErr := rfl
@[simp] theorem Chip.modCu_qspiWip (c : Chip) (n : Nat) (f : Cu → Cu) : (c.modCu n f).qspiWip = c.qspiWip := rfl
@[simp] theorem Chip.modCu_mgEnd (c : Chip) (n : Nat) (f : Cu → Cu) : (c.modCu n f).mgEnd = c.mgEnd := rfl
@[simp] theorem Chip.modCu_mgSpeed (c : Chip) (n : Nat) (f : Cu → Cu) : (c.modCu n f).mgSpeed = c.mgSpeed := rfl
@[simp] theorem Chip.modCu_dma (c : Chip) (n : Nat) (f : Cu → Cu) : (c.modCu n f).dma = c.dma := rfl
@[simp] theorem Chip.modCu_out (c : Chip) (n : Nat) (f : Cu → Cu) : (c.modCu n f).out = c.out := rfl

/-! `modSf` -/

@[simp] theorem Chip.modSf_regs (c : Chip) (n : Nat) (f : Sf → Sf) : (c.modSf n f).regs = c.regs := rfl
@[simp] theorem Chip.modSf_mem (c : Chip) (n : Nat) (f : Sf → Sf) : (c.modSf n f).mem = c.mem := rfl
@[simp] theorem Chip.modSf_ecc (c : Chip) (n : Nat) (f : Sf → Sf) : (c.modSf n f).ecc = c.ecc := rfl
@[simp] theorem Chip.modSf_fresh (c : Chip) (n : Nat) (f : Sf → Sf) : (c.modSf n f).fresh = c.fresh := rfl
@[simp] theorem Chip.modSf_settling (c : Chip) (n : Nat) (f : Sf → Sf) : (c.modSf n f).settling = c.settling := rfl
@[simp] theorem Chip.modSf_evNow (c : Chip) (n : Nat) (f : Sf → Sf) : (c.modSf n f).evNow = c.evNow := rfl
@[simp] theorem Chip.modSf_evLast (c : Chip) (n : Nat) (f : Sf → Sf) : (c.modSf n f).evLast = c.evLast := rfl
@[simp] theorem Chip.modSf_cm (c : Chip) (n : Nat) (f : Sf → Sf) : (c.modSf n f).cm = c.cm := rfl
@[simp] theorem Chip.modSf_ports (c : Chip) (n : Nat) (f : Sf → Sf) : (c.modSf n f).ports = c.ports := rfl
@[simp] theorem Chip.modSf_tg (c : Chip) (n : Nat) (f : Sf → Sf) : (c.modSf n f).tg = c.tg := rfl
@[simp] theorem Chip.modSf_leaves (c : Chip) (n : Nat) (f : Sf → Sf) : (c.modSf n f).leaves = c.leaves := rfl
@[simp] theorem Chip.modSf_pots (c : Chip) (n : Nat) (f : Sf → Sf) : (c.modSf n f).pots = c.pots := rfl
@[simp] theorem Chip.modSf_cupSeq (c : Chip) (n : Nat) (f : Sf → Sf) : (c.modSf n f).cupSeq = c.cupSeq := rfl
@[simp] theorem Chip.modSf_segs (c : Chip) (n : Nat) (f : Sf → Sf) : (c.modSf n f).segs = c.segs := rfl
@[simp] theorem Chip.modSf_lps (c : Chip) (n : Nat) (f : Sf → Sf) : (c.modSf n f).lps = c.lps := rfl
@[simp] theorem Chip.modSf_axes (c : Chip) (n : Nat) (f : Sf → Sf) : (c.modSf n f).axes = c.axes := rfl
@[simp] theorem Chip.modSf_grps (c : Chip) (n : Nat) (f : Sf → Sf) : (c.modSf n f).grps = c.grps := rfl
@[simp] theorem Chip.modSf_pubLog (c : Chip) (n : Nat) (f : Sf → Sf) : (c.modSf n f).pubLog = c.pubLog := rfl
@[simp] theorem Chip.modSf_sigUnread (c : Chip) (n : Nat) (f : Sf → Sf) : (c.modSf n f).sigUnread = c.sigUnread := rfl
@[simp] theorem Chip.modSf_src (c : Chip) (n : Nat) (f : Sf → Sf) : (c.modSf n f).src = c.src := rfl
@[simp] theorem Chip.modSf_pulses (c : Chip) (n : Nat) (f : Sf → Sf) : (c.modSf n f).pulses = c.pulses := rfl
@[simp] theorem Chip.modSf_pins (c : Chip) (n : Nat) (f : Sf → Sf) : (c.modSf n f).pins = c.pins := rfl
@[simp] theorem Chip.modSf_vsense (c : Chip) (n : Nat) (f : Sf → Sf) : (c.modSf n f).vsense = c.vsense := rfl
@[simp] theorem Chip.modSf_lfs (c : Chip) (n : Nat) (f : Sf → Sf) : (c.modSf n f).lfs = c.lfs := rfl
@[simp] theorem Chip.modSf_cus (c : Chip) (n : Nat) (f : Sf → Sf) : (c.modSf n f).cus = c.cus := rfl
@[simp] theorem Chip.modSf_drained (c : Chip) (n : Nat) (f : Sf → Sf) : (c.modSf n f).drained = c.drained := rfl
@[simp] theorem Chip.modSf_caddyFill (c : Chip) (n : Nat) (f : Sf → Sf) : (c.modSf n f).caddyFill = c.caddyFill := rfl
@[simp] theorem Chip.modSf_free (c : Chip) (n : Nat) (f : Sf → Sf) : (c.modSf n f).free = c.free := rfl
@[simp] theorem Chip.modSf_tray (c : Chip) (n : Nat) (f : Sf → Sf) : (c.modSf n f).tray = c.tray := rfl
@[simp] theorem Chip.modSf_stby (c : Chip) (n : Nat) (f : Sf → Sf) : (c.modSf n f).stby = c.stby := rfl
@[simp] theorem Chip.modSf_linkSeq (c : Chip) (n : Nat) (f : Sf → Sf) : (c.modSf n f).linkSeq = c.linkSeq := rfl
@[simp] theorem Chip.modSf_log (c : Chip) (n : Nat) (f : Sf → Sf) : (c.modSf n f).log = c.log := rfl
@[simp] theorem Chip.modSf_sramErr (c : Chip) (n : Nat) (f : Sf → Sf) : (c.modSf n f).sramErr = c.sramErr := rfl
@[simp] theorem Chip.modSf_rst (c : Chip) (n : Nat) (f : Sf → Sf) : (c.modSf n f).rst = c.rst := rfl
@[simp] theorem Chip.modSf_pcie (c : Chip) (n : Nat) (f : Sf → Sf) : (c.modSf n f).pcie = c.pcie := rfl
@[simp] theorem Chip.modSf_qspiErr (c : Chip) (n : Nat) (f : Sf → Sf) : (c.modSf n f).qspiErr = c.qspiErr := rfl
@[simp] theorem Chip.modSf_qspiWip (c : Chip) (n : Nat) (f : Sf → Sf) : (c.modSf n f).qspiWip = c.qspiWip := rfl
@[simp] theorem Chip.modSf_mgEnd (c : Chip) (n : Nat) (f : Sf → Sf) : (c.modSf n f).mgEnd = c.mgEnd := rfl
@[simp] theorem Chip.modSf_mgSpeed (c : Chip) (n : Nat) (f : Sf → Sf) : (c.modSf n f).mgSpeed = c.mgSpeed := rfl
@[simp] theorem Chip.modSf_dma (c : Chip) (n : Nat) (f : Sf → Sf) : (c.modSf n f).dma = c.dma := rfl
@[simp] theorem Chip.modSf_out (c : Chip) (n : Nat) (f : Sf → Sf) : (c.modSf n f).out = c.out := rfl

/-! `raise` -/

@[simp] theorem Chip.raise_mem (c : Chip) (a : Nat) (m : Word) : (c.raise a m).mem = c.mem := rfl
@[simp] theorem Chip.raise_ecc (c : Chip) (a : Nat) (m : Word) : (c.raise a m).ecc = c.ecc := rfl
@[simp] theorem Chip.raise_settling (c : Chip) (a : Nat) (m : Word) : (c.raise a m).settling = c.settling := rfl
@[simp] theorem Chip.raise_evNow (c : Chip) (a : Nat) (m : Word) : (c.raise a m).evNow = c.evNow := rfl
@[simp] theorem Chip.raise_evLast (c : Chip) (a : Nat) (m : Word) : (c.raise a m).evLast = c.evLast := rfl
@[simp] theorem Chip.raise_cm (c : Chip) (a : Nat) (m : Word) : (c.raise a m).cm = c.cm := rfl
@[simp] theorem Chip.raise_ports (c : Chip) (a : Nat) (m : Word) : (c.raise a m).ports = c.ports := rfl
@[simp] theorem Chip.raise_tg (c : Chip) (a : Nat) (m : Word) : (c.raise a m).tg = c.tg := rfl
@[simp] theorem Chip.raise_leaves (c : Chip) (a : Nat) (m : Word) : (c.raise a m).leaves = c.leaves := rfl
@[simp] theorem Chip.raise_pots (c : Chip) (a : Nat) (m : Word) : (c.raise a m).pots = c.pots := rfl
@[simp] theorem Chip.raise_cupSeq (c : Chip) (a : Nat) (m : Word) : (c.raise a m).cupSeq = c.cupSeq := rfl
@[simp] theorem Chip.raise_segs (c : Chip) (a : Nat) (m : Word) : (c.raise a m).segs = c.segs := rfl
@[simp] theorem Chip.raise_lps (c : Chip) (a : Nat) (m : Word) : (c.raise a m).lps = c.lps := rfl
@[simp] theorem Chip.raise_axes (c : Chip) (a : Nat) (m : Word) : (c.raise a m).axes = c.axes := rfl
@[simp] theorem Chip.raise_grps (c : Chip) (a : Nat) (m : Word) : (c.raise a m).grps = c.grps := rfl
@[simp] theorem Chip.raise_pubLog (c : Chip) (a : Nat) (m : Word) : (c.raise a m).pubLog = c.pubLog := rfl
@[simp] theorem Chip.raise_sigUnread (c : Chip) (a : Nat) (m : Word) : (c.raise a m).sigUnread = c.sigUnread := rfl
@[simp] theorem Chip.raise_src (c : Chip) (a : Nat) (m : Word) : (c.raise a m).src = c.src := rfl
@[simp] theorem Chip.raise_pulses (c : Chip) (a : Nat) (m : Word) : (c.raise a m).pulses = c.pulses := rfl
@[simp] theorem Chip.raise_pins (c : Chip) (a : Nat) (m : Word) : (c.raise a m).pins = c.pins := rfl
@[simp] theorem Chip.raise_vsense (c : Chip) (a : Nat) (m : Word) : (c.raise a m).vsense = c.vsense := rfl
@[simp] theorem Chip.raise_lfs (c : Chip) (a : Nat) (m : Word) : (c.raise a m).lfs = c.lfs := rfl
@[simp] theorem Chip.raise_cus (c : Chip) (a : Nat) (m : Word) : (c.raise a m).cus = c.cus := rfl
@[simp] theorem Chip.raise_drained (c : Chip) (a : Nat) (m : Word) : (c.raise a m).drained = c.drained := rfl
@[simp] theorem Chip.raise_caddyFill (c : Chip) (a : Nat) (m : Word) : (c.raise a m).caddyFill = c.caddyFill := rfl
@[simp] theorem Chip.raise_sfs (c : Chip) (a : Nat) (m : Word) : (c.raise a m).sfs = c.sfs := rfl
@[simp] theorem Chip.raise_free (c : Chip) (a : Nat) (m : Word) : (c.raise a m).free = c.free := rfl
@[simp] theorem Chip.raise_tray (c : Chip) (a : Nat) (m : Word) : (c.raise a m).tray = c.tray := rfl
@[simp] theorem Chip.raise_stby (c : Chip) (a : Nat) (m : Word) : (c.raise a m).stby = c.stby := rfl
@[simp] theorem Chip.raise_linkSeq (c : Chip) (a : Nat) (m : Word) : (c.raise a m).linkSeq = c.linkSeq := rfl
@[simp] theorem Chip.raise_log (c : Chip) (a : Nat) (m : Word) : (c.raise a m).log = c.log := rfl
@[simp] theorem Chip.raise_sramErr (c : Chip) (a : Nat) (m : Word) : (c.raise a m).sramErr = c.sramErr := rfl
@[simp] theorem Chip.raise_rst (c : Chip) (a : Nat) (m : Word) : (c.raise a m).rst = c.rst := rfl
@[simp] theorem Chip.raise_pcie (c : Chip) (a : Nat) (m : Word) : (c.raise a m).pcie = c.pcie := rfl
@[simp] theorem Chip.raise_qspiErr (c : Chip) (a : Nat) (m : Word) : (c.raise a m).qspiErr = c.qspiErr := rfl
@[simp] theorem Chip.raise_qspiWip (c : Chip) (a : Nat) (m : Word) : (c.raise a m).qspiWip = c.qspiWip := rfl
@[simp] theorem Chip.raise_mgEnd (c : Chip) (a : Nat) (m : Word) : (c.raise a m).mgEnd = c.mgEnd := rfl
@[simp] theorem Chip.raise_mgSpeed (c : Chip) (a : Nat) (m : Word) : (c.raise a m).mgSpeed = c.mgSpeed := rfl
@[simp] theorem Chip.raise_dma (c : Chip) (a : Nat) (m : Word) : (c.raise a m).dma = c.dma := rfl
@[simp] theorem Chip.raise_out (c : Chip) (a : Nat) (m : Word) : (c.raise a m).out = c.out := rfl

/-! `evt` -/

@[simp] theorem Chip.evt_mem (c : Chip) (b i : Nat) : (c.evt b i).mem = c.mem := rfl
@[simp] theorem Chip.evt_ecc (c : Chip) (b i : Nat) : (c.evt b i).ecc = c.ecc := rfl
@[simp] theorem Chip.evt_settling (c : Chip) (b i : Nat) : (c.evt b i).settling = c.settling := rfl
@[simp] theorem Chip.evt_evNow (c : Chip) (b i : Nat) : (c.evt b i).evNow = c.evNow := rfl
@[simp] theorem Chip.evt_evLast (c : Chip) (b i : Nat) : (c.evt b i).evLast = c.evLast := rfl
@[simp] theorem Chip.evt_cm (c : Chip) (b i : Nat) : (c.evt b i).cm = c.cm := rfl
@[simp] theorem Chip.evt_ports (c : Chip) (b i : Nat) : (c.evt b i).ports = c.ports := rfl
@[simp] theorem Chip.evt_tg (c : Chip) (b i : Nat) : (c.evt b i).tg = c.tg := rfl
@[simp] theorem Chip.evt_leaves (c : Chip) (b i : Nat) : (c.evt b i).leaves = c.leaves := rfl
@[simp] theorem Chip.evt_pots (c : Chip) (b i : Nat) : (c.evt b i).pots = c.pots := rfl
@[simp] theorem Chip.evt_cupSeq (c : Chip) (b i : Nat) : (c.evt b i).cupSeq = c.cupSeq := rfl
@[simp] theorem Chip.evt_segs (c : Chip) (b i : Nat) : (c.evt b i).segs = c.segs := rfl
@[simp] theorem Chip.evt_lps (c : Chip) (b i : Nat) : (c.evt b i).lps = c.lps := rfl
@[simp] theorem Chip.evt_axes (c : Chip) (b i : Nat) : (c.evt b i).axes = c.axes := rfl
@[simp] theorem Chip.evt_grps (c : Chip) (b i : Nat) : (c.evt b i).grps = c.grps := rfl
@[simp] theorem Chip.evt_pubLog (c : Chip) (b i : Nat) : (c.evt b i).pubLog = c.pubLog := rfl
@[simp] theorem Chip.evt_sigUnread (c : Chip) (b i : Nat) : (c.evt b i).sigUnread = c.sigUnread := rfl
@[simp] theorem Chip.evt_src (c : Chip) (b i : Nat) : (c.evt b i).src = c.src := rfl
@[simp] theorem Chip.evt_pulses (c : Chip) (b i : Nat) : (c.evt b i).pulses = c.pulses := rfl
@[simp] theorem Chip.evt_pins (c : Chip) (b i : Nat) : (c.evt b i).pins = c.pins := rfl
@[simp] theorem Chip.evt_vsense (c : Chip) (b i : Nat) : (c.evt b i).vsense = c.vsense := rfl
@[simp] theorem Chip.evt_lfs (c : Chip) (b i : Nat) : (c.evt b i).lfs = c.lfs := rfl
@[simp] theorem Chip.evt_cus (c : Chip) (b i : Nat) : (c.evt b i).cus = c.cus := rfl
@[simp] theorem Chip.evt_drained (c : Chip) (b i : Nat) : (c.evt b i).drained = c.drained := rfl
@[simp] theorem Chip.evt_caddyFill (c : Chip) (b i : Nat) : (c.evt b i).caddyFill = c.caddyFill := rfl
@[simp] theorem Chip.evt_sfs (c : Chip) (b i : Nat) : (c.evt b i).sfs = c.sfs := rfl
@[simp] theorem Chip.evt_free (c : Chip) (b i : Nat) : (c.evt b i).free = c.free := rfl
@[simp] theorem Chip.evt_tray (c : Chip) (b i : Nat) : (c.evt b i).tray = c.tray := rfl
@[simp] theorem Chip.evt_stby (c : Chip) (b i : Nat) : (c.evt b i).stby = c.stby := rfl
@[simp] theorem Chip.evt_linkSeq (c : Chip) (b i : Nat) : (c.evt b i).linkSeq = c.linkSeq := rfl
@[simp] theorem Chip.evt_log (c : Chip) (b i : Nat) : (c.evt b i).log = c.log := rfl
@[simp] theorem Chip.evt_sramErr (c : Chip) (b i : Nat) : (c.evt b i).sramErr = c.sramErr := rfl
@[simp] theorem Chip.evt_rst (c : Chip) (b i : Nat) : (c.evt b i).rst = c.rst := rfl
@[simp] theorem Chip.evt_pcie (c : Chip) (b i : Nat) : (c.evt b i).pcie = c.pcie := rfl
@[simp] theorem Chip.evt_qspiErr (c : Chip) (b i : Nat) : (c.evt b i).qspiErr = c.qspiErr := rfl
@[simp] theorem Chip.evt_qspiWip (c : Chip) (b i : Nat) : (c.evt b i).qspiWip = c.qspiWip := rfl
@[simp] theorem Chip.evt_mgEnd (c : Chip) (b i : Nat) : (c.evt b i).mgEnd = c.mgEnd := rfl
@[simp] theorem Chip.evt_mgSpeed (c : Chip) (b i : Nat) : (c.evt b i).mgSpeed = c.mgSpeed := rfl
@[simp] theorem Chip.evt_dma (c : Chip) (b i : Nat) : (c.evt b i).dma = c.dma := rfl
@[simp] theorem Chip.evt_out (c : Chip) (b i : Nat) : (c.evt b i).out = c.out := rfl

end Sys2Proof.Machine
end

