-- ==== Sys2Proof/Laws/Tab.lean ====
section
/-!
SUPPORT. The laws of sparse tables: a read after a write, writes elsewhere, removal, and the canonical form.
-/

namespace Sys2Proof.Machine

variable {α : Type}

@[simp] theorem Tab.get_nil (d : Nat → α) (k : Nat) : Tab.get d [] k = d k := rfl

/-- A key that no entry has reads its default. -/
theorem Tab.get_of_not_mem (d : Nat → α) (t : Tab α) (k : Nat) (h : ∀ e ∈ t, e.1 ≠ k) : Tab.get d t k = d k := by
  induction t with
  | nil => rfl
  | cons e t ih =>
    obtain ⟨a, v⟩ := e
    have ha : k ≠ a := fun hk => h (a, v) (by simp) hk.symm
    simp only [Tab.get, if_neg ha]
    exact ih (fun e he => h e (by simp [he]))

/-- Removal gives the removed keys their defaults and leaves the others. -/
theorem Tab.get_drop (d : Nat → α) (t : Tab α) (p : Nat → Bool) (k : Nat) :
    Tab.get d (Tab.drop t p) k = if p k then d k else Tab.get d t k := by
  induction t with
  | nil => simp [Tab.drop, Tab.get]
  | cons e t ih =>
    obtain ⟨a, v⟩ := e
    simp only [Tab.drop] at ih ⊢
    by_cases hp : p a = true
    · simp only [List.filter, hp, Bool.not_true]
      rw [ih]
      by_cases hk : k = a
      · subst hk; simp [hp]
      · simp [Tab.get, hk]
    · simp only [Bool.not_eq_true] at hp
      simp only [List.filter, hp, Bool.not_false, Tab.get]
      by_cases hk : k = a
      · subst hk; simp [hp]
      · simp [hk, ih]

/-- Where no entry has the key, listing one makes the key read it and leaves the other keys. -/
theorem Tab.get_insert (d : Nat → α) (t : Tab α) (k : Nat) (v : α) (h : ∀ e ∈ t, e.1 ≠ k) (j : Nat) :
    Tab.get d (Tab.insert t k v) j = if j = k then v else Tab.get d t j := by
  induction t with
  | nil => simp [Tab.insert, Tab.get]
  | cons e t ih =>
    obtain ⟨a, w⟩ := e
    have ha : a ≠ k := h (a, w) (by simp)
    have ih := ih (fun e he => h e (by simp [he]))
    simp only [Tab.insert]
    split
    · simp [Tab.get]
    · simp only [Tab.get, ih]
      by_cases hj : j = a
      · subst hj; simp [ha]
      · simp [hj]

theorem Tab.not_mem_drop (t : Tab α) (k : Nat) : ∀ e ∈ Tab.drop t (fun a => decide (a = k)), e.1 ≠ k := by
  intro e he
  simpa [Tab.drop] using (List.mem_filter.mp he).2

variable [DecidableEq α]

/-- What a key reads after a write to a key. -/
theorem Tab.get_set (d : Nat → α) (t : Tab α) (k : Nat) (v : α) (j : Nat) :
    Tab.get d (Tab.set d t k v) j = if j = k then v else Tab.get d t j := by
  simp only [Tab.set]
  split
  · rename_i hv
    rw [Tab.get_drop]
    by_cases hj : j = k
    · subst hj; simp [hv]
    · simp [hj]
  · rw [Tab.get_insert d _ k v (Tab.not_mem_drop t k)]
    by_cases hj : j = k
    · simp [hj]
    · simp [hj, Tab.get_drop]

@[simp] theorem Tab.get_set_same (d : Nat → α) (t : Tab α) (k : Nat) (v : α) :
    Tab.get d (Tab.set d t k v) k = v := by simp [Tab.get_set]

theorem Tab.get_set_other (d : Nat → α) (t : Tab α) {k j : Nat} (v : α) (h : j ≠ k) :
    Tab.get d (Tab.set d t k v) j = Tab.get d t j := by simp [Tab.get_set, h]

omit [DecidableEq α] in
/-- What is entered at a key goes with the key. -/
theorem Tab.drop_insert (t : Tab α) (k : Nat) (v : α) :
    Tab.drop (Tab.insert t k v) (fun a => decide (a = k)) = Tab.drop t (fun a => decide (a = k)) := by
  induction t with
  | nil => simp [Tab.insert, Tab.drop]
  | cons e t ih =>
    simp only [Tab.insert]
    split
    · simp [Tab.drop]
    · simp only [Tab.drop, List.filter_cons] at ih ⊢
      rw [ih]

theorem Tab.drop_set (d : Nat → α) (t : Tab α) (k : Nat) (v : α) :
    Tab.drop (Tab.set d t k v) (fun a => decide (a = k)) = Tab.drop t (fun a => decide (a = k)) := by
  simp only [Tab.set]
  split
  · simp [Tab.drop]
  · rw [Tab.drop_insert]; simp [Tab.drop]

/-- Of two entries at one key the later stands. -/
@[simp] theorem Tab.set_set (d : Nat → α) (t : Tab α) (k : Nat) (v w : α) :
    Tab.set d (Tab.set d t k v) k w = Tab.set d t k w := by
  show (if w = d k then Tab.drop (Tab.set d t k v) _ else (Tab.drop (Tab.set d t k v) _).insert k w) = _
  rw [Tab.drop_set]; rfl

/-! ### The canonical form -/

/-- Below a bound that every key passes, the canonical form does not depend on the bound. -/
theorem Tab.okFrom_iff (d : Nat → α) (lo : Option Nat) (t : Tab α) :
    Tab.okFrom d lo t = true ↔
      (∀ l, lo = some l → ∀ e ∈ t, l < e.1) ∧ (∀ e ∈ t, e.2 ≠ d e.1) ∧ t.Pairwise (fun x y => x.1 < y.1) := by
  induction t generalizing lo with
  | nil => simp [Tab.okFrom]
  | cons e t ih =>
    obtain ⟨a, v⟩ := e
    simp only [Tab.okFrom, Bool.and_eq_true, ih, List.pairwise_cons, decide_eq_true_eq]
    cases lo with
    | none =>
      constructor
      · rintro ⟨⟨-, hv⟩, h1, h2, h3⟩
        refine ⟨by simp, ?_, h1 a rfl, h3⟩
        intro e he
        rcases List.mem_cons.mp he with rfl | he
        · exact hv
        · exact h2 e he
      · rintro ⟨-, h2, h3, h4⟩
        exact ⟨⟨rfl, h2 (a, v) (by simp)⟩, by simpa using h3, fun e he => h2 e (by simp [he]), h4⟩
    | some l =>
      simp only [decide_eq_true_eq, Option.some.injEq, forall_eq']
      constructor
      · rintro ⟨⟨hl, hv⟩, h1, h2, h3⟩
        refine ⟨?_, ?_, h1, h3⟩
        · intro e he
          rcases List.mem_cons.mp he with rfl | he
          · exact hl
          · exact Nat.lt_trans hl (h1 e he)
        · intro e he
          rcases List.mem_cons.mp he with rfl | he
          · exact hv
          · exact h2 e he
      · rintro ⟨h1, h2, h3, h4⟩
        exact ⟨⟨h1 (a, v) (by simp), h2 (a, v) (by simp)⟩, by simpa using h3, fun e he => h2 e (by simp [he]), h4⟩

theorem Tab.wf_iff (d : Nat → α) (t : Tab α) :
    Tab.wf d t = true ↔ (∀ e ∈ t, e.2 ≠ d e.1) ∧ t.Pairwise (fun x y => x.1 < y.1) := by
  simp [Tab.wf, Tab.okFrom_iff]

/-- Removal keeps the canonical form. -/
theorem Tab.wf_drop (d : Nat → α) (t : Tab α) (p : Nat → Bool) (h : Tab.wf d t = true) :
    Tab.wf d (Tab.drop t p) = true := by
  rw [Tab.wf_iff] at h ⊢
  exact ⟨fun e he => h.1 e (List.mem_filter.mp he).1, h.2.filter _⟩

theorem Tab.mem_insert (t : Tab α) (k : Nat) (v : α) (e : Nat × α) :
    e ∈ Tab.insert t k v ↔ e = (k, v) ∨ e ∈ t := by
  induction t with
  | nil => simp [Tab.insert]
  | cons f t ih =>
    obtain ⟨a, w⟩ := f
    simp only [Tab.insert]
    split
    · simp
    · simp only [List.mem_cons, ih]
      tauto

theorem Tab.pairwise_insert (t : Tab α) (k : Nat) (v : α) (hk : ∀ e ∈ t, e.1 ≠ k)
    (h : t.Pairwise (fun x y => x.1 < y.1)) : (Tab.insert t k v).Pairwise (fun x y => x.1 < y.1) := by
  induction t with
  | nil => simp [Tab.insert]
  | cons f t ih =>
    obtain ⟨a, w⟩ := f
    have ha : a ≠ k := hk (a, w) (by simp)
    rw [List.pairwise_cons] at h
    simp only [Tab.insert]
    split
    · rename_i hlt
      refine List.pairwise_cons.mpr ⟨?_, List.pairwise_cons.mpr h⟩
      intro e he
      rcases List.mem_cons.mp he with rfl | he
      · exact hlt
      · exact Nat.lt_trans hlt (h.1 e he)
    · rename_i hlt
      refine List.pairwise_cons.mpr ⟨?_, ih (fun e he => hk e (by simp [he])) h.2⟩
      intro e he
      rcases (Tab.mem_insert t k v e).mp he with rfl | he
      · show a < k; omega
      · exact h.1 e he

/-- A write keeps the canonical form. -/
theorem Tab.wf_set (d : Nat → α) (t : Tab α) (k : Nat) (v : α) (h : Tab.wf d t = true) :
    Tab.wf d (Tab.set d t k v) = true := by
  have hd := Tab.wf_drop d t (fun a => decide (a = k)) h
  simp only [Tab.set]
  split
  · exact hd
  · rename_i hv
    rw [Tab.wf_iff] at hd ⊢
    refine ⟨?_, Tab.pairwise_insert _ k v (Tab.not_mem_drop t k) hd.2⟩
    intro e he
    rcases (Tab.mem_insert _ k v e).mp he with rfl | he
    · exact hv
    · exact hd.1 e he

end Sys2Proof.Machine
end

