-- ==== Sys2Proof/Laws/Ops.lean ====
section
/-!
SUPPORT. What each shared operation does, once: registers, counters, memory, the arrays of units, the gate of a page and
the performance counters.
-/

namespace Sys2Proof.Machine

/-! ### Registers -/

theorem Chip.reg_setReg (c : Chip) (a : Nat) (v : Word) (b : Nat) :
    (c.setReg a v).reg b = if b = a then v else c.reg b := by
  simp [Chip.reg, Chip.setReg, Tab.get_set]

@[simp] theorem Chip.reg_setReg_same (c : Chip) (a : Nat) (v : Word) : (c.setReg a v).reg a = v := by
  simp [Chip.reg_setReg]

theorem Chip.reg_setReg_other (c : Chip) {a b : Nat} (v : Word) (h : b ≠ a) : (c.setReg a v).reg b = c.reg b := by
  simp [Chip.reg_setReg, h]

theorem Chip.reg_setN (c : Chip) (a v b : Nat) :
    (c.setN a v).reg b = if b = a then BitVec.ofNat 32 v else c.reg b := Chip.reg_setReg c a _ b

theorem Chip.reg_setI (c : Chip) (a : Nat) (v : Int) (b : Nat) :
    (c.setI a v).reg b = if b = a then wOf v else c.reg b := Chip.reg_setReg c a _ b

theorem Chip.reg_setF (c : Chip) (a hi lo v b : Nat) :
    (c.setF a hi lo v).reg b = if b = a then putFld (c.reg a) hi lo v else c.reg b := Chip.reg_setReg c a _ b

theorem Chip.reg_bumpBy (c : Chip) (a n b : Nat) :
    (c.bumpBy a n).reg b = if b = a then c.reg a + BitVec.ofNat 32 n else c.reg b := Chip.reg_setReg c a _ b

theorem Chip.reg_raise (c : Chip) (a : Nat) (m : Word) (b : Nat) :
    (c.raise a m).reg b = if b = a then c.reg a ||| m else c.reg b := Chip.reg_setReg c a _ b

theorem Chip.reg_evt (c : Chip) (p i b : Nat) :
    (c.evt p i).reg b = if b = pgEvtRaw p then c.reg (pgEvtRaw p) ||| oneBit i else c.reg b := Chip.reg_raise c _ _ b

theorem Chip.reg_w1c (c : Chip) (a : Nat) (m : Word) (b : Nat) :
    (c.w1c a m).reg b =
      if b = a then c.reg a &&& ~~~(m &&& ~~~(Tab.get (fun _ => 0#32) c.fresh a)) else c.reg b := Chip.reg_setReg c a _ b

theorem Chip.reg_setPair (c : Chip) (lo hi v b : Nat) :
    (c.setPair lo hi v).reg b =
      if b = hi then BitVec.ofNat 32 (v / 2 ^ 32) else if b = lo then BitVec.ofNat 32 v else c.reg b := by
  simp only [Chip.setPair, Chip.reg_setN]

/-! ### Memory -/

theorem Chip.byte_setByte (c : Chip) (a : Nat) (v : Byte) (x : Nat) :
    (c.setByte a v).byte x = if x = a then v else c.byte x := by
  simp [Chip.byte, Chip.setByte, Tab.get_set]

/-- What stands in memory after a run of bytes is stored. -/
theorem Chip.byte_setBytes (c : Chip) (a : Nat) (bs : List Byte) (x : Nat) :
    (c.setBytes a bs).byte x = if a ≤ x ∧ x < a + bs.length then bs.getD (x - a) 0#8 else c.byte x := by
  induction bs generalizing c a with
  | nil => simp only [Chip.setBytes, List.length_nil]; rw [if_neg]; omega
  | cons b bs ih =>
    rw [Chip.setBytes, ih, Chip.byte_setByte]
    by_cases h1 : x = a
    · subst h1
      rw [if_neg (by omega), if_pos rfl, if_pos (by simp)]
      simp
    · by_cases h2 : a + 1 ≤ x ∧ x < a + 1 + bs.length
      · have h3 : x - a = (x - (a + 1)) + 1 := by omega
        rw [if_pos h2, if_pos (by simp only [List.length_cons]; omega), h3, List.getD_cons_succ]
      · rw [if_neg h2, if_neg h1, if_neg (by simp only [List.length_cons]; omega)]

theorem leBytes_length (n v : Nat) : (leBytes n v).length = n := by
  induction n generalizing v with
  | zero => rfl
  | succ n ih => simp [leBytes, ih]

/-- A store leaves every byte outside it. -/
theorem Chip.storeLE_outside (c : Chip) (a n v : Nat) : MemOutside c (c.storeLE a n v) a n := by
  intro x hx
  rw [Chip.storeLE, Chip.byte_setBytes, leBytes_length, if_neg hx]

/-- Of the chip a run of stored bytes changes the memory only. -/
theorem Chip.setBytes_eq (c : Chip) (a : Nat) (bs : List Byte) : c.setBytes a bs = { c with mem := (c.setBytes a bs).mem } := by
  induction bs generalizing c a with
  | nil => rfl
  | cons b bs ih => rw [Chip.setBytes, ih]; rfl

theorem Chip.byte_fillZero (c : Chip) (a n x : Nat) :
    (c.fillZero a n).byte x = if a ≤ x ∧ x < a + n then 0#8 else c.byte x := by
  simp [Chip.byte, Chip.fillZero, Tab.get_drop]

theorem Chip.setByte_wf (c : Chip) (a : Nat) (v : Byte) (h : Memory.wf c.mem) : Memory.wf (c.setByte a v).mem :=
  Tab.wf_set _ _ a v h

theorem Chip.setBytes_wf (c : Chip) (a : Nat) (bs : List Byte) (h : Memory.wf c.mem) :
    Memory.wf (c.setBytes a bs).mem := by
  induction bs generalizing c a with
  | nil => exact h
  | cons b bs ih => exact ih (c.setByte a b) (a + 1) (Chip.setByte_wf c a b h)

theorem Chip.storeLE_wf (c : Chip) (a n v : Nat) (h : Memory.wf c.mem) : Memory.wf (c.storeLE a n v).mem :=
  Chip.setBytes_wf c a _ h

theorem Chip.fillZero_wf (c : Chip) (a n : Nat) (h : Memory.wf c.mem) : Memory.wf (c.fillZero a n).mem :=
  Tab.wf_drop (fun _ => 0#8) c.mem (fun k => decide (a ≤ k ∧ k < a + n)) h

theorem reset_mem_wf : Memory.wf State.reset.chip.mem = true := rfl

/-! ### Arrays of units -/

theorem Chip.leaf_setLeaf (c : Chip) (n : Nat) (l : Leaf) (m : Nat) :
    (c.setLeaf n l).leaf m = if m = n then l else c.leaf m := by simp [Chip.leaf, Chip.setLeaf, Tab.get_set]

theorem Chip.leaf_modLeaf (c : Chip) (n : Nat) (f : Leaf → Leaf) (m : Nat) :
    (c.modLeaf n f).leaf m = if m = n then f (c.leaf n) else c.leaf m := Chip.leaf_setLeaf c n _ m

@[simp] theorem Chip.leaf_modLeaf_same (c : Chip) (n : Nat) (f : Leaf → Leaf) : (c.modLeaf n f).leaf n = f (c.leaf n) := by
  simp [Chip.leaf_modLeaf]

theorem Chip.pot_modPot (c : Chip) (n : Nat) (f : Pot → Pot) (m : Nat) :
    (c.modPot n f).pot m = if m = n then f (c.pot n) else c.pot m := by
  simp [Chip.pot, Chip.modPot, Chip.setPot, Tab.get_set]

theorem Chip.seg_modSeg (c : Chip) (n : Nat) (f : Seg → Seg) (m : Nat) :
    (c.modSeg n f).seg m = if m = n then f (c.seg n) else c.seg m := by simp [Chip.seg, Chip.modSeg, Tab.get_set]

theorem Chip.lp_modLp (c : Chip) (n : Nat) (f : Lp → Lp) (m : Nat) :
    (c.modLp n f).lp m = if m = n then f (c.lp n) else c.lp m := by simp [Chip.lp, Chip.modLp, Tab.get_set]

theorem Chip.ax_modAx (c : Chip) (n : Nat) (f : AxisSt → AxisSt) (m : Nat) :
    (c.modAx n f).ax m = if m = n then f (c.ax n) else c.ax m := by simp [Chip.ax, Chip.modAx, Tab.get_set]

theorem Chip.grp_modGrp (c : Chip) (n : Nat) (f : Grp → Grp) (m : Nat) :
    (c.modGrp n f).grp m = if m = n then f (c.grp n) else c.grp m := by simp [Chip.grp, Chip.modGrp, Tab.get_set]

theorem Chip.pin_modPin (c : Chip) (n : Nat) (f : Pin → Pin) (m : Nat) :
    (c.modPin n f).pin m = if m = n then f (c.pin n) else c.pin m := by simp [Chip.pin, Chip.modPin, Tab.get_set]

theorem Chip.lf_modLf (c : Chip) (n : Nat) (f : Lf → Lf) (m : Nat) :
    (c.modLf n f).lf m = if m = n then f (c.lf n) else c.lf m := by simp [Chip.lf, Chip.modLf, Tab.get_set]

theorem Chip.cu_modCu (c : Chip) (n : Nat) (f : Cu → Cu) (m : Nat) :
    (c.modCu n f).cu m = if m = n then f (c.cu n) else c.cu m := by simp [Chip.cu, Chip.modCu, Tab.get_set]

theorem Chip.sf_modSf (c : Chip) (n : Nat) (f : Sf → Sf) (m : Nat) :
    (c.modSf n f).sf m = if m = n then f (c.sf n) else c.sf m := by simp [Chip.sf, Chip.modSf, Tab.get_set]

theorem Port.code_inj {p q : Port} (h : p.code = q.code) : p = q := by cases p <;> cases q <;> simp_all [Port.code]

theorem Chip.port_modPort (c : Chip) (p : Port) (f : PortState → PortState) (q : Port) :
    (c.modPort p f).port q = if q = p then f (c.port p) else c.port q := by
  by_cases h : q = p
  · subst h; simp [Chip.port, Chip.modPort]
  · have : q.code ≠ p.code := fun e => h (Port.code_inj e)
    simp [Chip.port, Chip.modPort, Tab.get_set, h, this]

/-! ### The gate of a page -/

/-- A write that reaches its register has its effect on the chip as it stood. -/
theorem Chip.gated_of_reaches {s : State} {p : Port} {a : Nat} (h : Reaches s p a) (f : Chip → Chip) :
    s.chip.gated p a f = f s.chip := by
  simp [Chip.gated, show s.chip.gate p a = (s.chip, true) from h]

theorem State.gated_of_reaches {s : State} {p : Port} {a : Nat} (h : Reaches s p a) (f : State → State) :
    s.gated p a f = f s := by
  simp [State.gated, show s.chip.gate p a = (s.chip, true) from h]

/-- The gate leaves the state of the chip beside its registers. -/
theorem Chip.gated_of_shut {c : Chip} {p : Port} {a : Nat} {d : Chip} (h : c.gate p a = (d, false)) (f : Chip → Chip) :
    c.gated p a f = d := by
  simp [Chip.gated, h]

/-! ### Nothing but registers -/

theorem OnlyRegs.refl (l : List Nat) (c : Chip) : OnlyRegs l c c := ⟨rfl, fun _ _ => rfl⟩

theorem OnlyRegs.trans {l : List Nat} {c d e : Chip} (h : OnlyRegs l c d) (k : OnlyRegs l d e) : OnlyRegs l c e := by
  refine ⟨?_, fun a ha => (k.2 a ha).trans (h.2 a ha)⟩
  rw [k.1, h.1]

theorem OnlyRegs.mono {l m : List Nat} {c d : Chip} (h : OnlyRegs l c d) (hm : ∀ a ∈ l, a ∈ m) : OnlyRegs m c d :=
  ⟨h.1, fun a ha => h.2 a (fun hl => ha (hm a hl))⟩

theorem Chip.setReg_onlyRegs (c : Chip) (a : Nat) (v : Word) : OnlyRegs [a] c (c.setReg a v) :=
  ⟨rfl, fun b hb => Chip.reg_setReg_other c v (by simpa using hb)⟩

theorem Chip.raise_onlyRegs (c : Chip) (a : Nat) (m : Word) : OnlyRegs [a] c (c.raise a m) :=
  ⟨rfl, fun b hb => Chip.reg_setReg_other c _ (by simpa using hb)⟩

theorem Chip.evt_onlyRegs (c : Chip) (p i : Nat) : OnlyRegs [pgEvtRaw p] c (c.evt p i) := Chip.raise_onlyRegs c _ _

theorem Chip.satUp_onlyRegs (c : Chip) (a : Nat) : OnlyRegs [a] c (c.satUp a) := by
  unfold Chip.satUp; split
  · exact OnlyRegs.refl _ _
  · exact Chip.setReg_onlyRegs c a _

/-- A trouble counter changes itself and the error count of its page (R59). -/
theorem Chip.trouble_onlyRegs (c : Chip) (a : Nat) : OnlyRegs [a, pgErrcnt (pageBase a)] c (c.trouble a) := by
  unfold Chip.trouble; split
  · exact OnlyRegs.refl _ _
  · exact ((Chip.setReg_onlyRegs c a _).mono (by simp)).trans ((Chip.satUp_onlyRegs _ _).mono (by simp))

/-- Whatever the gate of a page does, it changes registers only. -/
theorem Chip.gate_onlyRegs (c : Chip) (p : Port) (a : Nat) :
    OnlyRegs [HOSTIF.DOMAIN_OFF, pgErrcnt pgHostif, pgEvtRaw (pageBase a), pgErrcnt (pageBase a)] c (c.gate p a).1 := by
  unfold Chip.gate
  split
  · exact OnlyRegs.refl _ _
  · split
    · exact OnlyRegs.refl _ _
    · split
      · simp only
        split
        · exact (Chip.trouble_onlyRegs c _).mono (by simp [pageBase, HOSTIF.DOMAIN_OFF, pgHostif])
        · exact OnlyRegs.refl _ _
      · split
        · exact ((Chip.evt_onlyRegs c _ _).mono (by simp)).trans ((Chip.satUp_onlyRegs _ _).mono (by simp))
        · split <;> exact OnlyRegs.refl _ _

/-! ### Performance counters -/

theorem AlikeButPerf.refl (c : Chip) : AlikeButPerf c c := rfl

theorem AlikeButPerf.trans {c d e : Chip} (h : AlikeButPerf c d) (k : AlikeButPerf d e) : AlikeButPerf c e := by
  rw [AlikeButPerf, k, h]

/-- An event is noted beside the machine, whatever it is (R441). -/
theorem Chip.note_alike (c : Chip) (ev : Nat) (leaf : Option Nat) (n : Nat) : AlikeButPerf c (c.note ev leaf n) := by
  unfold Chip.note; split <;> rfl

/-- An event of Table 17.6 changes nothing else. -/
theorem Chip.perf_alike (c : Chip) (ev n : Nat) : AlikeButPerf c (c.perf ev n) := Chip.note_alike c ev none n

/-- An event of Table 17.5 changes nothing else. -/
theorem Chip.perfLeaf_alike (c : Chip) (l ev n : Nat) : AlikeButPerf c (c.perfLeaf l ev n) := Chip.note_alike c ev (some l) n

theorem AlikeButPerf.reg {c d : Chip} (h : AlikeButPerf c d) (a : Nat) : d.reg a = c.reg a := by rw [h]; rfl

theorem AlikeButPerf.leaf {c d : Chip} (h : AlikeButPerf c d) (m : Nat) : d.leaf m = c.leaf m := by
  rw [h]; rfl

theorem AlikeButPerf.mem {c d : Chip} (h : AlikeButPerf c d) : d.mem = c.mem := by rw [h]

end Sys2Proof.Machine
end

