-- ==== Sys2Proof/Laws/Leaf.lean ====
section
/-!
SUPPORT. What the issue of one slot instruction does: the Leaf changes as the instruction says and its slot is taken, nothing else of
the machine differs but performance counters, and the instruction completes with and without the end of its bundle.
-/

namespace Sys2Proof.Machine

/-- Of two changes of one Leaf the later works on what the earlier left. -/
@[simp] theorem Chip.modLeaf_setLeaf (c : Chip) (n : Nat) (l : Leaf) (f : Leaf → Leaf) :
    (c.setLeaf n l).modLeaf n f = c.setLeaf n (f l) := by
  have h : (c.setLeaf n l).leaf n = l := by simp [Chip.setLeaf, Chip.leaf]
  simp only [Chip.modLeaf, h]
  simp [Chip.setLeaf]

/-- Chips that differ in performance counters only still do so after one change of a Leaf. -/
theorem AlikeButPerf.modLeaf {c d : Chip} (h : AlikeButPerf c d) (n : Nat) (f : Leaf → Leaf) :
    AlikeButPerf (c.modLeaf n f) (d.modLeaf n f) := by
  unfold AlikeButPerf
  simp only [Chip.modLeaf, h.leaf n]
  rw [h]; rfl

/-- The issue of an instruction whose effect is `f` leaves what `f` leaves, with its slot taken, and counts. -/
theorem Chip.issue_alike (c : Chip) (n : Nat) (y w : Bool) (f : Chip → Chip)
    (h : (c.leaf n).canIssue = true) (hu : (c.leaf n).used y = false) :
    AlikeButPerf ((f c).modLeaf n (Leaf.use y)) (c.issue n y false w f) := by
  simp only [Chip.issue, h, hu, Bool.not_false, Bool.and_self, if_true, Bool.false_eq_true, if_false]
  exact (Chip.perfLeaf_alike _ _ _ _).modLeaf n _

/-- With the end of its bundle an instruction does what it does without it, and the bundle closes. -/
theorem Chip.issue_last (c : Chip) (n : Nat) (y w : Bool) (f : Chip → Chip)
    (h : (c.leaf n).canIssue = true) (hu : (c.leaf n).used y = false) :
    c.issue n y true w f = (c.issue n y false w f).closeBundle n := by
  simp [Chip.issue, h, hu]

/-- A slot that has its instruction takes no other (R100). -/
theorem Chip.issue_used (c : Chip) (n : Nat) (y last w : Bool) (f : Chip → Chip)
    (hu : (c.leaf n).used y = true) : c.issue n y last w f = c := by
  simp [Chip.issue, hu]

/-- An instruction completes with the Leaf as its effect leaves it. -/
theorem State.issue_issues (s : State) (n : Nat) (h : (s.chip.leaf n).canIssue = true) (y w : Bool) (f : Chip → Chip)
    (i : Bool → Instr) (hi : ∀ b, exec (i b) s = .next { s with chip := s.chip.issue n y b w f }) (l : Leaf)
    (hl : AlikeButPerf (s.chip.setLeaf n l) (f s.chip)) : Issues s n y i l := by
  refine ⟨fun hu => ⟨_, hi false, ⟨rfl, ?_⟩, ?_⟩, fun hu last => ?_⟩
  · have h1 := (hl.modLeaf n (Leaf.use y)).trans (Chip.issue_alike s.chip n y w f h hu)
    rwa [Chip.modLeaf_setLeaf] at h1
  · rw [hi true]
    simp only [State.onChip, Chip.issue_last _ _ _ _ _ h hu]
  · rw [hi last]
    simp only [Chip.issue_used _ _ _ _ _ _ hu]

/-- A slot X instruction with one effect completes with it. -/
theorem State.slot_issues (s : State) (n : Nat) (h : (s.chip.leaf n).canIssue = true) (f : Leaf → Leaf)
    (i : Bool → Instr) (hi : ∀ b, exec (i b) s = s.slot n b f) (l : Leaf) (hl : f (s.chip.leaf n) = l) : Issues s n false i l :=
  State.issue_issues s n h false false (fun c => c.modLeaf n f) i hi l (hl ▸ AlikeButPerf.refl _)

/-- An instruction that sets ILL in some cases completes with its effect in the others, and with ILL in those. -/
theorem State.slotOr_issues (s : State) (n : Nat) (h : (s.chip.leaf n).canIssue = true) (w : Leaf → Bool) (y : Bool)
    (f : Leaf → Leaf) (i : Bool → Instr) (hi : ∀ b, exec (i b) s = s.slotOr n b w y f) (l : Leaf)
    (hl : (if w (s.chip.leaf n) then (s.chip.leaf n).setFlags y flgILL else f (s.chip.leaf n)) = l) : Issues s n y i l :=
  State.issue_issues s n h y (w (s.chip.leaf n)) (fun c => c.modLeaf n (fun l => if w l then l.setFlags y flgILL else f l)) i hi l
    (hl ▸ AlikeButPerf.refl _)

/-- A memory instruction after which the Leaf runs on is issued as any other. -/
theorem Chip.issueMem_eq (c : Chip) (n : Nat) (last w : Bool) (f : Chip → Chip) (h : (c.leaf n).stays ((f c).leaf n) = true) :
    c.issueMem n last w f = c.issue n false last w f := by
  simp [Chip.issueMem, h]

/-- A slot Y instruction completes with its effect, or with ILL where its pair operand is odd. -/
theorem State.slotY_issues (s : State) (n : Nat) (h : (s.chip.leaf n).canIssue = true) (w : Bool) (k : Nat)
    (f : Leaf → Leaf) (i : Bool → Instr) (hi : ∀ b, exec (i b) s = s.slotY n b w k f) (l : Leaf)
    (hl : orIll w f (s.chip.leaf n) = l) : Issues s n true i l :=
  State.issue_issues s n h true w (fun c => (c.modLeaf n (orIll w f)).perfLeaf n 0x1B (if w then 0 else k)) i hi l
    (hl ▸ Chip.perfLeaf_alike _ _ _ _)

end Sys2Proof.Machine
end

