-- ==== Sys2Proof/Tests/Slice0.lean ====
section
/-!
SUPPORT. Tests: the ill-formed commands that `WellFormed` refuses, and for each statement, clause by clause, a state and operands that
meet its hypotheses, with what the command then does.
-/

namespace Sys2Proof.Tests

open Sys2Proof.Machine

set_option Elab.async false

/-! ### Helpers -/

/-- A command answers a next state that satisfies `P`. -/
def ok (s : State) (i : Instr) (P : State → Bool) : Bool := match exec i s with | .next t => P t | _ => false

/-- A command leaves the state as it is. -/
def same (s : State) (i : Instr) : Bool := ok s i (fun t => decide (t = s))

/-- A step answers a next state that satisfies `P`. -/
def stepOk (s : State) (P : State → Bool) : Bool := match step s with | .next t => P t | _ => false

/-- Two commands answer the same state. -/
def alike (s : State) (i j : Instr) : Bool := ok s i (fun t => ok s j (fun u => decide (t = u)))

/-- The page of an address satisfies `f`. -/
def onPg (a : Nat) (f : PageAt → Bool) : Bool := match pageAt a with | some q => f q | none => false

/-- A register given a value. -/
def wr (s : State) (a v : Nat) : State := s.onChip (fun c => c.setN a v)

/-- The chip with every domain on, its PLLs locked and the Kettle up. -/
def on : State :=
  (wr (wr State.reset PWR.DOM_ON 0xFFFF) PWR.DOM_REQ 0xFFFF).onChip (fun c =>
    { c with rst := { c.rst with kettleUp := true, unlocked := [] } })

/-- The chip with its tick running, at an instant of the commit window. -/
def run : State :=
  { on with
    chip := on.chip.modTg (fun t => { t with running := true, mode := 0, tickNo := 7#64, t0Fast := 1000#32 })
    tb := { on.tb with fast := 1100#32 } }

/-! ### The queue, the gate of a page, staging (statements 1 to 13) -/

/-- The queue: the front command runs on the rest. -/
theorem test_stepRunsFrontCommand :
    (alike { State.reset with pending := [] } (.chiprst) (.chiprst) ∧ stepOk { on with pending := [.nop 0 false, .por] } (fun t => t.pending = [.por])) ∧
    (stepOk State.reset (fun t => t.tb.up = 1 ∧ t.pending = [])) := by decide +kernel

/-- R61, R411: a page that is there, on and not locked; a locked one; one that settles; a domain that is off, for a host bus and for the Kettle; an absent instance. -/
theorem test_writeGate :
    ((List.range 512).all (fun k => onPg (0x1000 * k + 0x24) (fun q => State.reset.chip.locked (0x1000 * k) == decide (q.page.type ∈ [0x05, 0x06, 0x07, 0x0B, 0x0C])) || (pageAt (0x1000 * k + 0x24)).isNone) ∧ LocksOut (wr on (pgLock pgEvx) 0x80000000).chip .kettle EVX.LEN_LO = false) ∧
    (onPg EVX.LEN_LO (fun q => on.chip.absent q.page.type q.inst = false ∧ on.chip.domOn (pageDomain q.page.type) = true) ∧ on.chip.reach .pcie = true ∧ LocksOut on.chip .pcie EVX.LEN_LO = false ∧ on.chip.settling.contains (pageBase EVX.LEN_LO) = false ∧ Reaches on .pcie EVX.LEN_LO) ∧
    (LocksOut (wr on (pgLock pgEvx) 0x80000000).chip .pcie EVX.LEN_LO = true ∧ ok (wr on (pgLock pgEvx) 0x80000000) (.registerWrite .pcie EVX.LEN_LO 5#32) (fun t => EventSet t.chip pgEvx 30 ∧ t.chip.reg EVX.LEN_LO = 0#32 ∧ Counted on.chip t.chip (pgErrcnt pgEvx))) ∧
    (same (on.onChip (fun c => { c with settling := [pgEvx] })) (.registerWrite .pcie EVX.LEN_LO 5#32)) ∧
    (ok State.reset (.registerWrite .pcie EVX.LEN_LO 5#32) (fun t => t = State.reset.onChip (fun c => c.trouble HOSTIF.DOMAIN_OFF))) ∧
    (State.reset.chip.domOn 2 = false ∧ same (State.reset.onChip (fun c => { c with rst := { c.rst with kettleUp := true } })) (.registerWrite .kettle EVX.LEN_LO 5#32)) ∧
    (onPg (pgPot 4 + 0x40) (fun q => (wr on CHIP.CHIP_ID 0x01280000).chip.absent q.page.type q.inst) ∧ same (wr on CHIP.CHIP_ID 0x01280000) (.registerWrite .pcie (POT.ENTRY_FULL 4) 5#32)) := by decide +kernel

/-- R49, R432: RW fields take the value; a W1C bit clears. -/
theorem test_plainRegisterWrite :
    (onPg EVX.LEN_LO (fun q => q.page.type ∈ [0x06, 0x07, 0x0F, 0x18] ∧ 0x40 ≤ q.off ∧ maskOf (fldsAt q) (fun k => decide (k = .rwc)) = 0#32) ∧ Reaches on .qspi EVX.LEN_LO ∧ ok on (.registerWrite .qspi EVX.LEN_LO 5#32) (fun t => t.chip.reg EVX.LEN_LO = 5#32)) ∧
    (hasField EVX.LEVT_LO .w1c = true ∧ ok (wr on EVX.LEVT_LO 7) (.w1cWrite .pcie EVX.LEVT_LO 5#32) (fun t => t.chip.reg EVX.LEVT_LO = 2#32)) := by decide +kernel

/-- R63, R71: a write is staged; on an AUTO page it makes a unit. -/
theorem test_stagedWrite :
    (onPg (EVX.LINE 3) (fun q => q.page.type ∈ [0x0F, 0x18] ∧ maskOf (fldsAt q) (fun k => decide (k = .rwc)) ≠ 0#32 ∧ maskOf (fldsAt q) (fun k => decide (k = .rw ∨ k = .w1c)) = 0#32) ∧ Reaches on .pcie (EVX.LINE 3) ∧ on.chip.auto (pageBase (EVX.LINE 3)) = false ∧ ok on (.rwcWrite .pcie (EVX.LINE 3) 9#32) (fun t => t.chip.cm.staged = [(EVX.LINE 3, some 9#32)] ∧ t.chip.regs = on.chip.regs)) ∧
    ((wr on (pgCtrl pgEvx) 0x10).chip.auto (pageBase (EVX.LINE 3)) = true ∧ on.chip.stby.paired = false ∧ ok (wr on (pgCtrl pgEvx) 0x10) (.rwcWrite .pcie (EVX.LINE 3) 9#32) (fun t => t.chip.cm.units = [⟨.auto, false, 0, 0, 0#32, [(EVX.LINE 3, some 9#32)]⟩])) := by decide +kernel

/-- R51, R444: reads and writes of pairs. -/
theorem test_registerPairs_1 :
    (onPg TIME.SEC_LO (fun q => Reads on .pcie q TIME.SEC_LO ∧ pairLow q.page.type q.off = true) ∧ (pageAt (TIME.SEC_LO + 4)).isSome ∧ ok { on with tb := { on.tb with sec := 0x700000005#48 } } (.pairLowRead .pcie TIME.SEC_LO) (fun t => (t.chip.port .pcie).rdata = 5#32 ∧ t.chip.latched .pcie TIME.SEC_HI = some 7#32) ∧ on.chip.latched .pcie TIME.SEC_LO = none) ∧
    (onPg TIME.NS (fun q => Reads on .pcie q TIME.NS) ∧ ok { on with tb := { on.tb with sec := 0x700000005#48, ns := 9 } } (.pairLowRead .pcie TIME.NS) (fun t => (t.chip.port .pcie).rdata = 9#32 ∧ t.chip.latched .pcie TIME.SEC_LO = some 5#32 ∧ t.chip.latched .pcie TIME.SEC_HI = some 7#32)) ∧
    (onPg TIME.SEC_LO (fun q => Reads (on.onChip (fun c => c.latchHigh .pcie TIME.SEC_LO 4#32)) .pcie q TIME.SEC_LO) ∧ ok (on.onChip (fun c => c.latchHigh .pcie TIME.SEC_LO 4#32)) (.pairLowRead .pcie TIME.SEC_LO) (fun t => (t.chip.port .pcie).rdata = 4#32 ∧ t.chip.latched .pcie TIME.SEC_LO = none)) ∧
    (isPairWritable TIME.SET_SEC_LO = true ∧ Reaches on .pcie TIME.SET_SEC_LO ∧ ok on (.pairLowWrite .pcie TIME.SET_SEC_LO 4#32) (fun t => (t.chip.port .pcie).held = some (TIME.SET_SEC_LO, 4#32))) ∧
    (Reaches on .pcie TIME.SET_SEC_HI ∧ ok (on.onChip (fun c => c.holdLow .pcie TIME.SET_SEC_LO 4#32)) (.pairHighWrite .pcie TIME.SET_SEC_HI 0x50003#32) (fun t => t.chip.reg TIME.SET_SEC_LO = 4#32 ∧ t.chip.reg TIME.SET_SEC_HI = 3#32 ∧ (t.chip.port .pcie).held = none)) ∧
    (Reaches on .pcie TICK.TICK_NO_HI ∧ on.chip.noTick = true ∧ ok (on.onChip (fun c => c.holdLow .pcie TICK.TICK_NO_LO 4#32)) (.pairHighWrite .pcie TICK.TICK_NO_HI 5#32) (fun t => t.chip.tickNo = 0x500000004 ∧ t.chip.regs = on.chip.regs) ∧ run.chip.noTick = false ∧ ok (run.onChip (fun c => c.holdLow .pcie TICK.TICK_NO_LO 4#32)) (.pairHighWrite .pcie TICK.TICK_NO_HI 5#32) (fun t => t.chip.tg = run.chip.tg ∧ EventSet t.chip pgTick 10)) ∧
    (Reaches on .pcie (HOSTIF.RING_HI 4) ∧ ok (on.onChip (fun c => c.holdLow .pcie (HOSTIF.RING_LO 4) 0x1000#32)) (.pairHighWrite .pcie (HOSTIF.RING_HI 4) 5#32) (fun t => t.chip.reg (HOSTIF.RING_LO 4) = 0x1000#32 ∧ t.chip.reg (HOSTIF.RING_HI 4) = 5#32) ∧ ok (wr (on.onChip (fun c => c.holdLow .pcie (HOSTIF.RING_LO 4) 0x1000#32)) (HOSTIF.DMA_CFG 4) 0x80000000) (.pairHighWrite .pcie (HOSTIF.RING_HI 4) 5#32) (fun t => t.chip.reg (HOSTIF.RING_LO 4) = 0#32 ∧ t.chip.reg (HOSTIF.RING_HI 4) = 0#32 ∧ Counted on.chip t.chip (HOSTIF.ERR 4) ∧ EventSet t.chip pgHostif 12)) ∧
    (isPairWritable (TIME.SET_SEC_HI - 4) = true ∧ (on.chip.port .qspi).held = none ∧ ok on (.pairHighWrite .qspi TIME.SET_SEC_HI 3#32) (fun t => t = on.onChip (fun c => c.trouble HOSTIF.PARTIAL_WR))) := by decide +kernel

/-- R51, R444: reads and writes of pairs. -/
theorem test_registerPairs_2 :
    (onPg (CHIP.CCNT_LO 15) (fun q => Reads on .pcie q (CHIP.CCNT_LO 15)) ∧ on.chip.settling.contains 0 = false ∧ ok (wr (wr on (CHIP.CCNT_LO 15) 3) (CHIP.CCNT_HI 15) 4) (.pcntLoRead .pcie none 15) (fun t => (t.chip.port .pcie).rdata = 3#32 ∧ t.chip.latched .pcie (CHIP.CCNT_HI 15) = some 4#32)) ∧
    (onPg (LEAF.PCNT_LO 63 3) (fun q => Reads on .pcie q (LEAF.PCNT_LO 63 3)) ∧ ok (wr (wr on (LEAF.PCNT_LO 63 3) 3) (LEAF.PCNT_HI 63 3) 4) (.pcntLoRead .pcie (some 63) 3) (fun t => (t.chip.port .pcie).rdata = 3#32 ∧ t.chip.latched .pcie (LEAF.PCNT_HI 63 3) = some 4#32)) := by decide +kernel

/-- R49, R54, R59: an RC register, a trouble counter with and without ERR_RC, an unmapped address. -/
theorem test_clearingAndUnmappedReads :
    (on.chip.reach .pcie = true ∧ on.chip.domOn 1 = true ∧ ok (wr on CHIP.COMMIT_REF 9) (.rcRead .pcie CHIP.COMMIT_REF) (fun t => (t.chip.port .pcie).rdata = 9#32 ∧ t.chip.reg CHIP.COMMIT_REF = 0#32)) ∧
    (on.chip.domOn 2 = true ∧ on.chip.settling.contains pgTick = false ∧ ok (wr on TICK.MC_ABANDON 9) (.rcRead .pcie TICK.MC_ABANDON) (fun t => (t.chip.port .pcie).rdata = 9#32 ∧ t.chip.reg TICK.MC_ABANDON = 9#32) ∧ ok (wr (wr on TICK.MC_ABANDON 9) (pgCtrl pgTick) 0x20) (.rcRead .pcie TICK.MC_ABANDON) (fun t => t.chip.reg TICK.MC_ABANDON = 0#32)) ∧
    (onPg (POT.QLEN 7) (fun q => Reads on .pcie q (POT.QLEN 7) ∧ on.chip.rcMask q (pgPot 7) ≠ 0#32) ∧ ok (wr on (POT.QLEN 7) 0x120003) (.rcRead .pcie (POT.QLEN 7)) (fun t => t.chip.reg (POT.QLEN 7) = 3#32)) ∧
    (onPg (LP.LQ_LOWEST 31) (fun q => Reads on .pcie q (LP.LQ_LOWEST 31) ∧ on.chip.rcMask q (pgLp 31) ≠ 0#32) ∧ on.chip.hasLink 31 = false ∧ ok (wr on (LP.LQ_LOWEST 31) 3) (.rcRead .pcie (LP.LQ_LOWEST 31)) (fun t => (t.chip.port .pcie).rdata = 3#32 ∧ t.chip.reg (LP.LQ_LOWEST 31) = regReset (LP.LQ_LOWEST 31)) ∧ ok ((wr on (LP.LQ_LOWEST 31) 3).onChip (fun c => c.modLp 31 (fun l => { l with state := 4, lq := 6 }))) (.rcRead .pcie (LP.LQ_LOWEST 31)) (fun t => t.chip.rf (LP.LQ_LOWEST 31) 2 0 = 6)) ∧
    (onPg (POT.SLACK_MIN 0) (fun q => Reads on .pcie q (POT.SLACK_MIN 0) ∧ on.chip.rcMask q (pgPot 0) ≠ 0#32) ∧ ok (wr on (POT.SLACK_MIN 0) 5) (.rcRead .pcie (POT.SLACK_MIN 0)) (fun t => (t.chip.port .pcie).rdata = 5#32 ∧ t.chip.reg (POT.SLACK_MIN 0) = regReset (POT.SLACK_MIN 0))) ∧
    (zoneOf 0xF00000 = .unmapped ∧ ok on (.unmappedAccess .pcie 0xF00000 (some 1#32)) (fun t => Counted on.chip t.chip HOSTIF.UNMAPPED ∧ EventSet t.chip pgHostif 22) ∧ ok on (.unmappedAccess .pcie 0xF00000 none) (fun t => Counted on.chip t.chip HOSTIF.UNMAPPED)) := by decide +kernel

/-- R127, R128, R371: the debug window of a halted and of a running Leaf, and the Caddy window. -/
theorem test_memoryWindows :
    (ok (on.onChip (fun c => c.modLeaf 63 (fun l => { l with state := 1 }))) (.debugWindowWrite .pcie (0x1000000 + 63 * 0x8000 + 0x7FFC) 0x12345678#32) (fun t => t.chip.loadLE (0x1000000 + 63 * 0x8000 + 0x7FFC) 4 = 0x12345678 ∧ t.chip.mem.length = 4)) ∧
    (ok (on.onChip (fun c => c.modLeaf 0 (fun l => { l with state := 2 }))) (.debugWindowWrite .pcie 0x1000000 5#32) (fun t => t = (on.onChip (fun c => c.modLeaf 0 (fun l => { l with state := 2 }))).onChip (fun c => c.evt (pgLeaf 0) 4))) ∧
    (ok (on.onChip (fun c => (c.modLeaf 0 (fun l => { l with state := 1 })).storeLE 0x1000004 4 77)) (.debugWindowRead .pcie 0x1000004) (fun t => (t.chip.port .pcie).rdata = 77#32)) ∧
    (on.chip.domOn 3 = true ∧ on.chip.pageInUse (4 * 0x1FFFFF / 0x1000) = false ∧ ok on (.caddyWindowWrite .pcie (4 * 0x1FFFFF) 5#32) (fun t => t.chip.loadLE (0x400000 + 4 * 0x1FFFFF) 4 = 5)) ∧
    ((on.onChip (fun c => c.modCu 0 (fun u => { u with state := 1, alloc := (0, 1) }))).chip.pageInUse 0 = true ∧ ok (on.onChip (fun c => c.modCu 0 (fun u => { u with state := 1, alloc := (0, 1) }))) (.caddyWindowWrite .pcie 0 5#32) (fun t => t.chip.mem = [] ∧ EventSet t.chip (pgCu 0) 6)) := by decide +kernel

/-- Pot 7 is in RUN with its Leaves halted; Pot 0 has a running Leaf. -/
  def potsOn : State := on.onChip (fun c => { c with pots := [(0, { Pot.reset with state := 1 }), (7, { Pot.reset with state := 1 })], leaves := (List.range 8).map (fun i => (i, { Leaf.reset with state := if i = 3 then 2 else 1 })) ++ (List.range 8).map (fun i => (56 + i, { Leaf.reset with state := 1 })) })

/-- Word 0 of the shared memory of Pot 7 with an error of the kind given. -/
  def withEcc (two : Bool) : State := potsOn.onChip (fun c => { c.storeLE (potMem 7 0) 8 0x1122334455667788 with ecc := [(potMem 7 0, two)] })

/-- R128, R125, R178: the memories of a Pot through the debug window, written, refused, read, and with an error of each kind. -/
theorem test_potWindows :
    (ok potsOn (.debugWindowWrite .pcie (progMem 7 0x3FFFC) 0x12345678#32) (fun t => t.chip.loadLE (progMem 7 0x3FFFC) 4 = 0x12345678 ∧ t.chip.mem.length = 4) ∧ ok potsOn (.debugWindowWrite .pcie (potMem 7 0x7FFFC) 0x12345678#32) (fun t => t.chip.loadLE (potMem 7 0x7FFFC) 4 = 0x12345678)) ∧
    (ok potsOn (.debugWindowWrite .pcie (progMem 0 0) 5#32) (fun t => t = potsOn.onChip (fun c => c.evt (pgPot 0) 1)) ∧ ok on (.debugWindowWrite .pcie (potMem 1 0) 5#32) (fun t => t = on.onChip (fun c => c.evt (pgPot 1) 1))) ∧
    (ok potsOn (.debugWindowRead .pcie (potMem 7 0)) (fun t => (t.chip.port .pcie).rdata = 0#32) ∧ ok (withEcc false) (.debugWindowRead .pcie (potMem 7 4)) (fun t => (t.chip.port .pcie).rdata = 0x11223344#32 ∧ t.chip.ecc = [] ∧ Counted on.chip t.chip (POT.SMEM_CE 7)) ∧ ok (withEcc true) (.debugWindowRead .pcie (potMem 7 4)) (fun t => (t.chip.port .pcie).rdata = 0#32 ∧ (t.chip.pot 7).state = 2)) ∧
    (ok (withEcc false) (.debugWindowWrite .pcie (potMem 7 4) 5#32) (fun t => t.chip.ecc = [] ∧ t.chip.loadLE (potMem 7 0) 8 = 0x0000000555667788) ∧ ok (withEcc true) (.debugWindowWrite .pcie (potMem 7 4) 5#32) (fun t => t.chip.ecc = [] ∧ t.chip.loadLE (potMem 7 0) 8 = 0x0000000500000000)) := by decide +kernel

/-- R58, R60: PG_LOCK with its key and with another value; PG_EVT_SET. -/
theorem test_lockAndEventSet :
    (Reaches on .pcie (pgLock pgEvx) ∧ ok (wr on (pgLock pgEvx) 0x80000000) (.pgLockWrite .pcie pgEvx 0x5A17#32) (fun t => t.chip.reg (pgLock pgEvx) = 0#32) ∧ ok on (.pgLockWrite .pcie pgEvx 1#32) (fun t => t.chip.reg (pgLock pgEvx) = 0x80000000#32)) ∧
    ((pageAt (pgEvx + 0x18)).isSome ∧ Reaches on .pcie (pgEvx + 0x18) ∧ ok on (.pgEvtSetWrite .pcie pgTime 0xF#32) (fun t => t.chip.reg (pgEvtRaw pgTime) = 0xF#32)) := by decide +kernel

/-- R57: a soft reset that is accepted, one that is refused, and its settling. -/
theorem test_softReset :
    (Reaches on .pcie (pgCtrl pgEvx) ∧ (wr on (pgCtrl pgEvx) 0).chip.en pgEvx = false ∧ on.chip.hasCaptured pgEvx = false ∧ ok (wr (wr (wr on (pgCtrl pgEvx) 0) EVX.LEN_LO 5) (pgEvtRaw pgEvx) 1) (.srst .pcie pgEvx 2#32) (fun t => t.chip.reg EVX.LEN_LO = 0#32 ∧ t.chip.reg (pgEvtRaw pgEvx) = 0#32 ∧ t.chip.settling.contains pgEvx)) ∧
    (ok (wr (wr on (pgCtrl (pgEp 5)) 1) EVX.LEN_LO 5) (.srst .pcie (pgEp 5) 2#32) (fun t => EventSet t.chip (pgEp 5) 29 ∧ t.chip.settling = [])) ∧
    (Reaches on .pcie (pgCtrl (pgAxis 255)) ∧ ok (wr (wr on (pgCtrl (pgAxis 255)) 0) (AXIS.STAT 255) 5) (.srst .pcie (pgAxis 255) 2#32) (fun t => t.chip.settling.contains (pgAxis 255))) ∧
    (onPg (pgCtrl pgEvx) (fun h => h.page.staged) ∧ ok (wr on (pgCtrl pgEvx) 0) (.srst .pcie pgEvx 2#32) (fun t => t.chip.cm.units = [⟨.reset pgEvx, false, 0, 0, 0#32, []⟩]) ∧ ok (wr (wr on (pgCtrl (pgAxis 3)) 0) (AXIS.STAT 3) 0x80000000) (.srst .pcie (pgAxis 3) 2#32) (fun t => t.chip.reg (AXIS.STAT 3) = 0x80000000#32)) ∧
    (ok (on.onChip (fun c => { c with settling := [pgEvx, pgTick] })) (.srstSettle pgEvx) (fun t => t.chip.settling = [pgTick])) := by decide +kernel

/-- A chip with one staged write of group 3. -/
  def staged3 : State := (wr on (pgCtrl pgEvx) 0x300).onChip (fun c => c.modCm (fun m => { m with staged := [(EVX.LINE 3, some 9#32)] }))

/-- R62 to R66: a commit of a group, of an empty group, and GO on a page. -/
theorem test_commitCaptures :
    (Reaches staged3 .pcie CHIP.COMMIT ∧ staged3.chip.cgrp (pageBase (EVX.LINE 3)) = 3 ∧ staged3.chip.stby.paired = false ∧ ok staged3 (.commit .pcie 8#32) (fun t => t.chip.cm.staged = [] ∧ t.chip.cm.units = [⟨.group 3, false, 0, 0, 0#32, [(EVX.LINE 3, some 9#32)]⟩])) ∧
    (same staged3 (.commit .pcie 0x8000#32) ∧ Reaches staged3 .pcie (pgEvx + 0x1C) ∧ ok staged3 (.pgCommitGo .pcie pgEvx) (fun t => t.chip.cm.units = [⟨.group 3, false, 0, 0, 0#32, [(EVX.LINE 3, some 9#32)]⟩])) ∧
    (same staged3 (.pgCommitGo .pcie pgTick)) ∧
    (ok { run with chip := { run.chip with cm := staged3.chip.cm, regs := staged3.chip.regs } } (.commit .pcie 8#32) (fun t => (t.chip.cm.units.map (fun u => u.due)) = [1])) := by decide +kernel

/-- Beside it, a unit of the group that waits for the next T0. -/
  def joins3 : State := { run with chip := { run.chip with regs := staged3.chip.regs, cm := { staged3.chip.cm with units := [⟨.group 3, false, 1, 0, 0#32, [(EVX.LINE 3, some 1#32), (EVX.LINE 4, some 2#32)]⟩], seq := 1 } } }

/-- A unit of one write that applies without a tick. -/
  def idle1 : State := on.onChip (fun c => { c with cm := { c.cm with units := [⟨.auto, false, 0, 0, 0#32, [(POT.ENTRY_FULL 7, some 0x18005#32)]⟩] } })

/-- R66 to R72: a unit joined, a unit applied, a unit refused with STATE, none due. -/
theorem test_unitsJoinAndApply :
    (Reaches joins3 .pcie CHIP.COMMIT ∧ joins3.chip.dueNow joins3.tb = 1 ∧ ok joins3 (.commit .pcie 8#32) (fun t => t.chip.cm.units = [⟨.group 3, false, 1, 0, 0#32, [(EVX.LINE 3, some 9#32), (EVX.LINE 4, some 2#32)]⟩])) ∧
    (idle1.chip.tg.running = false ∧ idle1.chip.tg.start = none ∧ idle1.chip.isStandby = false ∧ ok idle1 .idleUnitApply (fun t => t.chip.cm.units = [] ∧ t.chip.reg (POT.ENTRY_FULL 7) = 5#32 ∧ t.chip.reg CHIP.COMMIT_OK = 1#32)) ∧
    (ok (idle1.onChip (fun c => c.modLeaf 63 (fun l => { l with state := 2 }))) .idleUnitApply (fun t => t.chip.cm.units = [] ∧ t.chip.reg (POT.ENTRY_FULL 7) = 0#32 ∧ t.chip.rf CHIP.COMMIT_LAST 31 28 = 3 ∧ t.chip.reg CHIP.REFUSE_ADDR = BitVec.ofNat 32 (POT.ENTRY_FULL 7) ∧ Counted on.chip t.chip CHIP.COMMIT_REF ∧ EventSet t.chip (pgPot 7) 31 ∧ EventSet t.chip pgChip 0)) ∧
    (same on .idleUnitApply ∧ same joins3 .idleUnitApply) := by decide +kernel

/-! ### Time and tick (statements 14 to 21) -/

/-- R76, R77, R79: ADDEND in its range, outside it, and by another port; SLEW added, clamped, ended by the other sign. -/
theorem test_rateAndSlew :
    (Reaches on .pcie TIME.ADDEND ∧ on.chip.lstate ≠ 4 ∧ on.chip.rf TIME.TIME_CTRL 5 4 = 0 ∧ ok on (.addendWrite .pcie 4294967#32) (fun t => t.tb.addendNow = 4294967 ∧ t.chip.reg TIME.ADDEND = 4294967#32) ∧ ok run (.addendWrite .pcie 5#32) (fun t => t.tb = run.tb)) ∧
    (ok on (.addendWrite .pcie 4294968#32) (fun t => t = on.onChip (fun c => c.evt pgTime 0)) ∧ ok on (.addendWrite .kettle 1#32) (fun t => t = on.onChip (fun c => c.evt pgTime 1))) ∧
    (Reaches on .pcie TIME.SLEW ∧ ok on (.slewWrite .pcie 1500000000#32) (fun t => t.tb.slewLeft = 1000000000) ∧ ok { on with tb := { on.tb with slewLeft := -5 } } (.slewWrite .pcie 5#32) (fun t => t.tb.slewLeft = 0 ∧ EventSet t.chip pgTime 2)) ∧
    (ok on (.slewWrite .kettle 5#32) (fun t => t = on.onChip (fun c => c.evt pgTime 1))) := by decide +kernel

/-- R78 to R80, R85: SET, SNAP, SRC, MARK and the two events. -/
theorem test_timeCommands :
    (Reaches on .pcie TIME.TIME_CTRL ∧ (wr on TIME.SET_NS 999999999).chip.rf TIME.SET_NS 29 0 ≤ 999999999 ∧ ok (wr (wr on TIME.SET_NS 999999999) TIME.SET_SEC_HI 1) (.timeSet .pcie 0#32) (fun t => t.tb.ns = 999999999 ∧ t.tb.sec = 0x100000000#48) ∧ ok (wr on TIME.SET_NS 7) (.timeSet .pcie 1#32) (fun t => t.tb = { on.tb with setDue := some (0#48, 7) })) ∧
    (ok run (.timeSet .pcie 1#32) (fun t => t.tb = run.tb ∧ EventSet t.chip pgTime 1) ∧ ok (wr on TIME.SET_NS 1000000000) (.timeSet .pcie 1#32) (fun t => t.tb = on.tb ∧ EventSet t.chip pgTime 1)) ∧
    (ok { run with tb := { run.tb with ns := 5, sec := 0x200000003#48 } } (.snap .pcie 2#32) (fun t => t.chip.reg TIME.SNAP_NS = 5#32 ∧ t.chip.reg TIME.SNAP_FAST = 1100#32 ∧ t.chip.reg TIME.SNAP_SEC_LO = 3#32 ∧ t.chip.reg TIME.SNAP_SEC_HI = 2#32 ∧ t.chip.reg TIME.SNAP_TICK_LO = 7#32 ∧ t.chip.reg TIME.SNAP_OFS = 100#32)) ∧
    (ok on (.srcWrite .pcie 0x10#32) (fun t => t.chip.rf TIME.TIME_CTRL 5 4 = 1)) ∧
    (Reaches on .pcie TIME.MARK ∧ ok run (.mark .pcie) (fun t => t.chip.reg TIME.MARK_FAST = 1100#32)) ∧
    (ok { on with tb := { on.tb with slewDue := true } } .slewDone (fun t => t = on.onChip (fun c => c.evt pgTime 2)) ∧ ok { on with tb := { on.tb with wrapDue := true } } .wrap (fun t => t = on.onChip (fun c => c.evt pgTime 3)) ∧ same on .slewDone ∧ same on .wrap) := by decide +kernel

/-- A counter that counts the cycles of the core. -/
  def counting : State := wr on (CHIP.CCNT_SEL 3) 0x80000080

/-- R75: a period with and without a carry, a slew, a carry into the seconds; a SET that waits; the second half of a period; a period without the core. -/
theorem test_clockPeriod :
    (stepOk { on with tb := { on.tb with setDue := some (5#48, 999999999) } } (fun t => t.tb.sec = 5#48 ∧ t.tb.ns = 999999999 ∧ t.tb.setDue = none) ∧ stepOk { on with tb := { on.tb with half := true } } (fun t => t.tb = on.tb ∧ t.ktl = on.ktl) ∧ stepOk { State.reset with tb := { State.reset.tb with half := true } } (fun t => t.tb = State.reset.tb ∧ t.chip = State.reset.chip)) ∧
    (on.pending = [] ∧ on.chip.domOn 2 = true ∧ on.chip.rst.held = [] ∧ stepOk { on with tb := { on.tb with ns := 999999999, frac := 0xFFFFFFFF#32, addendNow := 1 } } (fun t => t.tb.fast = 2#32 ∧ t.tb.ns = 1 ∧ t.tb.sec = 1#48 ∧ t.tb.frac = 0#32)) ∧
    (stepOk { on with tb := { on.tb with addendNow := -1 } } (fun t => t.tb.fast = 0#32 ∧ t.tb.frac = 0xFFFFFFFF#32)) ∧
    (stepOk { on with tb := { on.tb with slewLeft := -3, slewPhase := on.chip.slewS } } (fun t => t.tb.fast = 0#32 ∧ t.tb.slewLeft = -2) ∧ stepOk { on with tb := { on.tb with slewLeft := 3, slewPhase := on.chip.slewS } } (fun t => t.tb.fast = 2#32 ∧ t.tb.slewLeft = 2) ∧ stepOk { on with tb := { on.tb with slewLeft := 3, slewPhase := 0 } } (fun t => t.tb.fast = 1#32 ∧ t.tb.slewLeft = 3)) ∧
    (State.reset.chip.domOn 2 = false ∧ stepOk State.reset (fun t => t.tb = { State.reset.tb with cycle := 1, up := 1, half := true } ∧ t.chip = { State.reset.chip with fresh := [], evLast := t.chip.evLast })) ∧
    (counting.chip.domOn 1 = true ∧ counting.chip.live = true ∧ stepOk counting (fun t => t.chip.reg (CHIP.CCNT_LO 3) = 1#32) ∧ stepOk (wr counting CHIP.PCTL 1) (fun t => t.chip.reg (CHIP.CCNT_LO 3) = 0#32) ∧ stepOk (wr on (CHIP.CCNT_SEL 3) 0xA0000080) (fun t => t.chip.reg (CHIP.CCNT_LO 3) = 0#32) ∧ stepOk (wr (wr run (CHIP.CCNT_SEL 3) 0xA0000080) CHIP.PGATE_CLOSE 101) (fun t => t.chip.reg (CHIP.CCNT_LO 3) = 1#32) ∧ stepOk (wr (wr run (CHIP.CCNT_SEL 3) 0xA0000080) CHIP.PGATE_CLOSE 100) (fun t => t.chip.reg (CHIP.CCNT_LO 3) = 0#32)) := by decide +kernel

def ready : State := on

def ticks : State :=
  { ready with chip := ready.chip.modTg (fun t => { t with running := true, mode := 1, tickNo := 7#64, t0Fast := 1000#32 }), tb := { ready.tb with fast := 2000#32 } }

/-- R90: a start accepted, refused, a stop withdrawn, a stop, a start withdrawn. -/
theorem test_startAndStop :
    (Reaches ready .pcie TICK.TICK_CTRL ∧ ready.chip.rb (TICK.MODE_STAT 1) 31 = true ∧ (List.range 16).all (fun g => !ready.chip.en (pgSeg g) || ready.chip.modeValid 1 g) = true ∧ ok ready (.runStart .pcie 1) (fun t => t.chip.tg.start = some 1000#32 ∧ t.chip.tg.startMode = 1 ∧ t.chip.rb TICK.TICK_CTRL 31 = true)) ∧
    (ok (wr on (TICK.MODE_STAT 3) 0) (.runStart .pcie 3) (fun t => t.chip.tg = on.chip.tg ∧ EventSet t.chip pgTick 8)) ∧
    (ok (ticks.onChip (fun c => c.modTg (fun t => { t with stopReq := true }))) (.runStart .pcie 1) (fun t => t.chip.tg.stopReq = false ∧ t.chip.rb TICK.TICK_CTRL 31 = true)) ∧
    (ok ticks (.runStop .pcie 1) (fun t => t.chip.tg.stopReq = true)) ∧
    (same ticks (.runStart .pcie 1) ∧ same (ready.onChip (fun c => c.modTg (fun t => { t with start := some 5#32 }))) (.runStart .pcie 1) ∧ same ready (.runStop .pcie 1)) ∧
    (ok (idle1.onChip (fun c => c.modTg (fun t => { t with start := some 5#32 }))) (.runStop .pcie 1) (fun t => t.chip.tg.start = none ∧ t.chip.cm.units.length = 1)) := by decide +kernel

/-- R89, R90: the TICK_NO pair and a word of a mode set. -/
theorem test_tickRegisters :
    (Reaches on .pcie TICK.TICK_NO_HI ∧ ok on (.tickNoWrite .pcie 0x500000006#64) (fun t => t.chip.tg.tickNo = 0x500000006#64) ∧ ok run (.tickNoWrite .pcie 6#64) (fun t => t.chip.tg = run.chip.tg ∧ EventSet t.chip pgTick 10)) ∧
    (Reaches ready .pcie (TICK.MODE_GATHER_OFS 1) ∧ ready.chip.modeBusy 1 = false ∧ ok ready (.modeSetWrite .pcie 1 1 2000#32) (fun t => t.chip.reg (TICK.MODE_GATHER_OFS 1) = 2000#32 ∧ t.chip.rb (TICK.MODE_STAT 1) 31 = true) ∧ ok ready (.modeSetWrite .pcie 1 1 2004#32) (fun t => t.chip.rb (TICK.MODE_STAT 1) 31 = false)) ∧
    (ticks.chip.modeBusy 1 = true ∧ ok ticks (.modeSetWrite .pcie 1 5 0#32) (fun t => t = ticks.onChip (fun c => c.evt pgTick 9)) ∧ same ticks (.modeSetWrite .pcie 1 7 0#32)) := by decide +kernel

/-- R306, R310: a request that becomes pending, one for the mode in force, an abandonment. -/
theorem test_modeChangeRequests :
    (Reaches ticks .pcie TICK.MC_CTRL ∧ ticks.chip.stby.paired = false ∧ ticks.chip.modeOk 2 = true ∧ ticks.chip.runSegs.all (fun g => ticks.chip.modeValid 2 g) = true ∧ ticks.chip.anyCycle4 2 = false ∧ ticks.chip.lstate ≠ 4 ∧ ok (wr ticks TICK.MC_TICK_LO 11) (.mcGo .pcie 2 3) (fun t => t.chip.tg.change = some ⟨2, 11#64, 3, false, false⟩ ∧ t.chip.rf TICK.MC_STAT 31 28 = 1)) ∧
    (ok ticks (.mcGo .pcie 1 3) (fun t => t.chip.tg = ticks.chip.tg ∧ t.chip.rf TICK.MC_STAT 31 28 = 4 ∧ t.chip.rf TICK.MC_STAT 27 24 = 4 ∧ EventSet t.chip pgTick 12)) ∧
    (ok (ticks.onChip (fun c => c.modTg (fun t => { t with change := some ⟨2, 11#64, 3, false, false⟩ }))) (.mcGo .pcie 3 3) (fun t => t.chip.tg.change = some ⟨2, 11#64, 3, false, false⟩ ∧ t.chip.rf TICK.MC_STAT 27 24 = 3 ∧ t.chip.rf TICK.MC_STAT 2 0 = 3 ∧ Counted ticks.chip t.chip TICK.MC_ABANDON)) ∧
    (ok (ticks.onChip (fun c => c.modTg (fun t => { t with change := some ⟨2, 11#64, 3, false, false⟩ }))) (.mcAbort .pcie 2 3) (fun t => t.chip.tg.change = none ∧ t.chip.rf TICK.MC_STAT 27 24 = 7)) := by decide +kernel

/-- The chip `ticks` at an offset from its T0. -/
  def ticksAt (o : Nat) : State := { ticks with tb := { ticks.tb with fast := BitVec.ofNat 32 (1000 + o) } }

/-- R76, R90, R91: the next T0, the first T0, and one that is not due. -/
theorem test_ticksBegin :
    ((ticksAt 31250).chip.period = 31250 ∧ ticks.chip.isStandby = false ∧ ok (wr (ticksAt 31250) TIME.ADDEND 1000) .t0 (fun t => t.tb.addendNow = 430 ∧  t.chip.tg.tickNo = 8#64 ∧ t.chip.tg.t0Fast = 32250#32)) ∧
    (ok { ready with chip := ready.chip.modTg (fun t => { t with start := some 1000#32, startMode := 1, tickNo := 9#64 }), tb := { ready.tb with fast := 1000#32 } } .t0 (fun t => t.chip.tg.running = true ∧ t.chip.tg.start = none ∧ t.chip.tg.tickNo = 9#64 ∧ t.chip.tg.t0Fast = 1000#32)) ∧
    (same (ticksAt 31249) .t0 ∧ ok { ticksAt 31250 with tb := { (ticksAt 31250).tb with keep := true } } .t0 (fun t => t.tb.addendNow = 0 ∧ t.tb.keep = true)) := by decide +kernel

/-- R90, R92: the end of a stopped tick; an armed cycle point. -/
theorem test_ticksEndAndCyclePoints :
    (ok ((ticksAt 31250).onChip (fun c => c.modTg (fun t => { t with stopReq := true }))) .tickStop (fun t => t.chip.tg.running = false ∧ t.chip.tg.tickNo = 8#64) ∧ same (ticksAt 31249) .tickStop) ∧
    (ok ((wr (ticksAt 500) (TICK.CP 7) 0x800001F4).onChip (fun c => c.modTg (fun t => { t with cpArmed := [7] }))) (.cyclePoint 7) (fun t => t.chip.tg.cpArmed = [] ∧ EventSet t.chip pgTick 7 ∧ t.chip.srcLevel 0x37 = true) ∧ same ticks (.cyclePoint 7)) := by decide +kernel

/-! ### Leaves (statements 22 to 37) -/

/-- A cup of axis 3 at home in Pot 0. -/
  def cup3 : Cup := ⟨3, 0, 0, 0, 0, 7#64, .plain, 1000#32, 1000#32, 17000, false, [], [], [], 0⟩

/-- A Leaf in a cup, with `g2` to `g7` and `a1`, `a2` given. -/
  def leafRun : Leaf := { Leaf.reset with
    state := 2, cup := some ⟨cup3, 0, false, 1100#32, false⟩
    f := { Bank.zero with g := [(2, 0x7FFFFFFF#32), (3, 5#32), (4, 0xFFFFFFFE#32), (5, 3#32), (6, 0x80000000#32), (7, 1#32)], a := [(1, 0x100#32), (2, 0x7FFC#32), (3, 0x80010#32)], pc := 0x7FFE } }

/-- Its machine. -/
  def lf : State := run.onChip (fun c => ((c.setLeaf 63 leafRun).modPot 7 (fun p => { p with state := 1 })).modPot 0 (fun p => { p with state := 1 }))

/-- An instruction of a slot gives the Leaf as it says, takes the slot, and changes no register of the map but performance counters; where
  the slot is taken, it does nothing. -/
  def issuesIn (y : Bool) (i : Bool → Instr) (l : Leaf) : Bool :=
    ok lf (i false) (fun t => decide (t.chip.leaf 63 = l.use y ∧ t = { lf with chip := { lf.chip with leaves := t.chip.leaves, evNow := t.chip.evNow } })) &&
    ok lf (i true) (fun t => ok lf (i false) (fun u => decide (t = u.onChip (fun c => c.closeBundle 63))))

def issues : (Bool → Instr) → Leaf → Bool := issuesIn false

def issuesY : (Bool → Instr) → Leaf → Bool := issuesIn true

def lr : Leaf := lf.chip.leaf 63

/-- Table 5.3, with a saturation, a negative operand, a shift of 30 and of 31. -/
theorem test_leafRegisterArithmetic :
    (lr.canIssue = true ∧ lr.usedX = false ∧ lr.usedY = false ∧ same (lf.onChip (fun c => c.modLeaf 63 (fun l => { l with usedX := true }))) (.add 63 8 2 3 true) ∧ issues (.add 63 8 2 3) (lr.putG false 1 8 0x80000004#32) ∧ issues (.sub 63 8 3 2) (lr.putG false 1 8 0x80000006#32) ∧ issues (.adds 63 8 2 3) ((lr.putG false 1 8 0x7FFFFFFF#32).setFlags false 1) ∧ issues (.subs 63 8 6 3) ((lr.putG false 1 8 0x80000000#32).setFlags false 1)) ∧
    (issues (.and 63 8 4 3) (lr.putG false 1 8 4#32) ∧ issues (.or 63 8 4 3) (lr.putG false 1 8 0xFFFFFFFF#32) ∧ issues (.xor 63 8 4 3) (lr.putG false 1 8 0xFFFFFFFB#32) ∧ issues (.sll 63 8 3 4) (lr.putG false 1 8 0x40000000#32) ∧ issues (.srl 63 8 4 4) (lr.putG false 1 8 3#32) ∧ issues (.sra 63 8 4 4) (lr.putG false 1 8 0xFFFFFFFF#32)) ∧
    (issues (.slli 63 8 3 31) (lr.putG false 1 8 0x80000000#32) ∧ issues (.srli 63 8 6 31) (lr.putG false 1 8 1#32) ∧ issues (.srai 63 8 6 31) (lr.putG false 1 8 0xFFFFFFFF#32) ∧ issues (.slt 63 8 4 3) (lr.putG false 1 8 1#32) ∧ issues (.sltu 63 8 4 3) (lr.putG false 1 8 0#32) ∧ issues (.abss 63 8 6) ((lr.putG false 1 8 0x7FFFFFFF#32).setFlags false 1) ∧ issues (.negs 63 8 3) (lr.putG false 1 8 0xFFFFFFFB#32)) ∧
    (issues (.nrm 63 8 3) (lr.putG false 1 8 28#32) ∧ issues (.nrm 63 8 0) (lr.putG false 1 8 31#32) ∧ issues (.seln 63 8 2 3) (lr.putG false 1 8 0x7FFFFFFF#32) ∧ issues (.seln 63 8 2 0) lr ∧ issues (.selz 63 8 2 0) (lr.putG false 1 8 0x7FFFFFFF#32) ∧ issues (.selz 63 8 2 3) lr ∧ issues (.sllsi 63 8 3 30) ((lr.putG false 1 8 0x7FFFFFFF#32).setFlags false 1)) := by decide +kernel

/-- Table 5.4. -/
theorem test_leafImmediates :
    (issues (.addi 63 8 3 0xFFFF) (lr.putG false 1 8 4#32) ∧ issues (.addsi 63 8 2 1) ((lr.putG false 1 8 0x7FFFFFFF#32).setFlags false 1) ∧ issues (.andi 63 8 4 0xFFFF) (lr.putG false 1 8 0xFFFE#32) ∧ issues (.ori 63 8 3 0x8000) (lr.putG false 1 8 0x8005#32) ∧ issues (.xori 63 8 4 0xFFFF) (lr.putG false 1 8 0xFFFF0001#32) ∧ issues (.lui 63 8 0x8001) (lr.putG false 1 8 0x80010000#32)) ∧
    (issues (.slti 63 8 3 0xFFFF) (lr.putG false 1 8 0#32) ∧ issues (.sltui 63 8 3 0xFFFF) (lr.putG false 1 8 1#32) ∧ issues (.aadd 63 4 1 0xFFFF) (lr.putA 4 0xFF#32) ∧ issues (.ainc 63 1 4) (lr.putA 1 0x104#32) ∧ postInc 0x1FFFC#32 0xFFF0F000#32 8 = 0x21004#32 ∧ stepMod 0x1FFFC 0xFFF0F000 8 = 0x21004 ∧ stepMod 0x1F000 0x00100F00 (-4) = 0x1EFEC ∧ stepMod 0xF00 0x00100F00 (-4) = 0xF0C ∧ stepMod 0xF0C 0x00100F00 4 = 0xF00 ∧ stepMod 0xFFFFFFFC 0x0003FFFF 8 = 4 ∧ issues (.ga 63 4 3) (lr.putA 4 5#32) ∧ issues (.ag 63 8 1) (lr.putG false 1 8 0x100#32)) := by decide +kernel

/-- R143, R144. -/
theorem test_leafControlRegisters :
    (issues (.mfc 63 8 1) (lr.putG false 1 8 63#32) ∧ issues (.mfc 63 8 3) (lr.putG false 1 8 100#32) ∧ issues (.mfc 63 8 12) (lr.putG false 1 8 0#32) ∧ issues (.mtc 63 0 4) (lr.put false 1 .flagClr 30) ∧ issues (.mtc 63 11 3) (lr.putAmod 7 5#32) ∧ issues (.mtc 63 1 3) lr) := by decide +kernel

/-- R104, R145: taken, not taken, and in a delay bundle. -/
theorem test_leafBranches :
    (issues (.b 63 5) { lr with branch := some (some 5) } ∧ issues (.jal 63 8 5) { lr.putG false 1 8 1#32 with branch := some (some 5) } ∧ issues (.jr 63 3) { lr with branch := some (some 5) } ∧ issues (.beq 63 3 3 4) { lr with branch := some (some 2) } ∧ issues (.bne 63 3 3 4) { lr with branch := some none }) ∧
    (issues (.blt 63 4 3 0xFFFF) { lr with branch := some (some 0x7FFD) } ∧ issues (.bge 63 4 3 1) { lr with branch := some none } ∧ issues (.bltu 63 4 3 1) { lr with branch := some none } ∧ issues (.bgeu 63 4 3 1) { lr with branch := some (some 0x7FFF) } ∧ issues (.dbnz 63 7 1) { lr.putG false 1 7 0#32 with branch := some none }) ∧
    (ok (lf.onChip (fun c => c.modLeaf 63 (fun l => { l with delay := 1 }))) (.b 63 5 false) (fun t => t.chip.leaf 63 = ({ lr with delay := 1 }.put false 3 .flagSet 4).use false)) := by decide +kernel

/-- Its data memory holds a word at 0x100. -/
  def lm : State := lf.onChip (fun c => c.storeLE (0x1000000 + 63 * 0x8000 + 0x100) 8 0x85060708FF020384)

/-- Leaf 63 with its address register `a7` outside every memory. -/
  def lfWild : State := lf.onChip (fun c => c.modLeaf 63 (fun l => { l with f := { l.f with a := [(7, 0x8000#32)] } }))

/-- The word at 0x100 of its data memory with an error. -/
  def lmErr (two : Bool) : State := lm.onChip (fun c => { c with ecc := [(0x1000000 + 63 * 0x8000 + 0x102, two)] })

/-- The doubleword at 0x10 of the memory of Pot 7 with an error. -/
  def lpErr (two : Bool) : State := lf.onChip (fun c => { c with ecc := [(0x1400000 + 7 * 0x80000 + 0x16, two)] })

/-- Leaf 63 in a slow cup, with `g16`, `a4` and `a5` given. -/
  def lfSlow : State := lf.onChip (fun c => c.setLeaf 63 { Leaf.reset with
    state := 2, bankB := true, slow := some ⟨0, 7, 9#32, 0x90000, 0x91000, 64, 10#64, 7#64, [], false, [], false, false⟩
    b := { Bank.zero with g := [(16, 0xFFFE7FFF#32)], a := [(4, 0x100#32), (5, 0x80010#32)] } })

/-- A cup whose write buffer is full. -/
  def lfFull : State := lf.onChip (fun c => c.modLeaf 63 (fun l => { l with wbuf := (List.range 256).map (fun i => (0x1400000 + 7 * 0x80000 + 0x1000 + 8 * i, some 1#8)) }))

/-- R123, R142: the widths, a post-increment, an odd pair, a misaligned and an empty address. -/
theorem test_leafLoads :
    (lm.chip.accessFault 63 0x100 8 false = false ∧ NoErr lm.chip 63 0x100 8 = true ∧ ok lm (.ldb 63 8 1 false 0 false) (fun t => t.chip.leaf 63 = Leaf.use false (lr.putG false 2 8 0xFFFFFF84#32)) ∧ ok lm (.ldbu 63 8 1 false 1 false) (fun t => t.chip.leaf 63 = Leaf.use false (lr.putG false 2 8 3#32)) ∧ ok lm (.ldh 63 8 1 false 0 false) (fun t => t.chip.leaf 63 = Leaf.use false (lr.putG false 2 8 0x384#32)) ∧ ok lm (.ldhu 63 8 1 false 2 false) (fun t => t.chip.leaf 63 = Leaf.use false (lr.putG false 2 8 0xFF02#32))) ∧
    (ok lm (.ldw 63 8 1 true 4 false) (fun t => t.chip.leaf 63 = Leaf.use false ((lr.putA 1 0x104#32).putG false 2 8 0xFF020384#32)) ∧ ok lm (.ldd 63 8 1 false 0 false) (fun t => t.chip.leaf 63 = Leaf.use false ((lr.putG false 2 8 0xFF020384#32).putG false 2 9 0x85060708#32)) ∧ issues (.ldd 63 9 1 false 0) (lr.put false 3 .flagSet 4) ∧ ok lm (.ldc 63 8 3 1 false 0 false) (fun t => t.chip.leaf 63 = Leaf.use false ((lr.putG false 2 8 0xFF020384#32).putTag false 2 3 8))) ∧
    (lf.chip.accessFault 63 0x102 4 false = true ∧ ok lf (.ldw 63 8 1 false 2 false) (fun t => t.chip.leaf 63 = Leaf.use false ((lr.putG false 2 8 0#32).put false 3 .flagSet 8) ∧ EventSet t.chip (pgLeaf 63) 2) ∧ ok lf (.stw 63 8 2 false 4 false) (fun t => t.chip.mem = [] ∧ t.chip.leaf 63 = Leaf.use false (lr.put false 3 .flagSet 8) ∧ EventSet t.chip (pgLeaf 63) 2)) ∧
    (AccessFault lf.chip 63 0x102 4 ∧ ¬AccessFault lf.chip 63 0x80010 8 ∧ AccessFault lf.chip 63 0x1080000 8 ∧ AccessFault lf.chip 63 0x10100 1 ∧ ok lfWild (.ldb 63 8 7 false 0 false) (fun t => t.chip.leaf 63 = (((lfWild.chip.leaf 63).putG false 2 8 0#32).put false 3 .flagSet 8).use false ∧ EventSet t.chip (pgLeaf 63) 2) ∧ ok lfWild (.ldd 63 8 7 true 4 false) (fun t => t.chip.leaf 63 = (((((lfWild.chip.leaf 63).putA 7 0x8004#32).putG false 2 8 0#32).putG false 2 9 0#32).put false 3 .flagSet 8).use false) ∧ ok lfWild (.ldc 63 8 3 7 false 0 false) (fun t => t.chip.leaf 63 = ((((lfWild.chip.leaf 63).putG false 2 8 0#32).putTag false 2 3 0).put false 3 .flagSet 8).use false)) ∧
    (ok lfWild (.ldh 63 8 7 false 0 false) (fun t => t.chip.leaf 63 = (((lfWild.chip.leaf 63).putG false 2 8 0#32).put false 3 .flagSet 8).use false) ∧ ok lfWild (.std 63 8 7 false 0 false) (fun t => t.chip.mem = [] ∧ t.chip.leaf 63 = ((lfWild.chip.leaf 63).put false 3 .flagSet 8).use false) ∧ ok lfWild (.stsh 63 2 7 false 0 0 false) (fun t => t.chip.mem = [] ∧ t.chip.leaf 63 = (((lfWild.chip.leaf 63).put false 3 .flagSet 8).setFlags false 1).use false)) ∧
    (ok (lmErr false) (.ldb 63 8 1 false 3 false) (fun t => t.chip.ecc = [] ∧ t.chip.leaf 63 = (lr.putG false 2 8 0xFFFFFFFF#32).use false ∧ Counted on.chip t.chip (LEAF.ECC_CORR 63)) ∧ ok (lmErr false) (.ldd 63 8 1 false 0 true) (fun t => t.chip.ecc = [] ∧ t.chip.mem = lm.chip.mem ∧ Counted on.chip t.chip (LEAF.ECC_CORR 63)) ∧ ok (lmErr true) (.ldw 63 8 1 false 0 true) (fun t => (t.chip.leaf 63).state = 3 ∧ (t.chip.leaf 63).qcause = 4 ∧ (t.chip.leaf 63).pc = lr.pc ∧ (t.chip.leaf 63).usedX = false)) ∧
    (ok (lpErr false) (.ldw 63 8 3 false 0 false) (fun t => t.chip.ecc = [] ∧ t.chip.leaf 63 = (lr.putG false 2 8 0#32).use false ∧ Counted on.chip t.chip (POT.SMEM_CE 7)) ∧ ok (lpErr true) (.ldw 63 8 3 false 0 false) (fun t => (t.chip.pot 7).state = 2 ∧ (t.chip.pot 7).qcause = 3) ∧ ok (lpErr true) (.stsh 63 2 3 false 0 0 true) (fun t => t.chip.ecc = (lpErr true).chip.ecc)) ∧
    (ok (lf.onChip (fun c => (c.modLeaf 63 (fun l => { l with port := [(0x80, 0x77#8)], f := { l.f with a := [(1, 0x10080#32)] } })))) (.ldb 63 8 1 false 0 false) (fun t => (t.chip.leaf 63).cur = [⟨false, .g 8, 0x77, (lr.bx + 2), false⟩])) := by decide +kernel

/-- R124, R142: a store of each width at the end of data memory, one into Pot memory, a saturating one. -/
theorem test_leafStores :
    (ok lf (.stb 63 4 2 false 3 false) (fun t => t.chip.mem = [(0x1000000 + 63 * 0x8000 + 0x7FFF, 0xFE#8)] ∧ t.chip.leaf 63 = lr.use false) ∧ NoErr lf.chip 63 0x7FFF 1 = true ∧ ok lf (.sth 63 4 2 false 2 false) (fun t => t.chip.loadLE (0x1000000 + 63 * 0x8000 + 0x7FFE) 2 = 0xFFFE) ∧ ok lf (.stw 63 4 2 true 4 false) (fun t => t.chip.loadLE (0x1000000 + 63 * 0x8000 + 0x7FFC) 4 = 0xFFFFFFFE ∧ t.chip.leaf 63 = (lr.putA 2 0x8000#32).use false)) ∧
    (ok lf (.std 63 2 1 false 0 false) (fun t => t.chip.loadLE (0x1000000 + 63 * 0x8000 + 0x100) 8 = 0x57FFFFFFF) ∧ issues (.std 63 3 1 false 0) (lr.put false 3 .flagSet 4) ∧ (lf.chip.pot 7).state ≠ 0 ∧ lr.wbufDw.length < 256 ∧ ok lf (.stw 63 4 3 false 0 false) (fun t => t.chip.mem = [] ∧ Tab.get (fun _ => none) (t.chip.leaf 63).wbuf (0x1400000 + 7 * 0x80000 + 0x10) = some 0xFE#8)) ∧
    (ok lf (.stsh 63 2 1 false 0 0 false) (fun t => t.chip.loadLE (0x1000000 + 63 * 0x8000 + 0x100) 2 = 0x7FFF ∧ t.chip.leaf 63 = (lr.setFlags false 1).use false)) ∧
    (ok (lmErr false) (.stb 63 4 1 false 0 false) (fun t => t.chip.ecc = [] ∧ t.chip.loadLE (0x1000000 + 63 * 0x8000 + 0x100) 4 = 0xFF0203FE ∧ Counted on.chip t.chip (LEAF.ECC_CORR 63)) ∧ ok (lmErr false) (.stw 63 4 1 false 0 false) (fun t => t.chip.ecc = [] ∧ t.chip.regs = lm.chip.regs ∧ t.chip.loadLE (0x1000000 + 63 * 0x8000 + 0x100) 4 = 0xFFFFFFFE) ∧ ok (lmErr true) (.std 63 4 1 false 0 false) (fun t => (t.chip.leaf 63).state = 3 ∧ (t.chip.leaf 63).qcause = 4 ∧ t.chip.mem = lm.chip.mem)) ∧
    ((lfFull.chip.leaf 63).wbufDw.length = 256 ∧ ok lfFull (.stw 63 4 3 false 0 false) (fun t => t.chip.mem = [] ∧ t.chip.leaf 63 = ((lfFull.chip.leaf 63).put false 3 .flagSet 8).use false ∧ EventSet t.chip (pgLeaf 63) 2)) ∧
    (ok lfSlow (.stw 63 16 5 false 0 false) (fun t => t.chip.loadLE (0x1400000 + 7 * 0x80000 + 0x10) 4 = 0xFFFE7FFF ∧ t.chip.leaf 63 = (lfSlow.chip.leaf 63).use false) ∧ ok lfSlow (.stsh 63 16 4 false 0 0 false) (fun t => t.chip.loadLE (0x1000000 + 63 * 0x8000 + 0x100) 2 = 0x8000 ∧ t.chip.leaf 63 = ((lfSlow.chip.leaf 63).setFlags false 1).use false)) ∧
    (ok (lf.onChip (fun c => c.modLeaf 63 (fun l => { l with f := { l.f with a := [(1, 0x10084#32)] } }))) (.stw 63 2 1 false 0 false) (fun t => t.chip.mem = [] ∧ (t.chip.leaf 63).port = [(0x84, 0xFF#8), (0x85, 0xFF#8)]) ∧ ok (lf.onChip (fun c => c.modLeaf 63 (fun l => { l with f := { l.f with a := [(1, 0x10088#32)] } }))) (.std 63 2 1 false 0 false) (fun t => (t.chip.leaf 63).port = [(0x88, 0xFF#8), (0x89, 0xFF#8), (0x8A, 0xFF#8), (0x8B, 0x7F#8)])) := by decide +kernel

/-- Table 5.7: products, accumulation with saturation, extraction, reading and writing. -/
theorem test_leafAccumulators :
    (issuesY (.mul 63 3 2 4) (lr.putAcc 3 (BitVec.ofInt 72 (-0xFFFFFFFE))) ∧ issuesY (.mac 63 3 3 5) (lr.putAcc 3 15#72) ∧ issuesY (.mac2 63 2 2 4) ((lr.putAcc 2 (BitVec.ofInt 72 (-0xFFFFFFFE))).putAcc 3 15#72) ∧ issuesY (.mac2 63 2 3 4) (lr.put true 3 .flagSet 4) ∧ issuesY (.mac2s 63 3 2 4) (lr.putAcc 3 (BitVec.ofInt 72 (-0xFFFFFFFE + 15))) ∧ issuesY (.clr 63 0) (lr.putAcc 0 0#72)) ∧
    (issuesY (.ext 63 8 0) (lr.putG true 2 8 0#32) ∧ issuesY (.exts 63 8 0 31) (lr.putG true 2 8 0#32) ∧ issuesY (.rdacc 63 8 0 0) (lr.putG true 2 8 0#32) ∧ issuesY (.rdacc 63 8 0 3) (lr.putG true 2 8 0#32) ∧ issuesY (.wracc 63 3 4 8) ((lr.putAcc 3 (BitVec.ofInt 72 (-512))).putTag true 3 3 8) ∧ issuesY (.wraccp 63 3 2 8) ((lr.putAcc 3 0x57FFFFFFF#72).putTag true 3 3 8) ∧ issuesY (.wraccp 63 3 3 8) (lr.put true 3 .flagSet 4)) := by decide +kernel

/-- R136, R148 and the rest of Table 5.7. -/
theorem test_leafSearchAndLimit :
    (issuesY (.smax 63 1 4) (lr.putAcc 1 0x10000FFFFFFFE#72) ∧ issuesY (.smin 63 1 4) (lr.putAcc 1 0x10000FFFFFFFE#72) ∧ issuesY (.max 63 8 4 3) (lr.putG true 2 8 5#32) ∧ issuesY (.min 63 8 4 3) (lr.putG true 2 8 0xFFFFFFFE#32) ∧ issuesY (.clamp 63 8 2 4) (lr.putG true 2 8 3#32) ∧ issuesY (.clamp 63 8 2 3) (lr.put true 3 .flagSet 4) ∧ issuesY (.satn 63 8 2 15) ((lr.putG true 2 8 0x7FFF#32).setFlags true 1) ∧ issues (.nop 63) lr) ∧
    (issuesY (.reservedOpcode 63 true) (lr.put true 3 .flagSet 4) ∧ issues (.reservedOpcode 63 false) (lr.put false 3 .flagSet 4)) := by decide +kernel

/-- R103, R116: banked registers of a slow cup. -/
theorem test_leafRegisterRules :
    ((lf.chip.leaf 63).canIssue = true ∧ ok lf (.mac2 63 3 2 31 false) (fun t => t.chip.leaf 63 = ((lf.chip.leaf 63).put true 3 .flagSet 4).use true) ∧ ok lf (.mac2s 63 3 31 2 false) (fun t => t.chip.leaf 63 = ((lf.chip.leaf 63).put true 3 .flagSet 4).use true) ∧ ok lf (.clamp 63 8 2 31 false) (fun t => t.chip.leaf 63 = ((lf.chip.leaf 63).put true 3 .flagSet 4).use true) ∧ ok lf (.wraccp 63 3 31 4 false) (fun t => t.chip.leaf 63 = ((lf.chip.leaf 63).put true 3 .flagSet 4).use true) ∧ ok lf (.ldd 63 31 7 true 2047 false) (fun t => t.chip.leaf 63 = ((lf.chip.leaf 63).put false 3 .flagSet 4).use false) ∧ ok lf (.std 63 31 7 true 2047 false) (fun t => t.chip.leaf 63 = ((lf.chip.leaf 63).put false 3 .flagSet 4).use false)) ∧
    ({ lr with bankB := true }.rdG 15 = 0#32 ∧ { lr with bankB := true }.putG true 2 15 1#32 = { lr with bankB := true }.put true 3 .flagSet 16 ∧ { lr with bankB := true }.rdA 3 = 0#32 ∧ lr.putG true 2 0 1#32 = lr) := by decide +kernel

/-- What Leaf 63 holds after each of three bundles, the first of one instruction and the others of `nop`. -/
  def bundles (s : State) (i : Instr) (P Q R : Leaf → Bool) : Bool :=
    ok s i (fun t => P (t.chip.leaf 63) && ok t (.nop 63 true) (fun u => Q (u.chip.leaf 63) && ok u (.nop 63 true) (fun w => R (w.chip.leaf 63))))

/-- R101, R104, Table 4.1: a result for the next bundle, the one after it, and the third. -/
theorem test_leafResultNextBundle :
    (lr.cur = [] ∧ lr.flight = [] ∧ lr.delay = 0 ∧ lr.branch = none ∧ lr.endReq = false ∧ lr.usedY = false ∧ ok lf (.add 63 8 2 3 true) (fun t => (t.chip.leaf 63).rdG 8 = 0x80000004#32 ∧ (t.chip.leaf 63).pc = 0x7FFF ∧ (t.chip.leaf 63).flight = []) ∧ ok lf (.jal 63 8 5 true) (fun t => (t.chip.leaf 63).rdG 8 = 1#32 ∧ (t.chip.leaf 63).pc = 0x7FFF) ∧ ok lf (.ainc 63 1 4 true) (fun t => (t.chip.leaf 63).rdA 1 = 0x104#32) ∧ ok lf (.mtc 63 11 3 true) (fun t => (t.chip.leaf 63).rdAmod 7 = 5#32)) ∧
    (bundles lf (.adds 63 8 2 3 true) (fun l => l.rdG 8 = 0x7FFFFFFF#32 ∧ l.rdFlg = 0#32) (fun l => l.rdFlg = 0#32) (fun l => l.rdFlg = 1#32) ∧ bundles lf (.reservedOpcode 63 true true) (fun l => l.rdFlg = 0#32) (fun l => l.rdFlg = 0#32) (fun l => l.rdFlg = 4#32)) ∧
    (bundles lm (.ldw 63 8 1 false 0 true) (fun l => l.rdG 8 = 0#32) (fun l => l.rdG 8 = 0xFF020384#32) (fun _ => true) ∧ bundles lf (.max 63 8 4 3 true) (fun l => l.rdG 8 = 0#32) (fun l => l.rdG 8 = 5#32) (fun _ => true)) ∧
    (bundles lf (.mul 63 3 3 5 true) (fun l => l.rdAccAdd 3 = 15#72 ∧ l.rdAcc 3 = 0#72) (fun l => l.rdAcc 3 = 0#72) (fun l => l.rdAcc 3 = 15#72)) := by decide +kernel

/-- A chip with Leaf 63 in a state. -/
  def leafIn (st : Nat) : State := lf.onChip (fun c => c.setLeaf 63 { Leaf.reset with state := st })

/-- R130 to R132, R178, R179: requests, their instants, RELEASE and its end, of a Leaf and of a Pot. -/
theorem test_leafQuarantine :
    (Reaches (leafIn 1) .pcie (LEAF.LCTRL 63) ∧ ok (leafIn 1) (.lctrlQuar .pcie 63) (fun t => (t.chip.leaf 63).state = 3 ∧ (t.chip.leaf 63).qcause = 1 ∧ t.chip.reg (LEAF.QTICK 63) = 7#32 ∧ EventSet t.chip (pgLeaf 63) 0) ∧ ok (leafIn 2) (.lctrlQuar .pcie 63) (fun t => (t.chip.leaf 63).quarReq = some 1) ∧ same (leafIn 0) (.lctrlQuar .pcie 63)) ∧
    (ok ((leafIn 2).onChip (fun c => c.modLeaf 63 (fun l => { l with quarReq := some 1, quarArmed := true }))) (.quarIn 63 1) (fun t => (t.chip.leaf 63).state = 3 ∧ (t.chip.leaf 63).qcause = 1) ∧ ok lf (.quarIn 63 4) (fun t => (t.chip.leaf 63).state = 3 ∧ (t.chip.leaf 63).qcause = 4 ∧ (t.chip.leaf 63).cup = none)) ∧
    (ok (leafIn 3) (.lctrlRelease .pcie 63) (fun t => (t.chip.leaf 63).filling = true) ∧ same (leafIn 1) (.lctrlRelease .pcie 63) ∧ ok ((leafIn 3).onChip (fun c => (c.modLeaf 63 (fun l => { l with filling := true })).storeLE (0x1000000 + 63 * 0x8000) 4 7)) (.leafReleaseDone 63) (fun t => (t.chip.leaf 63).state = 1 ∧ t.chip.mem = []) ∧ same (leafIn 3) (.leafReleaseDone 63)) ∧
    (Reaches lf .pcie (POT.PCTRL 7) ∧ lf.chip.auto (pgPot 7) = false ∧ (lf.chip.pot 7).state = 1 ∧ ok ((leafIn 1)) (.pctrlQuar .pcie 7 0#32) (fun t => (t.chip.pot 7).state = 2 ∧ (t.chip.pot 7).qcause = 1 ∧ (t.chip.leaf 63).state = 3 ∧ (t.chip.leaf 63).qcause = 5 ∧ Tab.get (fun _ => none) t.chip.cm.staged (POT.PCTRL 7) = some 1#32 ∧ t.chip.reg (POT.QTICK 7) = 7#32)) ∧
    (ok ((leafIn 1).onChip (fun c => c.modPot 7 (fun p => { p with state := 2, qcause := 1 }))) (.pctrlRelease .pcie 7 0#32) (fun t => (t.chip.pot 7).filling = true ∧ Tab.get (fun _ => none) t.chip.cm.staged (POT.PCTRL 7) = some 2#32)) ∧
    (ok ((leafIn 3).onChip (fun c => (c.modPot 7 (fun p => { p with state := 2, qcause := 1, filling := true })).modLeaf 63 (fun l => { l with qcause := 5 }))) (.potReleaseDone 7) (fun t => (t.chip.pot 7).state = 1 ∧ (t.chip.leaf 63).filling = true) ∧ same lf (.potReleaseDone 7)) := by decide +kernel

/-- R126, R133, R134: DBG_PC, DBG_DATA, STEP, and a line fetch. -/
theorem test_leafDebugger :
    (Reaches (leafIn 1) .pcie (LEAF.DBG_PC 63) ∧ ok (leafIn 1) (.dbgPcWrite .pcie 63 0x7FFF#32) (fun t => (t.chip.leaf 63).f.pc = 0x7FFF) ∧ ok (leafIn 2) (.dbgPcWrite .pcie 63 5#32) (fun t => t = (leafIn 2).onChip (fun c => c.evt (pgLeaf 63) 4))) ∧
    (Reaches (leafIn 1) .pcie (LEAF.DBG_DATA 63) ∧ ok (wr (leafIn 1) (LEAF.DBG_SEL 63) 31) (.dbgDataWrite .pcie 63 9#32) (fun t => Tab.get (fun _ => 0#32) (t.chip.leaf 63).f.g 31 = 9#32) ∧ ok (wr (leafIn 1) (LEAF.DBG_SEL 63) 0x110) (.dbgDataWrite .pcie 63 9#32) (fun t => Tab.get (fun _ => 0#32) (t.chip.leaf 63).b.g 16 = 9#32) ∧ ok (wr (leafIn 1) (LEAF.DBG_SEL 63) 0xC0) (.dbgDataWrite .pcie 63 0xFF#32) (fun t => (t.chip.leaf 63).f.flg = 31#32) ∧ ok (wr (leafIn 1) (LEAF.DBG_SEL 63) 0xE0) (.dbgDataWrite .pcie 63 9#32) (fun t => EventSet t.chip (pgLeaf 63) 4)) ∧
    (ok (wr (leafIn 1) (LEAF.DBG_SEL 63) 0x123) (.dbgDataWrite .pcie 63 9#32) (fun t => (t.chip.leaf 63).f.a = [(3, 9#32)]) ∧ ok (wr (leafIn 1) (LEAF.DBG_SEL 63) 0x147) (.dbgDataWrite .pcie 63 9#32) (fun t => (t.chip.leaf 63).b.amod = [(7, 9#32)]) ∧ ok (wr (leafIn 1) (LEAF.DBG_SEL 63) 0x83) (.dbgDataWrite .pcie 63 9#32) (fun t => (t.chip.leaf 63).f.accRead = [(3, 0x900000000#72)] ∧ (t.chip.leaf 63).f.accAdd = [(3, 0x900000000#72)]) ∧ ok (wr (leafIn 1) (LEAF.DBG_SEL 63) 0xA3) (.dbgDataWrite .pcie 63 0x1F80#32) (fun t => (t.chip.leaf 63).f.accRead = [(3, 0x800000000000000000#72)] ∧ (t.chip.leaf 63).f.tag = [(3, 31#32)])) ∧
    (ok (wr (leafIn 1) (LEAF.DBG_SEL 63) 0xC3) (.dbgDataWrite .pcie 63 9#32) (fun t => t.chip.leaf 63 = (leafIn 1).chip.leaf 63 ∧ t.chip.regs = (wr (leafIn 1) (LEAF.DBG_SEL 63) 0xC3).chip.regs) ∧ ok (wr (leafIn 1) (LEAF.DBG_SEL 63) 0x1CB) (.dbgDataWrite .pcie 63 9#32) (fun t => (t.chip.leaf 63).b.amod = [(7, 9#32)]) ∧ ok (wr (leafIn 1) (LEAF.DBG_SEL 63) 0xCC) (.dbgDataWrite .pcie 63 9#32) (fun t => EventSet t.chip (pgLeaf 63) 4)) ∧
    (ok (leafIn 1) (.step .pcie 63) (fun t => (t.chip.leaf 63).f.pc = 1 ∧ (t.chip.leaf 63).state = 1 ∧ EventSet t.chip (pgLeaf 63) 5) ∧ ok (leafIn 3) (.step .pcie 63) (fun t => EventSet t.chip (pgLeaf 63) 4)) ∧
    (same (leafIn 1) (.icMiss 63 0 false) ∧ same lf (.icMiss 63 0 true) ∧ ok lf (.icMiss 63 0x7FFF false) (fun t => (t.chip.leaf 63).icache = [(0, [0]), (63, [4095])]) ∧ ok (lf.onChip (fun c => c.modLeaf 63 (fun l => { l with icache := [(63, [63, 127, 4095, 191])] }))) (.icMiss 63 0x7FFF true) (fun t => t.chip.reg (LEAF.IC_PERR 63) = 1#32 ∧ (t.chip.leaf 63).icache = [(0, [0]), (63, [4095, 63, 127, 191])]) ∧ ok (lf.onChip (fun c => { c with ecc := [(0x1200000 + 7 * 0x40000 + 0x3FFFF, true)] })) (.icMiss 63 0x7FFF false) (fun t => (t.chip.pot 7).state = 2 ∧ (t.chip.pot 7).qcause = 2)) := by decide +kernel

/-- A chip that fills the memories of Pots 0 and 7; of Pot 7 the Leaves but the last are filled, and it and the Pot as given. -/
  def filled (pot leaf : Nat) : State := (wr on PWR.DOM_ON 0xF7EF).onChip (fun c =>
    { c with
      pots := [(7, { Pot.reset with state := pot, filling := decide (pot = 0) })]
      leaves := (List.range 8).map (fun i => (56 + i, { Leaf.reset with state := if i = 7 then leaf else 1, filling := decide (i = 7 ∧ leaf = 0) }))
      rst := { c.rst with filling := [4, 11] } })

/-- R125, R177, R372. -/
theorem test_fillsAfterPowerUp :
    (ok ((leafIn 0).onChip (fun c => (c.modLeaf 63 (fun l => { l with filling := true, qcause := 2 })).storeLE (0x1000000 + 63 * 0x8000) 4 7)) (.leafFillDone 63) (fun t => t.chip.leaf 63 = { Leaf.reset with state := 1, qcause := 2 } ∧ t.chip.mem = [] ∧ t.chip.regs = lf.chip.regs)) ∧
    (ok (on.onChip (fun c => (c.modPot 7 (fun l => { l with filling := true })).storeLE (0x1200000 + 7 * 0x40000) 4 7)) (.potFillDone 7) (fun t => t.chip.pot 7 = { Pot.reset with state := 1 } ∧ t.chip.mem = [])) ∧
    (ok (filled 1 0) (.leafFillDone 63) (fun t => t.chip.domOn 11 = true ∧ t.chip.rst.filling = [4] ∧ EventSet t.chip pgPwr 0 ∧ t.tb = on.tb) ∧ ok (filled 0 1) (.potFillDone 7) (fun t => t.chip.domOn 11 = true ∧ EventSet t.chip pgPwr 0) ∧ ok (filled 0 0) (.potFillDone 7) (fun t => t.chip.domOn 11 = false ∧ t.chip.rst.filling = [4, 11])) ∧
    (ok (on.onChip (fun c => { c.storeLE 0x400000 4 7 with caddyFill := true })) .caddyFillDone (fun t => t.chip.caddyFill = false ∧ t.chip.mem = []) ∧ ok ((wr on PWR.DOM_ON 0xFFF7).onChip (fun c => { c with caddyFill := true, rst := { c.rst with filling := [3] } })) .caddyFillDone (fun t => t.chip.domOn 3 = true ∧ t.chip.rst.filling = [] ∧ EventSet t.chip pgPwr 0) ∧ same on .caddyFillDone ∧ same on (.leafFillDone 5) ∧ same on (.potFillDone 5)) := by decide +kernel

/-- A chip whose Pot 0 has a cup in its queue and Leaf 1 idle. -/
  def queued : State := run.onChip (fun c => (c.modPot 0 (fun p => { p with state := 1, queue := [cup3] })).setLeaf 1 { Leaf.reset with state := 2 })

/-- R158, R162: the assignment and a steal. -/
theorem test_cupAssignment :
    (queued.chip.takeable 0 = [cup3] ∧ (queued.chip.leaf 0).idle = false ∧ (queued.chip.leaf 1).idle = true ∧ ok queued (.cupAssign 0) (fun t => (t.chip.leaf 1).assigned = some ⟨cup3, 0, false, 1100#32, false⟩ ∧ (t.chip.pot 0).queue = []) ∧ same queued (.cupAssign 1)) ∧
    ((queued.onChip (fun c => (c.setLeaf 1 Leaf.reset).setLeaf 8 { Leaf.reset with state := 2 })).chip.steal = some (8, 0, cup3) ∧ ok (queued.onChip (fun c => (c.setLeaf 1 Leaf.reset).setLeaf 8 { Leaf.reset with state := 2 })) .stealGrant (fun t => (t.chip.leaf 8).assigned = some ⟨cup3, 0, false, 1100#32, false⟩ ∧ (t.chip.pot 0).queue = [])) ∧
    (same queued .stealGrant) := by decide +kernel

/-- Leaf 63 with a slow cup in bank B and a cup of axis 255 that it may enter. -/
  def preempts (used : Bool) : State := run.onChip (fun c => c.setLeaf 63 { Leaf.reset with
    state := 2, bankB := true, slow := some ⟨0, 7, 9#32, 0x90000, 0x91000, 64, 10#64, 7#64, [], false, [], false, false⟩, usedX := used
    assigned := some ⟨{ cup3 with axis := 255, home := 7 }, 7, false, 0#32, false⟩ })

/-- R117, R159. -/
theorem test_cupEntryValues :
    (ok (wr (run.onChip (fun c => c.setLeaf 63 { Leaf.reset with state := 2, assigned := some ⟨cup3, 7, false, 0#32, false⟩ })) (POT.ENTRY_FULL 7) 0x7FF0) (.cupEntry 63 false) (fun t => (t.chip.leaf 63).rdG 1 = 3#32 ∧ (t.chip.leaf 63).rdG 2 = 7#32 ∧ (t.chip.leaf 63).rdA 1 = 0x10000#32 ∧ (t.chip.leaf 63).pc = 0x7FF0 ∧ (t.chip.leaf 63).assigned = none)) ∧
    (ok (preempts false) (.cupEntry 63 false) (fun t => (t.chip.leaf 63).cup.isSome ∧ (t.chip.leaf 63).slow.isSome ∧ (t.chip.leaf 63).bankB = false ∧ t.chip.reg (LEAF.PREEMPT 63) = 1#32 ∧ (t.chip.leaf 63).rdG 1 = 255#32) ∧ same (preempts true) (.cupEntry 63 false) ∧ ok (preempts false) (.cupEntry 63 true) (fun t => (t.chip.leaf 63).cup.isSome)) ∧
    (ok (((wr (preempts false) STBY.CFG 0x21).onChip (fun c => (c.setN TICK.LINE_STAT 0x30000000).modStby (fun t => { t with peerSstate := 2 })))) (.cupEntry 63 false) (fun t => (t.chip.leaf 63).cup.isSome)) := by decide +kernel

/-- R32, R120, R161. -/
theorem test_cupCompletionAndOverrun :
    (¬(run.chip.period ≤ (run.tb.fast - 1000#32).toNat) ∧ ok (lf.onChip (fun c => c.modLeaf 63 (fun l => { l with cup := some ⟨cup3, 0, false, 1100#32, true⟩, f := { l.f with flg := 4#32 } }))) (.cupCompletion 63) (fun t => (t.chip.leaf 63).cup = none ∧ t.chip.reg (LEAF.FLAG_SUM 63) = 4#32 ∧ t.chip.reg (LEAF.CUPS 63) = 1#32) ∧ same lf (.cupCompletion 63) ∧ ok (lf.onChip (fun c => c.modLeaf 63 (fun l => { l with cup := some ⟨{ cup3 with kind := .cross }, 0, false, 1100#32, true⟩ }))) (.cupCompletion 63) (fun t => (t.chip.leaf 63).cup = none ∧ t.chip.reg (LEAF.CUPS 63) = 1#32)) ∧
    (ok { lf with tb := { lf.tb with fast := 32250#32 } } (.cupOverrun 63) (fun t => (t.chip.leaf 63).state = 3 ∧ (t.chip.leaf 63).qcause = 3 ∧ t.chip.axStalled 3 = true) ∧ same lf (.cupOverrun 63)) := by decide +kernel

/-- A slow cup of kind 0 of Pot 7. -/
  def slow0 : SlowCup := ⟨0, 7, 9#32, 0x90000, 0x91000, 64, 10#64, 7#64, [], false, [], false, false⟩

/-- R146, R170. -/
theorem test_slowCupsAndEnd :
    ((leafIn 2).chip.cupFor 63 = false ∧ ok ((leafIn 2).onChip (fun c => c.modPot 7 (fun p => { p with slowQ := [slow0] }))) (.slowCupStart 63 false) (fun t => (t.chip.leaf 63).slow = some slow0 ∧ (t.chip.leaf 63).rdG 16 = 9#32 ∧ (t.chip.leaf 63).rdA 4 = 0x90000#32 ∧ (t.chip.pot 7).slowQ = []) ∧ same (leafIn 1) (.slowCupStart 63 false)) ∧
    ((leafIn 2).chip.runnerless 0 = true ∧ ok ((leafIn 2).onChip (fun c => c.modPot 0 (fun p => { p with slowQ := [{ slow0 with home := 0 }] }))) (.slowCupStart 63 true) (fun t => (t.chip.leaf 63).slow = some { slow0 with home := 0, std := true } ∧ (t.chip.pot 0).slowQ = [])) ∧
    ((leafIn 2).chip.owesCup 3 7 = false ∧ ((queued.onChip (fun c => c.setLeaf 1 Leaf.reset)).chip.owesCup 3 9 = true) ∧ same ((queued.onChip (fun c => (c.setLeaf 1 Leaf.reset).setLeaf 63 { Leaf.reset with state := 2 })).onChip (fun c => c.modPot 7 (fun p => { p with slowQ := [{ slow0 with owed := [3], released := 9#64 }] }))) (.slowCupStart 63 false)) ∧
    (issues (.endCup 63) { lr with endReq := true } ∧ ok (lf.onChip (fun c => c.modLeaf 63 (fun l => { l with delay := 1 }))) (.endCup 63 false) (fun t => t.chip.leaf 63 = ({ lr with delay := 1 }.put false 3 .flagSet 4).use false) ∧ ok lf (.endCup 63 true) (fun t => (t.chip.leaf 63).cup = some ⟨cup3, 0, false, 1100#32, true⟩) ∧ ok ((leafIn 2).onChip (fun c => c.modLeaf 63 (fun l => { l with bankB := true, slow := some slow0 }))) (.endCup 63 true) (fun t => (t.chip.leaf 63).slow = none ∧ slow0 ∈ (t.chip.pot 7).slowDone) ∧ ok ((leafIn 2).onChip (fun c => c.modLeaf 63 (fun l => { l with bankB := true, slowStd := true, slow := some { slow0 with std := true } }))) (.endCup 63 true) (fun t => (t.chip.leaf 63).slow = none ∧ (t.chip.leaf 63).bankB = false ∧ (t.chip.pot 7).slowDone.length = 1)) := by decide +kernel

/-! ### The line (statements 38 to 44) -/

/-- The head with segment 0 in its tick 7, axis 3 on node 1, link on both ports, at offset `o`. -/
  def headAt (o : Nat) : State :=
    let s := wr (wr (wr (wr (wr (wr (ticksAt o) TICK.LINE_STAT 0x30000000) (pgCtrl (pgSeg 0)) 1) (AXIS.MAP 3) 0x80010000) (SEG.NODE_ADMIT 0) 2) STBY.TEN 0x50005) STBY.CFG 1
    s.onChip (fun c => ((c.modLp 0 (fun l => { l with state := 4 })).modLp 1 (fun l => { l with state := 4 })).modSeg 0 (fun x => { x with active := true, tick := 7#64, t0 := 1000#32 }))

/-- Its segment changed. -/
  def headWith (o : Nat) (f : Seg → Seg) : State := (headAt o).onChip (fun c => c.modSeg 0 f)

/-- A frame of a type with a payload on segment 0. -/
  def fr (type : Nat) (pay : List Byte) (ok : Bool) : RxFrame := ⟨(headAt 0).chip.frame (headAt 0).tb 0 type 5 1 false 7 pay, ok, 900#32⟩

/-- A Gather whose node 1 has written its record. -/
  def gatherPay : List Byte := [0x80#8, 0#8] ++ List.replicate 18 0#8

def gath (ok : Bool) : RxFrame := fr 1 gatherPay ok

/-- R20 to R24. -/
theorem test_gatherCommands :
    ((headAt 800).chip.headOn 0 = true ∧ ((headAt 800).chip.seg 0).launched = false ∧ (headAt 800).chip.gatherOfs ≤ (headAt 800).chip.segOfs (headAt 800).tb 0 ∧ (headAt 800).chip.inTick (headAt 800).tb 0 0 = true ∧ ok (headAt 800) (.gatherLaunch 0) (fun t => (t.chip.seg 0).launched ∧ t.chip.out.length = 2 ∧ t.chip.reg (SEG.GA_TX 0) = 1800#32) ∧ same run (.gatherLaunch 0)) ∧
    ((headAt 0).chip.frameOk 0 (gath true) = true ∧ fTenure (gath true).bytes = (headAt 0).chip.tenure ∧ fTick (gath true).bytes = 7 ∧ ok (headWith 9000 (fun x => { x with launched := true })) (.gatherCopyReceive 1 false (gath true)) (fun t => (t.chip.seg 0).copyA = some ⟨true, gatherPay, 10000#32⟩ ∧ (t.chip.seg 0).aBad = none ∧ t.chip.reg (SEG.GA_END 0) = 10000#32)) ∧
    ((headAt 0).chip.frameOk 0 (gath false) = false ∧ ok (headWith 9000 (fun x => { x with launched := true })) (.gatherCopyReceive 1 false (gath false)) (fun t => (t.chip.seg 0).aBad = some 10000#32 ∧ Counted (headAt 0).chip t.chip (SEG.GATHER_DROP 0)) ∧ same run (.gatherCopyReceive 1 true (gath true)) ∧ (headAt 17000).chip.segLate 0 ≤ (headAt 17000).chip.segOfs (headAt 17000).tb 0 ∧ ok (headWith 17000 (fun x => { x with launched := true })) (.gatherCopyReceive 1 false (gath true)) (fun t => (t.chip.seg 0).aBad = some 18000#32 ∧ (t.chip.seg 0).copyA = some ⟨false, gatherPay, 18000#32⟩)) ∧
    ((headAt 9000).chip.rxTaken 1 (gath true) = true ∧ ok (headWith 9000 (fun x => { x with launched := true, copyA := some ⟨true, gatherPay, 9000#32⟩ })) (.gatherCopyReceive 1 false (gath true)) (fun t => (t.chip.seg 0).copyA = some ⟨true, gatherPay, 9000#32⟩ ∧ Counted (headAt 0).chip t.chip (SEG.GATHER_DROP 0))) ∧
    (ok (headWith 9000 (fun x => { x with copyB := some ⟨true, gatherPay, 9488#32⟩ })) (.aCopyTimeout 0) (fun t => (t.chip.seg 0).aBad = some 10000#32) ∧ same (headWith 9000 (fun x => { x with copyB := some ⟨true, gatherPay, 9489#32⟩ })) (.aCopyTimeout 0)) ∧
    ((headWith 9000 (fun x => { x with copyA := some ⟨true, gatherPay, 9488#32⟩ })).chip.returnReady (headAt 9000).tb 0 = true ∧ ok (headWith 9000 (fun x => { x with copyA := some ⟨true, gatherPay, 9488#32⟩ })) (.gatherReturn 0) (fun t => (t.chip.seg 0).returned ∧ (t.chip.seg 0).retOfs = 9000) ∧ (headAt 9000).chip.returnReady (headAt 9000).tb 0 = false ∧ same (headAt 9000) (.gatherReturn 0)) ∧
    (ok (headAt 17000) (.gatherMiss 0) (fun t => (t.chip.seg 0).missed ∧ Counted (headAt 0).chip t.chip (SEG.GATHER_MISS 0) ∧ EventSet t.chip (pgSeg 0) 0) ∧ same (headAt 16999) (.gatherMiss 0)) := by decide +kernel

/-- R27 to R30, R42, R278, R425. -/
theorem test_pourAndTray :
    (ok (headWith 9500 (fun x => { x with returned := true })) (.pourLaunch 0) (fun t => (t.chip.seg 0).poured ∧ (t.chip.seg 0).pourOfs = 9500 ∧ (t.chip.ax 3).hold = true) ∧ ok ((headWith 9500 (fun x => { x with returned := true })).onChip (fun c => c.modAx 3 (fun x => { x with img := some (List.replicate 12 1#8, 0, 6) }))) (.pourLaunch 0) (fun t => (t.chip.ax 3).hold = false ∧ (t.chip.ax 3).lastComp = 6) ∧ ok ((headWith 9500 (fun x => { x with returned := true })).onChip (fun c => c.modAx 3 (fun x => { x with holdRun := 1 }))) (.pourLaunch 0) (fun t => t.chip.rb (AXIS.STAT 3) 31 = true) ∧ same (headAt 9500) (.pourLaunch 0)) ∧
    (ok (headWith 19000 (fun x => { x with returned := true, waiting := [3] })) .pourClose (fun t => t.chip.tg.poured ∧ (t.chip.seg 0).poured) ∧ same (headAt 18999) .pourClose) ∧
    (Reaches on .pcie (AXIS.STAT 255) ∧ ok on (.fsClear .pcie 255) (fun t => t.chip.cm.units = [⟨.fsClear 255, false, 0, 0, 0#32, []⟩])) ∧
    ((headAt 19500).chip.tg.running = true ∧ (headAt 19500).chip.tg.published = false ∧ (headAt 19500).chip.pourClose + 500 ≤ (headAt 19500).chip.ofs (headAt 19500).tb ∧ same (headAt 19499) .trayPublish) ∧
    ((headAt 19500).chip.rf TRAY.HOLD 11 8 = 0 ∧ (wr (headAt 19500) TRAY.HOLD 0x101).chip.rf TRAY.HOLD 11 8 = 1 ∧ (wr (headAt 19500) TRAY.HOLD 0x801).chip.rf TRAY.HOLD 11 8 = 8) ∧
    (Reaches on .pcie TRAY.HOLD ∧ ok on (.trayHold .pcie) (fun t => t.chip.reg TRAY.HOLD = 0x801#32) ∧ same on (.trayHoldRelease .pcie) ∧ same (wr on TRAY.HOLD 0x801) (.trayHold .pcie) ∧ ok (wr on TRAY.HOLD 0x801) (.trayHoldRelease .pcie) (fun t => t.chip.reg TRAY.HOLD = 0#32)) := by decide +kernel

/-- R284, R297 to R299, R307. -/
theorem test_serviceSlots :
    (ok (headAt 27000) (.serviceSlotOpen 0) (fun t => (t.chip.seg 0).slots = 1 ∧ (t.chip.seg 0).svcAt = 28000#32 ∧ (t.chip.seg 0).svcLen = 1200 ∧ (t.chip.seg 0).svcOwners.length = 3) ∧ same (headAt 26999) (.serviceSlotOpen 0)) ∧
    ((headWith 27000 (fun x => { x with tick := 1020#64 })).chip.isBeacon 0 = true ∧ ok (headWith 27000 (fun x => { x with tick := 1020#64 })) (.modeBeacon 0) (fun t => (t.chip.seg 0).modeSent ∧ t.chip.out.length = 2) ∧ ok (headWith 27500 (fun x => { x with tick := 1020#64 })) (.modeBeacon 0) (fun t => t.chip.out = [] ∧ Counted on.chip t.chip (SEG.LAUNCH_LATE 0)) ∧ ok (headWith 28200 (fun x => { x with tick := 1020#64 })) (.modeBeacon 0) (fun t => t.chip.out = [] ∧ (t.chip.seg 0).modeSent ∧ t.chip.reg (SEG.LAUNCH_LATE 0) = 0#32) ∧ ok ((headWith 27000 (fun x => { x with tick := 1020#64 })).onChip (fun c => (c.modLp 0 (fun l => { l with txEnd := 99999999 })).modLp 1 (fun l => { l with state := 2 }))) (.modeBeacon 0) (fun t => t.chip.out = [] ∧ Counted on.chip t.chip (SEG.LAUNCH_LATE 0)) ∧ same (headAt 27000) (.modeBeacon 0)) ∧
    (ok ((headWith 27000 (fun x => { x with mca := true })).onChip (fun c => c.modTg (fun t => { t with change := some ⟨2, 11#64, 4, false, false⟩ }))) (.modeAnnounce 0) (fun t => (t.chip.seg 0).modeSent ∧ t.chip.out.length = 2) ∧ same (headAt 27000) (.modeAnnounce 0)) ∧
    ((headAt 700).chip.notAcked = some (0, 1) ∧ ok ((headAt 700).onChip (fun c => c.modTg (fun t => { t with change := some ⟨2, 8#64, 4, false, false⟩ }))) .mcDecision (fun t => t.chip.tg.change = none ∧ t.chip.rf TICK.MC_STAT 31 28 = 4 ∧ t.chip.rf TICK.MC_STAT 27 24 = 6) ∧ ok ((wr (headAt 700) (SEG.NODE_ADMIT 0) 0).onChip (fun c => c.modTg (fun t => { t with change := some ⟨2, 8#64, 4, false, false⟩ }))) .mcDecision (fun t => t.chip.tg.change = some ⟨2, 8#64, 4, false, true⟩ ∧ t.chip.rf TICK.MC_STAT 31 28 = 2) ∧ same (headAt 700) .mcDecision) := by decide +kernel

/-- A Service phase whose first slot, at 28 000, is node 1's. -/
  def svc : State := headWith 28000 (fun x => { x with svcAt := 28000#32, svcLen := 1200, svcOwners := [1, 0, 0], slots := 1 })

/-- A descriptor of node 1 with 4 axes, every mode and every capability. -/
  def goodDesc : List Byte := [0#8, 0#8, 0#8, 0#8, 0#8, 0#8, 1#8, 4#8, 64#8, 0xFF#8, 0xFF#8, 0xFF#8] ++ List.replicate 20 0#8

def rx (type : Nat) (pay : List Byte) (sof : Nat) : RxFrame := { fr type pay true with sof := BitVec.ofNat 32 sof }

/-- Node 1 has its paths known, at 0 ns. -/
  def svcUp : State := wr svc (SEG.PATH 0 0) 0

/-- Node 1 is not admitted. -/
  def svcCfg : State := wr svc (SEG.NODE_ADMIT 0) 0

/-- R284 to R286, R301, R302, R324, R326. -/
theorem test_nodeFrames :
    (svc.chip.frameOk 0 (rx 3 [1#8, 0x11#8, 0#8, 0#8] 28100) = true ∧ ok svc (.serviceFrameReceive 1 (rx 3 [1#8, 0x11#8, 0#8, 0#8] 28100)) (fun t => t.chip.reg (SEG.SVC_SOF 0) = 28100#32 ∧ t.chip.rf (SEG.SVC_INFO 0) 4 0 = 1 ∧ t.chip.reg (LP.RX_SOF 1) = 28100#32) ∧ same run (.serviceFrameReceive 1 (rx 3 [1#8, 0x11#8, 0#8, 0#8] 28100))) ∧
    (((svcUp.chip.seg 0).accepts 1 28100#32).1 = true ∧ (svcUp.chip.node 0 1).upAck = 1 ∧ svcUp.chip.path 0 1 true = 0 ∧ ok svcUp (.uplinkChunk 1 (rx 3 [1#8, 0x1D#8, 0#8, 2#8, 7#8, 8#8] 28100)) (fun t => t.chip.rb (SEG.MBX_RX_STAT 0) 31 = true ∧ t.chip.rf (SEG.MBX_RX_STAT 0) 20 16 = 1 ∧ t.chip.rf (SEG.MBX_RX_STAT 0) 10 0 = 2 ∧ (t.chip.node 0 1).upAck = 0 ∧ EventSet t.chip (pgSeg 0) 7) ∧ same svcUp (.uplinkChunk 1 (rx 6 [1#8, 0x1D#8] 28100))) ∧
    (1 ∈ svcCfg.chip.recNodes 0 ∧ svcCfg.chip.admitted 0 1 = false ∧ svcCfg.chip.descCheck 0 1 goodDesc = 0 ∧ ok svcCfg (.desc 1 (rx 6 ([1#8, 0x21#8, 0#8, 0#8] ++ goodDesc) 28100)) (fun t => (t.chip.node 0 1).descOk ∧ t.chip.nodeRefused 0 1 = false)) ∧
    (svcCfg.chip.descCheck 0 1 (List.replicate 32 0#8) = 1 ∧ ok svcCfg (.desc 1 (rx 6 ([1#8, 0x21#8, 0#8, 0#8] ++ List.replicate 32 0#8) 28100)) (fun t => t.chip.nodeRefused 0 1 = true ∧ EventSet t.chip (pgSeg 0) 14) ∧ same svcCfg (.desc 1 (rx 6 [1#8, 0x41#8] 28100))) ∧
    (ok (svcCfg.onChip (fun c => c.modNode 0 1 (fun n => { n with descOk := true, npb := List.replicate 32 3#8 }))) (.npbAck 1 (rx 6 ([1#8, 0x41#8, 0#8, 0#8] ++ List.replicate 31 3#8 ++ [0#8]) 29100)) (fun t => (t.chip.node 0 1).admitNext ∧ (t.chip.node 0 1).upAck = 1 ∧ t.chip.path 0 1 true = pathSample svcCfg.tb (rx 6 ([1#8, 0x41#8, 0#8, 0#8] ++ List.replicate 31 3#8 ++ [0#8]) 29100)) ∧ pathSample svcCfg.tb (rx 6 ([1#8, 0x41#8, 0#8, 0#8] ++ List.replicate 31 3#8 ++ [0#8]) 29100) < 0xFFFF ∧ same svcCfg (.npbAck 1 (rx 6 [1#8, 0x21#8] 28100))) ∧
    (ok ((headAt 0).onChip (fun c => c.modNode 0 1 (fun n => { n with missRun := 255 }))) (.nodeLost 0 1) (fun t => t.chip.admitted 0 1 = false ∧ t.chip.path 0 1 false = 0xFFFF ∧ EventSet t.chip (pgSeg 0) 13) ∧ same (headAt 0) (.nodeLost 0 2)) := by decide +kernel

/-- A descriptor of node 1 that lets 32 bytes into a chunk stands on the page. -/
  def mailed : State := wr (wr (wr (headAt 0) (SEG.MBX_TX 0) 0x80010010) (SEG.MBX_TX_STAT 0) 0x80000000) (SEG.MBX_TO 0) 5

/-- R286. -/
theorem test_segmentMailbox :
    (4 ≤ (wr (headAt 0) (SEG.DESC 0 2) 64).chip.chunkSize 0 1 ∧ ok (wr (headAt 0) (SEG.DESC 0 2) 64) (.mbxTxGo .pcie 0 0x80010400#32) (fun t => t.chip.mbxBusy 0 = true ∧ t.chip.rf (SEG.MBX_TX 0) 20 16 = 1 ∧ t.chip.rf (SEG.MBX_TX 0) 10 0 = 1024)) ∧
    (Reaches (headAt 0) .pcie (SEG.MBX_TX 0) ∧ (headAt 0).chip.mbxBusy 0 = false ∧ ok (headAt 0) (.mbxTxGo .pcie 0 0x80010401#32) (fun t => t.chip.mbxBusy 0 = false ∧ t.chip.rb (SEG.MBX_TX_STAT 0) 29 ∧ t.chip.rf (SEG.MBX_TX_STAT 0) 23 20 = 5 ∧ EventSet t.chip (pgSeg 0) 6)) ∧
    (mailed.chip.mbxBusy 0 = true ∧ same mailed (.mbxTxGo .pcie 0 0x80010001#32) ∧ ok mailed (.mbxTxAbort .pcie 0 0#32) (fun t => t.chip.mbxBusy 0 = false ∧ t.chip.rf (SEG.MBX_TX_STAT 0) 23 20 = 4) ∧ ok (headAt 0) (.mbxTxAbort .pcie 0 0x10009#32) (fun t => t.chip.rf (SEG.MBX_TX 0) 10 0 = 9)) ∧
    (Reaches on .pcie (SEG.MBX_RX_STAT 0) ∧ ok (wr (headAt 0) (SEG.MBX_RX_STAT 0) 0x80010002) (.mbxRxFree .pcie 0) (fun t => t.chip.reg (SEG.MBX_RX_STAT 0) = 0x10002#32)) ∧
    (ok (mailed.onChip (fun c => c.modSeg 0 (fun x => { x with mbx := { x.mbx with chunk := 4, firstTx := 2#64 } }))) (.mbxTimeout 0) (fun t => t.chip.mbxBusy 0 = false ∧ t.chip.rf (SEG.MBX_TX_STAT 0) 23 20 = 1) ∧ same (headAt 0) (.mbxTimeout 0)) ∧
    (ok (mailed.onChip (fun c => c.modSeg 0 (fun x => { x with mbx := { x.mbx with rxNode := 1, rxTick := 2#64 } }))) (.mbxRxTimeout 0) (fun t => (t.chip.seg 0).mbx.rxNode = 0 ∧ t.chip.rb (SEG.MBX_RX_STAT 0) 30 ∧ EventSet t.chip (pgSeg 0) 8) ∧ same (headAt 0) (.mbxRxTimeout 0)) := by decide +kernel

/-- The line in state `l`, with `n` ticks left of it. -/
  def lineIn (l n : Nat) : State := (wr (headAt 900) TICK.LINE_STAT (l * 2 ^ 28)).onChip (fun c => c.modTg (fun t => { t with lineLeft := n }))

def coldPay (id rank : Nat) : List Byte := beBytes 8 id ++ [0#8, BitVec.ofNat 8 rank] ++ List.replicate 20 0#8

/-- The line with its unit ID at 9, and link on port 1 alone. -/
  def unit9 (l : Nat) : State := (wr (lineIn l 2) KTL.UNIT_ID_LO 9).onChip (fun c => c.modLp 0 (fun p => { p with state := 2 }))

/-- The segment in tick `t` of a delay round. -/
  def roundAt (t : Nat) (f : Seg → Seg) : State := headWith 27000 (fun x => f { x with tick := BitVec.ofNat 64 t })

def req : RxFrame := rx 4 ([0#8, 0#8, 0#8, 31#8, 0#8, 0#8, 0#8, 50#8] ++ List.replicate 12 0#8) 27500

def resp : RxFrame := rx 4 ([0#8, 0#8, 0x10#8, 31#8, 0#8, 0#8, 0#8, 50#8, 0#8, 0#8, 0#8, 60#8, 0#8, 0#8, 0#8, 70#8] ++ List.replicate 4 0#8) 27900

/-- A standby in ALIGN whose request of port B left at 50. -/
  def aligning : State :=
    (wr (wr (roundAt 1023 (fun x => { x with dlyOn := true, dlySentB := some 50 })) TICK.LINE_STAT 0x40000000) STBY.CATCH 0).onChip (fun c => c.modStby (fun t => { t with sstate := 1, paired := true }))

/-- R314, R315, R319 to R322. -/
theorem test_startUpAndDelay_1 :
    ((lineIn 1 0).chip.startTenure ≠ 0 ∧ (lineIn 1 0).chip.role ≠ 0 ∧ ok (lineIn 1 0) .listenEnd (fun t => t.chip.lstate = 2 ∧ t.chip.tg.lineLeft = 3 ∧ EventSet t.chip pgTick 13) ∧ same (lineIn 1 1) .listenEnd ∧ same (lineIn 3 0) .extendedListenEnd) ∧
    (ok (lineIn 2 0) .coldstartEnd (fun t => t.chip.lstate = 3 ∧ t.chip.tenure = 6) ∧ same (lineIn 1 0) .coldstartEnd ∧ same (lineIn 1 0) .coldstartLaunch ∧ (lineIn 2 2).chip.runSegs = [0] ∧ ok (lineIn 2 2) .coldstartLaunch (fun t => t.chip.tg.coldSent ∧ t.chip.out.length = 2)) ∧
    ((unit9 1).chip.betterThanOwn 0 8 = true ∧ ok (unit9 1) (.coldstartReceive 1 (rx 5 (coldPay 8 0) 0)) (fun _ => true) ∧ (unit9 1).chip.frameOk 0 (rx 5 (coldPay 8 0) 0) = true ∧ (unit9 1).chip.segRun 0 = true ∧ (unit9 1).chip.hasLink 1 = true) ∧
    ((unit9 1).chip.betterThanOwn 1 8 = false ∧ ok (unit9 1) (.coldstartReceive 1 (rx 5 (coldPay 8 1) 0)) (fun _ => true) ∧ (unit9 1).chip.startTenure ≠ 0 ∧ (unit9 1).chip.role ≠ 0 ∧ (unit9 2).chip.lstate = 2) ∧
    (ok ((wr (lineIn 1 0) STBY.TEN 0xFFFF0000).onChip (fun c => c.modTg (fun t => { t with quietNs := 2100000000 }))) .extendedListenEnd (fun t => t.chip.lstate = 2 ∧ t.chip.tenureRet = 0)) ∧
    ((roundAt 1022 id).chip.isDelay1 0 = true ∧ (roundAt 1022 id).chip.delayParty 0 = true ∧ (roundAt 1022 id).chip.roundSkipped 0 = false ∧ ok (roundAt 1022 id) (.delayReqSend 0) (fun t => (t.chip.seg 0).dlyOn ∧ (t.chip.seg 0).dlySentA = some (roundAt 0 id).tb.lns ∧ t.chip.out.length = 2) ∧ same (roundAt 1023 id) (.delayReqSend 0)) ∧
    ((roundAt 1022 id).chip.delayFrame 1 0 req = true ∧ ok (roundAt 1022 id) (.delayReqReceive 1 req) (fun t => (t.chip.seg 0).dlyReqs = [⟨true, 0, 50, (roundAt 0 id).tb.lnsOf 27500#32⟩]) ∧ ok (roundAt 1022 id) (.delayReqReceive 1 resp) (fun t => t.chip.seg 0 = (roundAt 1022 id).chip.seg 0)) ∧
    ((roundAt 1023 id).chip.isDelay2 0 = true ∧ ok (roundAt 1023 (fun x => { x with dlyReqs := [⟨true, 0, 50, 60⟩] })) (.delayRespSend 0) (fun t => (t.chip.seg 0).dlyReqs = [] ∧ t.chip.out.length = 1) ∧ same (roundAt 1022 id) (.delayRespSend 0) ∧ ok ((roundAt 1023 (fun x => { x with dlyReqs := [⟨true, 0, 50, 60⟩] })).onChip (fun c => c.modLp 1 (fun l => { l with txEnd := (roundAt 0 id).tb.ext + 100 }))) (.delayRespSend 0) (fun t => t.chip.out.any (fun o => match o with | .frame 1 true l => decide (be (fPay l) 12 4 = (roundAt 0 id).tb.lns + 100) | _ => false))) := by decide +kernel

/-- R314, R315, R319 to R322. -/
theorem test_startUpAndDelay_2 :
    ((roundAt 1023 id).chip.dseq 0 = 0 ∧ ok (roundAt 1023 (fun x => { x with dlyOn := true, dlySentB := some 50 })) (.delayRespReceive 1 resp) (fun t => (t.chip.seg 0).dlyGotB ∧ t.chip.reg (SEG.HOP_B 0) = BitVec.ofNat 32 (2 ^ 31 + 2 ^ 16 * 31 + (BitVec.ofInt 16 (8 * (lnsDiff ((roundAt 0 id).tb.lnsOf 27900#32) 50 - 10))).toNat)) ∧ aligning.chip.syncPort 1 = true ∧ aligning.chip.delayParty 0 = true ∧ ok aligning (.delayRespReceive 1 { resp with bytes := aligning.chip.frame aligning.tb 0 4 5 1 false 7 ([0#8, 0#8, 0x10#8, 0#8, 0#8, 0#8, 0#8, 50#8, 0#8, 0#8, 0#8, 60#8, 0#8, 0#8, 0#8, 70#8] ++ List.replicate 4 0#8) }) (fun t => t.chip.stby.aligned ∧ (t.chip.seg 0).dlyGotB) ∧ ok (roundAt 1023 id) (.delayRespReceive 1 req) (fun t => t.chip.seg 0 = (roundAt 1023 id).chip.seg 0 ∧ t.tb = (roundAt 1023 id).tb)) := by decide +kernel

/-- Port 31 in a state, in a tick that began 1 ms after its link came up. -/
  def portIn (st : Nat) : State := { ticks with tb := { ticks.tb with cycle := 1000500 } }.onChip (fun c => (c.modTg (fun t => { t with t0Cycle := 1000000 })).modLp 31 (fun l => { l with state := st }))

/-- R330, R333, R334, R336, R337. -/
theorem test_linePorts :
    ((portIn 2).chip.phyOk = true ∧ ok (portIn 2) (.up 31) (fun _ => true) ∧ same (portIn 3) (.up 31)) ∧
    (ok (portIn 3) (.inserv 31) (fun t => (t.chip.lp 31).state = 4 ∧ EventSet t.chip (pgLp 31) 2) ∧ same (portIn 4) (.inserv 31) ∧ same ((portIn 3).onChip (fun c => c.modLp 31 (fun l => { l with upAt := 1 }))) (.inserv 31) ∧ ok (portIn 4) (.down 31 false) (fun t => t.chip.lp 31 = ⟨2, 0, 0, 0⟩ ∧ EventSet t.chip (pgLp 31) 1) ∧ same (portIn 2) (.down 31 false)) ∧
    (ok (portIn 4) (.lqUpdate 31 3 0 1 0) (fun t => t.chip.lp 31 = ⟨4, 0, 7, 0⟩) ∧ ok (portIn 4) (.lqUpdate 31 (-9) 0 1 0) (fun t => t.chip.lp 31 = ⟨4, 0, 1, 0⟩) ∧ same (portIn 1) (.lqUpdate 31 3 0 0 0)) ∧
    (Reaches (portIn 1) .pcie (LP.CABLE_CTRL 31) ∧ ok (portIn 1) (.cableGo .pcie 31) (fun t => (t.chip.lp 31).state = 6 ∧ t.chip.rb (LP.CABLE_CTRL 31) 0) ∧ ok (portIn 4) (.cableGo .pcie 31) (fun t => (t.chip.lp 31).state = 4 ∧ Counted ticks.chip t.chip (pgErrcnt (pgLp 31)))) ∧
    ((portIn 6).chip.en (pgLp 31) = false ∧ ok (portIn 6) (.cableDone 31 2 0x123) (fun t => (t.chip.lp 31).state = 1 ∧ t.chip.rf (LP.CABLE_STAT 31) 31 30 = 2 ∧ t.chip.rf (LP.CABLE_STAT 31) 15 0 = 0x123 ∧ EventSet t.chip (pgLp 31) 5) ∧ same (portIn 1) (.cableDone 31 2 5)) ∧
    (ok (portIn 4) (.rxOther 31 true 5#32) (fun t => Counted ticks.chip t.chip (LP.RX_ABORT 31) ∧ t.chip.reg (LP.RX_SOF 31) = 5#32) ∧ ok (portIn 4) (.rxOther 31 false 5#32) (fun t => Counted ticks.chip t.chip (LP.RX_OTHER 31)) ∧ same (portIn 3) (.rxOther 31 false 5#32)) := by decide +kernel

/-! ### The standby pair, local feedback, pins, capture units, door groups (statements 38, 45 to 52) -/

/-- A paired chip in LSTATE `l` and SSTATE `ss`, with its peer's SSTATE `ps`, at offset `o`. -/
  def pairAt (l ss ps o : Nat) : State :=
    (wr (wr (headAt o) STBY.CFG 0x31) TICK.LINE_STAT (l * 2 ^ 28)).onChip (fun c => c.modStby (fun t => { t with
      sl0 := true, paired := true, sstate := ss, peerSstate := ps, rxSeqs := [4] }))

def alone : State := (pairAt 4 0 0 500).onChip (fun c => c.modStby (fun t => { t with paired := false }))

/-- The messages received before, with one more. -/
  def msgIn (s : State) (f : Stby → Stby) : State := s.onChip (fun c => c.modStby (fun t => f { t with rxSeqs := (5 :: t.rxSeqs).take 64, quietNs := 0 }))

def sampledAt (o : Nat) : State := (pairAt 4 2 0 o).onChip (fun c => c.modSeg 0 (fun x => { x with sampled := true }))

def rx5 : LinkRx := ⟨5, 5, true⟩

def digested (s : State) : State := s.onChip (fun c => c.modAx 3 (fun x => { x with digestAt := 8 }))

def seal7 : Machine.Seal := ⟨7, 0, 0, [], none, 0#32⟩

/-- R347 to R352, R355, R356, R367. -/
theorem test_standbyMessages_1 :
    ((alone).chip.linkUpStby = true ∧ ok alone (.hello ⟨5, 5, false⟩ 0x256 0 9 2 3 0) (fun t => t = alone.onChip (fun c => c.trouble STBY.LINK_ERR)) ∧ same alone (.hello ⟨4, 5, true⟩ 0x256 0 9 2 4 0) ∧ same run (.sealMsg rx5 seal7 true) ∧ same alone (.entry ⟨4, 5, true⟩ (.verdict 3 1))) ∧
    (alone.chip.pairRefuse (alone.chip.rf CHIP.CHIP_ID 31 16) (alone.chip.rf CHIP.CHIP_ID 7 0) 2 = 0 ∧ ok alone (.hello rx5 (alone.chip.rf CHIP.CHIP_ID 31 16) (alone.chip.rf CHIP.CHIP_ID 7 0) 9 2 4 1) (fun t => t.chip.stby.paired ∧ t.chip.stby.refuse = 0 ∧ t.chip.stby.peerSstate = 1 ∧ t.chip.reg STBY.PEER_ID_LO = 9#32) ∧ ok alone (.hello rx5 5 0 9 2 4 1) (fun t => t.chip.stby.paired = false ∧ t.chip.stby.refuse = 1 ∧ t.chip.stby.peerSstate = 0)) ∧
    (ok alone .helloSend (fun t => t.chip.linkSeq = 1 ∧ t.chip.out.length = 1) ∧ same run .helloSend) ∧
    ((pairAt 4 2 0 500).chip.follows = true ∧ ok (pairAt 4 2 0 500) (.sealMsg rx5 seal7 true) (fun t => t = msgIn (pairAt 4 2 0 500) (fun t => { t with handover := none, sealed := some seal7 })) ∧ ok (pairAt 4 2 0 500) (.sealMsg rx5 seal7 false) (fun t => t.chip.stby.oosNext) ∧ ok (pairAt 4 2 0 500) (.entry rx5 (.verdict 3 1)) (fun t => t = msgIn (pairAt 4 2 0 500) (fun t => { t with journal := [.verdict 3 1] })) ∧ ok (pairAt 4 2 0 500) (.entry rx5 (.unit (.fsClear 3) 9 5#32 [])) (fun t => t.chip.stby.journal = [.unit (.fsClear 3) 9 5#32 []] ∧ t.chip.cm = (pairAt 4 2 0 500).chip.cm)) ∧
    (ok (pairAt 3 0 2 500) (.claim rx5 8 1) (fun t => t = msgIn (pairAt 3 0 2 500) (fun t => { t with claim := some (8, 1) })) ∧ (pairAt 4 2 0 500).chip.catchPhase = none ∧ ok (pairAt 4 2 0 500) (.tickMessage rx5 7 2 9 []) (fun t => t.chip.stby.tickSeen ∧ (t.chip.seg 0).sampled ∧ t.chip.stby.headRole = 2)) ∧
    (ok (sampledAt 9000) (.relay rx5 true 0 true 0 []) (fun t => (t.chip.seg 0).missed ∧ t.chip.stby.relayed = [0] ∧ Counted on.chip t.chip (SEG.GATHER_MISS 0)) ∧ ok (sampledAt 9000) (.relay rx5 true 0 false 0 []) (fun t => (t.chip.seg 0).returned ∧ t.chip.stby.relayed = [0]) ∧ ok (sampledAt 9000) (.relay rx5 false 0 true 0 []) (fun t => t.chip.stby.oosNext)) ∧
    (ok (pairAt 3 0 2 500) (.report rx5 0 [] []) (fun t => t = msgIn (pairAt 3 0 2 500) id) ∧ (pairAt 3 0 2 500).chip.rb STBY.CFG 5 = true ∧ (pairAt 3 0 2 500).chip.segAxes 0 = [3] ∧ (digested (pairAt 3 0 2 500)).chip.freshDigest 0 3 = true ∧ ok (digested (pairAt 3 0 2 500)) (.report rx5 0 [] [(3, 9)]) (fun t => t.chip.stby.xsCount = 1 ∧ t.chip.stby.xs.length = 1 ∧ Counted on.chip t.chip STBY.MISMATCH)) ∧
    ((wr (pairAt 4 1 0 500) STBY.CATCH 0x10000000).chip.catchPhase = some 1 ∧ ok (wr (pairAt 4 1 0 500) STBY.CATCH 0x10000000) (.catchMsg rx5 [.mem 0x1400000 [7#8, 8#8]]) (fun t => t.chip.bytes 0x1400000 2 = [7#8, 8#8]) ∧ ok (wr (pairAt 4 1 0 500) STBY.CATCH 0x10000000) (.catchMsg rx5 [.imageEnd]) (fun t => t.chip.stby.imageEnd) ∧ (wr (pairAt 4 1 0 500) STBY.CATCH 0x10000000).chip.tg.change = none ∧ ok (wr (wr (pairAt 4 1 0 500) STBY.CATCH 0x10000000) TICK.MC_STAT 0x20000001) (.catchMsg rx5 [.imageEnd]) (fun t => t.chip.stby.imageEnd ∧ t.chip.tg.change.any (fun y => decide (y.target = 1 ∧ y.confirmed = true)))) := by decide +kernel

/-- R347 to R352, R355, R356, R367. -/
theorem test_standbyMessages_2 :
    ((pairAt 3 0 1 500).chip.mayGive (.mem 0x1400000 4) = true ∧ ok (pairAt 3 0 1 500) (.catchSend [.mem 0x1400000 4]) (fun t => t.chip.linkSeq = 1 ∧ t.chip.out.length = 1) ∧ (pairAt 3 0 1 500).chip.mayGive (.axis 5) = false ∧ same (pairAt 3 0 1 500) (.catchSend [.axis 5]) ∧ same (pairAt 3 0 2 500) (.catchSend [.mem 0x1400000 4])) ∧
    (ok ((pairAt 3 0 2 500).onChip (fun c => c.modStby (fun t => { t with quietNs := 62500 }))) .standbyLinkDown (fun t => t.chip.stby.paired = false ∧ Counted on.chip t.chip STBY.LINK_DOWNS ∧ EventSet t.chip pgStby 0) ∧ same alone .standbyLinkDown ∧ ok alone (.slLaneLock 1 true) (fun t => t.chip.stby.sl1) ∧ same run (.slLaneLock 1 true)) := by decide +kernel

/-- A frame of a type from a chip with unit ID 9 and tenure `ten`. -/
  def foreign (type ten : Nat) : RxFrame := ⟨(wr (headAt 0) KTL.UNIT_ID_LO 9).chip.frame (headAt 0).tb 0 type ten 1 false 7 gatherPay, true, 900#32⟩

/-- The Pour of axis 3 with payload `pay`. -/
  def pourOf (pay : List Byte) : RxFrame := fr 2 pay true

/-- A disputed cup whose third result agrees with the head. -/
  def xs1 : Xs := ⟨3, 7#64, 0, [], 0, List.replicate 9 2#8, 1, some (List.replicate 12 1#8, 0)⟩

/-- R342, R344, R353, R355 to R358, R363, R364, R366. -/
theorem test_standbyRoles :
    ((headAt 30600).chip.guardOpen = 30600 ∧ ok (headAt 30600) .guardOpen (fun t => t.chip.tg.guarded ∧ t = (headAt 30600).onChip (fun c => c.modTg (fun t => { t with guarded := true }))) ∧ ok (pairAt 3 0 2 30600) .guardOpen (fun t => t.chip.tg.guarded ∧ t.chip.stby.sent = 0 ∧ t.chip.stby.claim = none) ∧ same (headAt 30599) .guardOpen) ∧
    ((pairAt 1 0 0 500).chip.forwards (foreign 1 5) = true ∧ ((pairAt 3 0 0 500).onChip (fun c => c.modStby (fun t => { t with deposed := true, deposedAt := 901#32 }))).chip.forwards (foreign 1 5) = false ∧ ((pairAt 3 0 0 500).onChip (fun c => c.modStby (fun t => { t with deposed := true, deposedAt := 900#32 }))).chip.forwards (foreign 1 5) = true ∧ (pairAt 1 0 0 500).chip.rxTaken 1 (foreign 1 5) = true ∧ (pairAt 1 0 0 500).chip.foreignHead 1 (foreign 1 5) = true ∧ (pairAt 1 0 0 500).chip.segRun 0 = true ∧ fType (foreign 1 5).bytes = 1 ∧ ok (pairAt 1 0 0 500) (.frameForward 1 (foreign 1 5)) (fun _ => true) ∧ fType (foreign 4 5).bytes = 4 ∧ ok (pairAt 1 0 0 500) (.frameForward 1 (foreign 4 5)) (fun t => t.chip.out = [] ∧ t.chip.lstate = 1) ∧ same ((pairAt 1 0 0 500).onChip (fun c => c.modLp 1 (fun l => { l with state := 1 }))) (.frameForward 1 (foreign 1 5))) ∧
    ((pairAt 4 2 0 9000).chip.comparing = true ∧ (wr (pairAt 4 2 0 9000) (AXIS.MAP 3) 0).chip.segAxes 0 = [] ∧ ok (wr (pairAt 4 2 0 9000) (AXIS.MAP 3) 0) (.pourCompare 1 (pourOf [])) (fun t => t.chip.stby.compared = [0] ∧ t.chip.linkSeq = 1) ∧ ((pairAt 4 2 0 9000).onChip (fun c => c.modAx 3 (fun x => { x with img := some (List.replicate 8 1#8, 0, 6) }))).chip.compareAxis 0 3 (List.replicate 12 0#8) = 2 ∧ ok ((pairAt 4 2 0 9000).onChip (fun c => c.modAx 3 (fun x => { x with img := some (List.replicate 8 1#8, 0, 6) }))) (.pourCompare 1 (pourOf (List.replicate 12 0#8))) (fun t => t.chip.stby.compared = [0] ∧ t.chip.stby.mism.map (fun e => e.1) = [3] ∧ Counted on.chip t.chip STBY.MISMATCH) ∧ same (pairAt 3 2 0 9000) (.pourCompare 1 (pourOf [])) ∧ (pairAt 4 2 0 27000).chip.frameOk 0 (fr 2 [] false) = false ∧ ok (pairAt 4 2 0 27000) (.pourCompare 1 (fr 2 [] false)) (fun t => t.chip.stby.compared = [0] ∧ t.chip.reg STBY.NOCMP = 1#32) ∧ same (pairAt 4 2 0 26999) (.pourCompare 1 (fr 2 [] false))) ∧
    ((pairAt 3 0 2 500).chip.verdictOn xs1 = 2 ∧ ok ((pairAt 3 0 2 500).onChip (fun c => c.modStby (fun t => { t with xs := [xs1] }))) (.verdict 3) (fun t => t.chip.stby.xs = [] ∧ t.chip.reg STBY.XS_LAST = 0xA0000003#32 ∧ Counted on.chip t.chip STBY.XS_STBY ∧ EventSet t.chip pgStby 3) ∧ same (pairAt 3 0 2 500) (.verdict 3)) ∧
    (((pairAt 4 2 0 500).onChip (fun c => c.modStby (fun t => { t with silentRun := 2 }))).chip.eligible = true ∧ ok ((pairAt 4 2 0 500).onChip (fun c => c.modStby (fun t => { t with silentRun := 2 }))) .takeover (fun t => t.chip.lstate = 3 ∧ t.chip.tenure = 6 ∧ t.chip.stby.sstate = 0 ∧ EventSet t.chip pgStby 4 ∧ t.tb.keep = true ∧ t.chip.stby.journal = []) ∧ same (pairAt 4 2 0 500) .takeover) ∧
    (Reaches (pairAt 3 0 2 500) .kettle STBY.CTRL ∧ ok (pairAt 3 0 2 500) (.handover .kettle) (fun t => t.chip.stby.handReq) ∧ same (pairAt 4 2 0 500) (.handover .kettle) ∧ ok (pairAt 4 3 0 500) (.rejoin .kettle) (fun t => t.chip.stby.sstate = 1 ∧ t.chip.catchPhase = some 0 ∧ EventSet t.chip pgStby 1) ∧ same (pairAt 4 2 0 500) (.rejoin .kettle)) ∧
    (Reaches on .kettle STBY.CFG ∧ ok on (.roleWrite .kettle 1#32) (fun t => t.chip.role = 1) ∧ ok (pairAt 3 0 2 500) (.roleWrite .kettle 0#32) (fun t => t.chip.role = 1 ∧ EventSet t.chip pgStby 8)) ∧
    ((headAt 500).chip.foreignHead 1 (foreign 1 6) = true ∧ ok (headAt 500) (.deposed 1 (foreign 1 6)) (fun t => t.chip.stby.deposed ∧ t.chip.rf STBY.DEPOSE 31 28 = 1 ∧ t.chip.tenure = 6 ∧ EventSet t.chip pgStby 5) ∧ (headAt 500).chip.foreignHead 1 (gath true) = false ∧ ok (headAt 500) (.deposed 1 (gath true)) (fun t => t = (headAt 500).onChip (fun c => c.rxHead (headAt 500).tb 1 (gath true))) ∧ ok (headAt 500) (.oldTenure 1 (foreign 1 4)) (fun t => Counted on.chip t.chip STBY.OLD_TENURE) ∧ ok (pairAt 4 2 0 500) (.oldTenure 1 (foreign 1 4)) (fun t => t = (pairAt 4 2 0 500).onChip (fun c => c.rxHead (headAt 500).tb 1 (foreign 1 4)))) := by decide +kernel

/-- Channel 15 enabled, with `cfg` in LF_CFG. -/
  def lfAt (cfg : Nat) : State := wr (wr ticks (pgCtrl (pgLf 15)) 1) (LF.LF_CFG 15) cfg

/-- The next empty step of the chip, 1 000 ns on, with transitions that wait on channel 15. -/
  def pendAt (cfg : Nat) (l : List LfPend) (f : Lf → Lf := id) : State :=
    let s := (lfAt cfg).onChip (fun c => c.modLf 15 (fun x => f { x with pend := l }))
    { s with tb := { s.tb with half := true, ext := 1000 } }

/-- A transition of an input at an instant. -/
  def tr (i t cfg : Nat) : LfPend := ⟨i, ⟨BitVec.ofNat 32 t, t, []⟩, BitVec.ofNat 32 cfg, true⟩

/-- The inputs of the transitions that wait on channel 15. -/
  def waiting (t : State) : List Nat := (t.chip.lf 15).pend.map (fun x => x.inp)

/-- An illegal transition that leaves no change of the count. -/
  def quadErr (t : State) (a b : Bool) : Bool :=
    decide ((t.chip.lf 15).a = a ∧ (t.chip.lf 15).b = b ∧ (t.chip.lf 15).err ∧ Counted on.chip t.chip (LF.ERR_QUAD 15) ∧ EventSet t.chip (pgLf 15) 3 ∧ t.chip.reg (LF.COUNT_LIVE 15) = 0#32 ∧ (t.chip.lf 15).pend = [])

/-- R209, R211 to R213, R226, R227. -/
theorem test_localFeedback_1 :
    (ok (lfAt 4) (.countedEdge 15 true false) (fun t => (t.chip.lf 15).pend.map (fun x => (x.inp, x.e.stamp, x.e.ext, x.cfg, x.en)) = [(0, 2000#32, 0, 4#32, true)] ∧ t.chip.regs = (lfAt 4).chip.regs) ∧ ok (lfAt 4) (.countedEdge 15 false true) (waiting · = [1]) ∧ ok (lfAt 4) (.countedEdge 15 true true) (waiting · = [1, 0]) ∧ ok (lfAt 4) (.idx 15 true) (waiting · = [2]) ∧ same (lfAt 4) (.countedEdge 15 false false) ∧ same (lfAt 4) (.idx 15 false)) ∧
    (ok (lfAt 2) (.errQuad 15 true false) (waiting · = [4]) ∧ ok (lfAt 2) (.errQuad 15 false true) (waiting · = [5]) ∧ ok (lfAt 2) (.errQuad 15 false false) (waiting · = [3]) ∧ ok (lfAt 2) (.errQuad 15 true true) (waiting · = [1, 0]) ∧ ok (lfAt 0x102) (.errQuad 15 true false) (waiting · = [0]) ∧ ok (lfAt 0) (.errQuad 15 true false) (waiting · = [0]) ∧ ok on (.errQuad 15 true false) (waiting · = [0])) ∧
    (ok (pendAt 0x104 [tr 0 997 0x104]) (.countedEdge 15 false false) (waiting · = []) ∧ ok (pendAt 0x100 [tr 2 997 0x100]) (.idx 15 false) (waiting · = [])) ∧
    ((pendAt 4 [tr 0 997 4]).chip.coreRuns = true ∧ stepOk (pendAt 4 [tr 0 997 4]) (fun t => waiting t = [0] ∧ t.chip.regs = (lfAt 4).chip.regs) ∧ lfEdge 4 false false true false = some true ∧ stepOk (pendAt 4 [tr 0 996 4]) (fun t => t.chip.reg (LF.COUNT_LIVE 15) = 1#32 ∧ (t.chip.lf 15).down = false ∧ (t.chip.lf 15).stamp = 996#32 ∧ (t.chip.lf 15).a ∧ waiting t = []) ∧ stepOk (pendAt 12 [tr 0 996 12]) (fun t => t.chip.reg (LF.COUNT_LIVE 15) = 0xFFFFFFFF#32 ∧ (t.chip.lf 15).down)) ∧
    (((pendAt 4 [tr 0 996 4] (fun l => { l with edgeAt := some 981 })).chip.lf 15).edgeAt = some 981 ∧ (tr 0 996 4).e.ext < 981 + 16 ∧ stepOk (pendAt 4 [tr 0 996 4] (fun l => { l with edgeAt := some 980 })) (fun t => (t.chip.lf 15).err = false ∧ t.chip.reg (LF.COUNT_LIVE 15) = 1#32)) ∧
    (stepOk (wr (wr (wr (pendAt 4 [tr 0 996 4]) (LF.CMP_CTRL 15) 0x80000001) (LF.CMP 15) 1) (LF.PITCH 15) 10) (fun t => t.chip.reg (LF.HITS 15) = 1#32 ∧ t.chip.reg (LF.CMP 15) = 11#32 ∧ EventSet t.chip (pgLf 15) 0) ∧ stepOk (wr (wr (pendAt 4 [tr 0 996 4]) (LF.CMP_CTRL 15) 0x80000001) (LF.CMP 15) 2) (fun t => t.chip.reg (LF.HITS 15) = 0#32 ∧ t.chip.reg (LF.CMP 15) = 2#32)) ∧
    (lfEdge 3 false false false true = none ∧ stepOk (pendAt 3 [tr 1 996 3]) (fun t => (t.chip.lf 15).b ∧ t.chip.regs = (lfAt 3).chip.regs) ∧ stepOk (pendAt 4 [{ tr 0 996 4 with en := false }]) (fun t => (t.chip.lf 15).a ∧ t.chip.regs = (lfAt 4).chip.regs)) ∧
    (stepOk (pendAt 2 [tr 0 996 2] (fun l => { l with atB := some 993 })) (quadErr · true false) ∧ stepOk (pendAt 2 [tr 0 993 2, tr 1 996 2]) (quadErr · true true) ∧ stepOk (pendAt 2 [tr 4 996 2]) (quadErr · true false) ∧ stepOk (pendAt 2 [tr 3 996 2]) (quadErr · false false)) := by decide +kernel

/-- R209, R211 to R213, R226, R227. -/
theorem test_localFeedback_2 :
    (ok ((lfAt 2).onChip (fun c => c.modLf 15 (fun l => { l with pulseEnd := some 0 }))) (.comparePulseEnd 15) (fun t => (t.chip.lf 15).pulseEnd = none ∧ t.chip.rb (LF.CMP_STAT 15) 1 = false) ∧ same (lfAt 2) (.comparePulseEnd 15)) ∧
    (stepOk (wr (wr (pendAt 0x10 [tr 2 996 0x10]) (LF.COUNT_LIVE 15) 7) (LF.LF_CTRL 15) 2) (fun t => t.chip.reg (LF.IDX_COUNT 15) = 7#32 ∧ t.chip.reg (LF.IDX_STAMP 15) = 996#32 ∧ t.chip.reg (LF.COUNT_LIVE 15) = 0#32 ∧ (t.chip.lf 15).clr ∧ EventSet t.chip (pgLf 15) 1) ∧ stepOk (wr (wr (pendAt 0x10 [tr 2 996 0x10] (fun l => { l with armAt := 997 })) (LF.COUNT_LIVE 15) 7) (LF.LF_CTRL 15) 2) (fun t => t.chip.reg (LF.COUNT_LIVE 15) = 7#32 ∧ (t.chip.lf 15).idx) ∧ stepOk (pendAt 0 [tr 2 996 0]) (fun t => (t.chip.lf 15).z ∧ (t.chip.lf 15).idx = false)) ∧
    (Reaches on .pcie (LF.LF_CTRL 15) ∧ on.chip.auto (pgLf 15) = false ∧ ok on (.zclrArm .pcie 15 1#32) (fun t => t.chip.rb (LF.LF_CTRL 15) 1 ∧ t.chip.cm.staged = [(LF.LF_CTRL 15, some 3#32)])) ∧
    (Reaches on .pcie (LF.CMP 15) ∧ ok on (.cmpWrite .pcie 15 1#32) (fun t => t.chip.reg (LF.CMP 15) = 1#32) ∧ ok on (.cmpWrite .pcie 15 0#32) (fun t => t.chip.rb (LF.CMP_STAT 15) 0 ∧ EventSet t.chip (pgLf 15) 2) ∧ Reaches on .pcie (LF.CMP_CTRL 15) ∧ ok (wr on (LF.CMP 15) 1) (.cmpEnable .pcie 15 1#32) (fun t => t.chip.rb (LF.CMP_CTRL 15) 31 ∧ t.chip.rb (LF.CMP_STAT 15) 0 = false) ∧ ok on (.cmpEnable .pcie 15 1#32) (fun t => t.chip.rb (LF.CMP_CTRL 15) 31 ∧ t.chip.rb (LF.CMP_STAT 15) 0 ∧ EventSet t.chip (pgLf 15) 2)) ∧
    (Reaches (pendAt 4 [tr 0 999 4]) .pcie (LF.CMP 15) ∧ ok (pendAt 4 [tr 0 999 4]) (.cmpWrite .pcie 15 2#32) (fun t => t.chip.reg (LF.CMP 15) = 2#32 ∧ t.chip.reg (LF.CMP_STAT 15) = 0#32) ∧ ok (pendAt 4 [tr 0 999 4]) (.cmpWrite .pcie 15 1#32) (fun t => t.chip.rb (LF.CMP_STAT 15) 0 ∧ EventSet t.chip (pgLf 15) 2)) := by decide +kernel

/-- Pin 47 with its bank's supply, MINPW 1 and the given state. -/
  def pinAt (x : Pin) : State := (wr ticks (epCfg 47) 1).onChip (fun c => { c.modPin 47 (fun _ => x) with vsense := [(5, 2)] })

/-- The state at an unwrapped instant. -/
  def lateBy (k : Nat) (s : State) : State := { s with tb := { s.tb with ext := k } }

/-- R395 to R400. -/
theorem test_eventPins :
    ((pinAt Pin.reset).chip.pinLive 47 = true ∧ ok (pinAt Pin.reset) (.padTransition 47 true) (fun t => (t.chip.pin 47).begun.any (fun e => decide (e.stamp = 2000#32 ∧ e.ext = 0)) ∧ t.chip.rb (epStat 47) 7) ∧ same on (.padTransition 47 true) ∧ same on (.pulseAccept 47)) ∧
    (ok (lateBy 7 (pinAt { Pin.reset with begun := some ⟨1993#32, 0, []⟩ })) (.padTransition 47 false) (fun t => (t.chip.pin 47).begun = none ∧ t.chip.rf (EP.CNT 5 7) 15 0 = 1)) ∧
    (ok (lateBy 8 (pinAt { Pin.reset with begun := some ⟨1992#32, 0, []⟩ })) (.pulseAccept 47) (fun t => (t.chip.pin 47).acc ∧ t.chip.filt 47 ∧ t.chip.reg (EP.STAMP 5 7) = 1992#32 ∧ t.chip.srcLevel 47) ∧ same (pinAt Pin.reset) (.pulseAccept 47)) ∧
    (ok (lateBy 1000 (wr (wr (pinAt { Pin.reset with recent := [0] }) (epStat 47) 0x808000) (EP.STR0 5 7) 0x10080)) (.chatterAutoRelease 47) (fun t => t.chip.chat 47 = false ∧ t.chip.filt 47 = false) ∧ same (lateBy 999 (wr (wr (pinAt { Pin.reset with recent := [0] }) (epStat 47) 0x808000) (EP.STR0 5 7) 0x10080)) (.chatterAutoRelease 47) ∧ same (pinAt Pin.reset) (.chatterAutoRelease 47)) ∧
    (Reaches on .pcie (EP.EP_CTRL 5) ∧ ok (wr (pinAt Pin.reset) (epStat 47) 0x808000) (.chRelease .pcie 5 0x80#32) (fun t => t.chip.chat 47 = false ∧ t.chip.filt 47 = false) ∧ same (pinAt Pin.reset) (.chRelease .pcie 5 0x100#32)) ∧
    (ok (lateBy 1000000 (wr (wr (pinAt Pin.reset) (epStat 47) 0x8000) (EP.STR1 5 7) 1)) (.stuck 47) (fun t => t.chip.stuck 47 ∧ (t.chip.pin 47).told ∧ EventSet t.chip (pgEp 5) 23) ∧ same (pinAt Pin.reset) (.stuck 47)) ∧
    (ok on (.bankSupplyChange 5 2) (fun t => t.chip.vsense = [(5, 2), (6, 1)] ∧ t.chip.pins = on.chip.pins ∧ t.chip.src = on.chip.src) ∧ ok on (.bankSupplyChange 6 2) (fun t => t.chip.bankLevel 6 = 2 ∧ t.chip.regs = on.chip.regs) ∧ ok on (.bankSupplyChange 6 0) (fun t => 0 ∈ t.chip.rst.held ∧ t.chip.bankLevel 6 = 0) ∧ ok (wr (pinAt { Pin.reset with acc := true }) (epStat 47) 0x8080) (.bankSupplyChange 5 0) (fun t => t.chip.reg (EP.EP_STAT 5) = 0#32 ∧ t.chip.pin 47 = Pin.reset ∧ t.chip.pinLive 47 = false)) := by decide +kernel

/-- Unit 15 in a state, sampling a Tray field at the FAST base, with four pages. -/
  def cuAt (st : Nat) : State := (wr (wr (wr ticks (CU.ALLOC 15) 0x40000) (CU.RATE 15) 0x80000001) (CU.TRIG 15) 0).onChip (fun c => c.modCu 15 (fun u => { u with state := st }))

/-- An idle unit of the TICK base, in the nanosecond of a publication that the chip has made. -/
  def pubArm : State :=
    (wr (wr (wr (cuAt 0) (CU.SRC 15) 0x40000000) (CU.RATE 15) 2) TRAY.PUB_FAST 2000).onChip (fun c =>
      { c.modTg (fun t => { t with published := true }) with tray := { c.tray with latest := some 0 } })

/-- An idle unit with a source and a rate of the FAST base, at an instant. -/
  def armAt (o : Nat) : State :=
    let s := wr (wr (cuAt 0) (CU.SRC 15) 0x40000000) (CU.RATE 15) 0x80000002
    { s with tb := { s.tb with fast := BitVec.ofNat 32 o } }

/-- R374, R376 to R378, R381 to R383. -/
theorem test_captureUnits :
    (Reaches (cuAt 0) .pcie (CU.CU_CTRL 15) ∧ Reaches (cuAt 0) .pcie (CU.MARK 15) ∧ ok (cuAt 3) (.arm .pcie 15 0#32) (fun t => t.chip.rf (CU.CU_STAT 15) 31 28 = 7 ∧ EventSet t.chip (pgCu 15) 2) ∧ ok (cuAt 3) (.stop .pcie 15 0#32) (fun t => (t.chip.cu 15).state = 4 ∧ EventSet t.chip (pgCu 15) 1) ∧ ok (cuAt 0) (.stop .pcie 15 0#32) (fun t => (t.chip.cu 15).state = 0)) ∧
    (ok (cuAt 4) (.clear .pcie 15 0#32) (fun t => (t.chip.cu 15).state = 0) ∧ ok (cuAt 3) (.clear .pcie 15 0#32) (fun t => (t.chip.cu 15).state = 3) ∧ ok (wr (wr (cuAt 3) (CU.CU_STAT 15) 0x40) (CU.MARK 15) 5) (.rewind .pcie 15 0#32) (fun t => t.chip.reg (CU.RD_SEQ 15) = 5#32) ∧ ok (cuAt 3) (.rewind .pcie 15 0#32) (fun t => t.chip.rf (CU.CU_STAT 15) 31 28 = 9)) ∧
    (ok (cuAt 1) (.force .pcie 15 0#32) (fun t => (t.chip.cu 15).state ≠ 1 ∧ t.chip.reg (CU.TRIG_STAMP 15) = 2000#32 ∧ EventSet t.chip (pgCu 15) 0 ∧ t.chip.srcLevel 0x67) ∧ ok (cuAt 3) (.force .pcie 15 0#32) (fun t => (t.chip.cu 15).state = 3)) ∧
    (ok (wr (wr (cuAt 3) (CU.WR_SEQ 15) 9) (CU.FILL 15) 5) (.markWrite .pcie 15 4#32) (fun t => t.chip.reg (CU.MARK 15) = 4#32 ∧ t.chip.rb (CU.CU_STAT 15) 6) ∧ ok (wr (wr (cuAt 3) (CU.WR_SEQ 15) 9) (CU.FILL 15) 5) (.markWrite .pcie 15 3#32) (fun t => t.chip.rf (CU.CU_STAT 15) 31 28 = 8)) ∧
    (same { cuAt 3 with tb := { ticks.tb with fast := 2001#32 } } .fastObservation ∧ ok (cuAt 3) .fastObservation (fun t => (t.chip.cu 15).state = 3 ∧ (t.chip.cu 15).obs = 1 ∧ (t.chip.cu 15).obsAt = (cuAt 3).tb.cycle + 1)) ∧
    (same (cuAt 3) .drainBlock ∧ (wr (wr (cuAt 3) (CU.CU_CTRL 15) 0x20) (CU.WR_SEQ 15) 40).chip.drainNext = some 15 ∧ (wr on (pgCtrl (pgSf 2)) 1).chip.sfRoom 2 33 = true ∧ ok (wr (wr (wr (cuAt 3) (CU.CU_CTRL 15) 0x20) (CU.WR_SEQ 15) 40) (pgCtrl (pgSf 2)) 1) .drainBlock (fun t => t.chip.drained = 15 ∧ (t.chip.sf 2).fifo.length = 33 ∧ t.chip.reg (CU.RD_SEQ 15) = 32#32)) ∧
    (((armAt 2000).chip.setF (CU.CU_CTRL 15) 5 5 0).armCheck 15 = 0 ∧ ok (armAt 2000) (.arm .pcie 15 0#32) (fun t => (t.chip.cu 15).armAt = (armAt 2000).tb.ext ∧ (t.chip.cu 15).obs = 1 ∧ (t.chip.cu 15).alloc = (0, 4) ∧ (t.chip.cu 15).obsAt = (armAt 2000).tb.cycle + 1) ∧ ok pubArm (.arm .pcie 15 0#32) (fun t => (t.chip.cu 15).obs = 1 ∧ (t.chip.cu 15).obsAt = pubArm.tb.cycle + 1) ∧ ok (armAt 2001) (.arm .pcie 15 0#32) (fun t => (t.chip.cu 15).state = 3 ∧ (t.chip.cu 15).obs = 0 ∧ t.chip.reg (CU.TRIG_SEQ 15) = 0xFFFFFFFF#32)) ∧
    (ok (wr (cuAt 0) (CU.ALLOC 15) 0) (.arm .pcie 15 0#32) (fun t => t.chip.rf (CU.CU_STAT 15) 31 28 = ((wr (cuAt 0) (CU.ALLOC 15) 0).chip.setF (CU.CU_CTRL 15) 5 5 0).armCheck 15 ∧ (t.chip.cu 15).state = 0)) := by decide +kernel

/-- Door group 31 enabled, in a state. -/
  def doors (st : Nat) : State := wr (wr ticks (pgCtrl (pgSeq 31)) 1) (SEQ.STAT 31) (st * 2 ^ 28)

/-- R244 to R248, R256. -/
theorem test_doorGroupCommands :
    ((doors 0).chip.membersOf 31 = [] ∧ (doors 3).chip.seqState 31 = 3 ∧ ok (doors 3) (.isolate 31) (fun t => t.chip.seqState 31 = 15 ∧ t.chip.reg (SEQ.ENTRY_TICK 31) = 7#32 ∧ EventSet t.chip (pgSeq 31) 0) ∧ ok (doors 0) (.openDoors 31) (fun t => t.chip.seqState 31 = 1 ∧ (t.chip.grp 31).demand = some true)) ∧
    (ok (doors 4) (.openDoors 31) (fun t => t.chip.seqState 31 = 5 ∧ t.chip.rf (SEQ.STAT 31) 27 24 = 10 ∧ t.chip.rf (SEQ.STAT 31) 3 0 = 4) ∧ ok (doors 3) (.closeDoors 31) (fun t => t.chip.seqState 31 = 4)) ∧
    (ok (doors 15) (.restore 31) (fun t => t.chip.seqState 31 ∈ [0, 3, 8]) ∧ ok (doors 8) (.seqReset 31) (fun t => t.chip.seqState 31 ∈ [0, 3, 8]) ∧ ok (doors 15) (.seqReset 31) (fun t => t.chip.seqState 31 = 15 ∧ Counted on.chip t.chip (SEQ.CMD_IGN 31))) ∧
    (on.chip.en (pgSeq 31) = false ∧ same on (.openDoors 31) ∧ same on (.closeDoors 31) ∧ same on (.isolate 31) ∧ same on (.restore 31) ∧ same on (.seqReset 31) ∧ ok (on.onChip (fun c => c.storeLE (0x1400000 + 7 * 0x80000 + c.svcArea 7 47 1 + 0x650) 4 5)) (.learnReset 31) (fun t => t.chip.mem = [] ∧ t.chip.regs = on.chip.regs)) := by decide +kernel

/-- R472 to R474, R479: a power-up, a refused power-down, the ends of a transition, locks and supplies. -/
theorem test_powerAndClocks :
    ((wr (wr on PWR.DOM_ON 0xFFF7) PWR.DOM_REQ 0xFFF7).chip.rst.ramp = none ∧ (wr (wr on PWR.DOM_ON 0xFFF7) PWR.DOM_REQ 0xFFF7).chip.rst.filling = [] ∧ (∀ e, e < 16 → (wr (wr on PWR.DOM_ON 0xFFF7) PWR.DOM_REQ 0xFFF7).chip.domOn e = (wr (wr on PWR.DOM_ON 0xFFF7) PWR.DOM_REQ 0xFFF7).chip.domReq e) ∧ Reaches (wr (wr on PWR.DOM_ON 0xFFF7) PWR.DOM_REQ 0xFFF7) .kettle PWR.DOM_REQ ∧ ok (wr (wr on PWR.DOM_ON 0xFFF7) PWR.DOM_REQ 0xFFF7) (.domReqWrite .kettle 0xFFFF#32) (fun t => t.chip.domReq 3 ∧ t.chip.domOn 3 = false ∧ t.chip.rst.ramp = some (3, true))) ∧
    (Reaches run .kettle PWR.DOM_REQ ∧ run.chip.tg.running ∧ ok run (.domReqWrite .kettle 0xFFFB#32) (fun t => t.chip.domReq 2 ∧ t.chip.rst.ramp = none ∧ t.chip.reg PWR.LAST_REF = 0x20000002#32 ∧ Counted on.chip t.chip PWR.REFUSED ∧ EventSet t.chip pgPwr 2) ∧ ok on (.domReqWrite .kettle 0xFFFB#32) (fun t => (List.range 16).all (fun e => t.chip.domReq e = decide (e < 2)) ∧ t.chip.rst.ramp = some (15, false) ∧ t.chip.domOn 2) ∧ ok (wr (wr on PWR.DOM_ON 7) PWR.DOM_REQ 7) (.domReqWrite .kettle 3#32) (fun t => t.chip.rst.ramp = some (2, false) ∧ t.chip.domOn 2 = false)) ∧
    (ok ((wr on PWR.DOM_ON 0xFFFB).onChip (fun c => { c with rst := { c.rst with ramp := some (2, true) } })) .domainTransitionDone (fun t => t.chip.domOn 2 ∧ t.chip.rst.ramp = none ∧ EventSet t.chip pgPwr 0)) ∧
    (ok ((wr (wr on PWR.DOM_ON 0x7FFF) PWR.DOM_REQ 0x7FFF).onChip (fun c => { c with rst := { c.rst with ramp := some (15, false) } })) .domainTransitionDone (fun t => t.chip.domOn 15 = false ∧ t.chip.rst.ramp = none ∧ EventSet t.chip pgPwr 1) ∧ same on .domainTransitionDone) ∧
    (on.chip.pllLocked 0 ∧ on.chip.pllLocked 4 ∧ ok (wr on HOSTIF.LINK 1) (.pllUnlock 2) (fun t => 2 ∈ t.chip.rst.unlocked ∧ t.chip.reg HOSTIF.LINK = 0#32 ∧ Counted on.chip t.chip (CLK.UNLOCK 2) ∧ EventSet t.chip pgClk 2) ∧ ok on (.pllUnlock 0) (fun t => t.chip.rb CLK.HOLDOVER 0) ∧ ok (on.onChip (fun c => c.modStby (fun t => { t with sl1 := true }))) (.pllUnlock 4) (fun t => t.chip.stby.sl1 = false)) ∧
    ((headAt 500).chip.hasLink 1 ∧ ok (headAt 500) (.pllUnlock 3) (fun _ => true) ∧ ok (headAt 500) (.supplyLoss 2 false) (fun _ => true) ∧ ok (wr on HOSTIF.LINK 1) (.supplyLoss 0 false) (fun t => t.chip.reg HOSTIF.LINK = 0#32)) ∧
    (ok (wr (on.onChip (fun c => { c with rst := { c.rst with unlocked := [0, 1], lost := [0, 2] } })) CLK.HOLDOVER 1) (.pllRelock 0) (fun t => t.chip.rst.unlocked = [1] ∧ t.chip.reg CLK.HOLDOVER = 0#32) ∧ ok (on.onChip (fun c => { c with rst := { c.rst with unlocked := [0, 1], lost := [0, 2] } })) (.supplyLoss 2 true) (fun t => t.chip.rst.lost = [0]) ∧ same (on.onChip (fun c => { c with rst := { c.rst with unlocked := [0, 1] } })) (.pllUnlock 0) ∧ same on (.pllRelock 0)) := by decide +kernel

/-- What every reset leaves (R476). -/
  def fresh (t : State) (k : Nat) : Bool := decide (k ∈ t.chip.rst.held ∧ t.chip.rst.kettleUp = false ∧ t.chip.rb RST.SEEN k = true ∧ t.chip.tg = TickGen.reset ∧ t.chip.mem = [] ∧ t.chip.reg PWR.DOM_ON = 3#32 ∧ t.tb.fast = 0#32 ∧ t.ktl.upd = none)

/-- The chip `run` with a byte of memory and an update under way. -/
  def used : State := { run with chip := run.chip.setBytes 0x1400000 [7#8], ktl := { run.ktl with upd := some ⟨1, 0, 512, 0⟩, otp := { run.ktl.otp with unitId := 5#40 } } }

/-- The chip `run` long after the release of the Kettle, in a holdover. -/
  def late : State := { wr run CLK.HOLDOVER 1 with tb := { run.tb with up := 20000000000 } }

/-- A chip in a thermal reset with one sensor at 130 degrees. -/
  def hot : State := wr (run.onChip (fun c => { c with rst := { c.rst with held := [1], worst := 1 } })) (SENS.TS 3) 1040

/-- R455, R461, R476 to R479: each source, the release, and the release of the Kettle. -/
theorem test_resetSources :
    (domainOf (HOSTIF.MSIX_TABLE 0) = 1 ∧ ok (wr on (HOSTIF.MSIX_TABLE 0) 7) .therm (fun t => t.chip.reg (HOSTIF.MSIX_TABLE 0) = 7#32) ∧ ok used .therm (fresh · 1) ∧ ok used .borCore (fresh · 2) ∧ ok used .refclkLoss (fresh · 3) ∧ ok used .pin (fresh · 5) ∧ ok used .chiprst (fresh · 6)) ∧
    (ok late .holdoverTimeout (fresh · 4) ∧ same used .holdoverTimeout ∧ Reaches used .kettle KTL.CTRL ∧ ok used (.ktlCtrlReset .kettle) (fresh · 7) ∧ ok late .wdogStart (fresh · 8) ∧ same (late.onChip (fun c => c.setKstate 2)) .wdogStart) ∧
    (ok (wr used EVX.LEN_LO 9) .por (fun t => fresh t 0 ∧ t.chip.rst.held = [0] ∧ t.tb = TimeBase.reset ∧ t.chip.unitId = 5 ∧ t.chip.reg EVX.LEN_LO = 0#32 ∧ t.chip.cm = Commit.reset) ∧ ok (used.onChip (fun c => { c with rst := { c.rst with held := [5] } })) .por (fun t => t.chip.rst.held = [0, 5] ∧ t.chip.rb RST.SEEN 5) ∧ ok (used.onKtl (fun k => { k with otp := { k.otp with chipId := 0x025710A1#32 } })) .por (fun t => t.chip.m128 = true → t.chip.axHome 5 = 1)) ∧
    (ok (run.onChip (fun c => { c with rst := { c.rst with held := [5], worst := 5 } })) (.resetRelease 5) (fun t => t.chip.rst.held = [] ∧ t.chip.reg RST.LAST = 0x50000000#32) ∧ same run (.resetRelease 5) ∧ hot.chip.cool = false ∧ same hot (.resetRelease 1) ∧ ok (wr hot (SENS.TS 3) 1039) (.resetRelease 1) (fun t => t.chip.rst.held = [])) ∧
    (ok { State.reset with tb := { State.reset.tb with up := 1000000 } } .kettleResetRelease (fun t => t.chip.rst.kettleUp ∧ t.chip.rst.kettleAt = 1000000) ∧ ok { State.reset with tb := { State.reset.tb with up := 1000000 }, ktl := { State.reset.ktl with otp := { State.reset.ktl.otp with errs := [(3, true)] } } } .kettleResetRelease (fun t => t.chip.kstate = 3 ∧ t.chip.rf KTL.BOOT 27 24 = 4) ∧ ok (wr { State.reset with tb := { State.reset.tb with up := 1000000 } } KTL.BOOT 4) .kettleResetRelease (fun t => t.chip.kstate = 3 ∧ t.chip.rf KTL.BOOT 27 24 = 5) ∧ same State.reset .kettleResetRelease ∧ same run .kettleResetRelease) := by decide +kernel

/-- FIFO `n` enabled with the command sink on, and one word. -/
  def sfAt (n : Nat) (w : DWord) (e : Nat) : State := (wr (wr run (pgCtrl (pgSf n)) 1) (SF.SF_CFG n) 1).onChip (fun c => c.modSf n (fun f => { f with fifo := [(w, e)] }))

/-- R387 to R393: pushes, reads, FLUSH, RESUME and each word of the command sink. -/
theorem test_streamFifos_1 :
    (Reaches run .pcie (SF.DATA_LO 1) ∧ ok run (.dataLoWrite .pcie 1 5#32) (fun t => (t.chip.port .pcie).data = [(1, some 5#32)] ∧ (t.chip.port .pcie).held = none) ∧ Reaches run .pcie (SF.DATA_LO 3) ∧ same run (.dataLoWrite .pcie 3 5#32) ∧ Reaches run .pcie (SF.DATA_HI 3) ∧ same run (.dataHiWrite .pcie 3 5#32)) ∧
    (ok ((wr run (pgCtrl (pgSf 1)) 1).onChip (fun c => c.modPort .pcie (fun t => { t with data := [(1, some 5#32)] }))) (.dataHiWrite .pcie 1 6#32) (fun t => (t.chip.sf 1).fifo = [(0x600000005#64, 0)] ∧ (t.chip.port .pcie).data = [])) ∧
    (ok (run.onChip (fun c => c.modPort .pcie (fun t => { t with data := [(1, some 5#32)] }))) (.dataHiWrite .pcie 1 6#32) (fun t => t.chip.sfs = run.chip.sfs ∧ Counted run.chip t.chip (SF.OVERRUN 1) ∧ EventSet t.chip (pgSf 1) 2) ∧ ok run (.dataHiWrite .pcie 1 6#32) (fun t => Counted run.chip t.chip (SF.PAIR_ERR 1))) ∧
    (ok (sfAt 3 0x700000006#64 0) (.dataLoRead .pcie 3) (fun t => (t.chip.port .pcie).rdata = 6#32 ∧ t.chip.latched .pcie (SF.DATA_HI 3) = some 7#32 ∧ (t.chip.sf 3).fifo = []) ∧ ok (sfAt 3 0x700000006#64 2) (.dataLoRead .pcie 3) (fun t => (t.chip.port .pcie).rdata = 0#32) ∧ ok run (.dataLoRead .pcie 2) (fun t => Counted run.chip t.chip (SF.UNDERRUN 2))) ∧
    (Reaches (sfAt 1 0#64 0) .pcie (SF.SF_CTRL 1) ∧ ok (sfAt 1 0#64 0) (.flush .pcie 1) (fun t => (t.chip.sf 1).fifo = []) ∧ ok (wr (sfAt 1 0#64 0) (SF.SF_STAT 1) 6) (.resume .pcie 1) (fun t => t.chip.rb (SF.SF_STAT 1) 1 = false)) ∧
    ((sfAt 1 0#64 0).chip.sinkReady 1 ∧ ok (sfAt 1 0#64 0) (.streamNop 1) (fun t => (t.chip.sf 1).fifo = [] ∧ t.chip.reg (SF.WORDS 1) = 1#32) ∧ same (sfAt 1 0x2000000000000001#64 0) (.streamNop 1)) ∧
    (Reaches (sfAt 1 0x2000000000008000#64 0) .sink1 CHIP.COMMIT ∧ ok ((sfAt 1 0x2000000000000001#64 0).onChip (fun c => { c with cm := { c.cm with staged := [(EVX.LEN_LO, some 5#32)] } })) (.streamCommit 1) (fun t => t.chip.cm.staged = [] ∧ (t.chip.sf 1).fifo = [])) ∧
    (ok (sfAt 1 0x3000000000000008#64 0) (.waitTick 1) (fun t => (t.chip.sf 1).fifo = [] ∧ (t.chip.sf 1).wait = some 8#32) ∧ ok (sfAt 1 0x3000000000000007#64 0) (.waitTick 1) (fun t => (t.chip.sf 1).fifo = [] ∧ (t.chip.sf 1).wait = none)) := by decide +kernel

/-- R387 to R393: pushes, reads, FLUSH, RESUME and each word of the command sink. -/
theorem test_streamFifos_2 :
    (ok (run.onChip (fun c => c.modSf 1 (fun f => { f with wait := some 7#32 }))) (.waitTickDone 1) (fun t => (t.chip.sf 1).wait = none) ∧ same (run.onChip (fun c => c.modSf 1 (fun f => { f with wait := some 8#32 }))) (.waitTickDone 1)) ∧
    (ok (sfAt 1 0x4000000000000000#64 0) (.streamReservedOp 1) (fun t => (t.chip.sf 1).fifo = [] ∧ t.chip.rb (SF.SF_STAT 1) 1 ∧ t.chip.rf (SF.SF_STAT 1) 3 2 = 1) ∧ ok (sfAt 1 0#64 2) (.streamReservedOp 1) (fun t => t.chip.rf (SF.SF_STAT 1) 3 2 = 3 ∧ EventSet t.chip (pgSf 1) 4) ∧ same (sfAt 1 0x3000000000000000#64 0) (.streamReservedOp 1)) ∧
    (onPg (SF.SF_CTRL 0) (fun q => q.page.type == 0x17) ∧ ok (sfAt 1 (BitVec.ofNat 64 (2 ^ 60 + SF.SF_CTRL 0 * 2 ^ 32 + 9)) 0) (.streamWrite 1) (fun t => t.chip.rf (SF.SF_STAT 1) 3 2 = 2 ∧ EventSet t.chip (pgSf 1) 4) ∧ same (wr (sfAt 1 0#64 0) (SF.SF_STAT 1) 2) (.streamNop 1) ∧ same (wr (sfAt 1 0#64 2) (SF.SF_STAT 1) 2) (.streamReservedOp 1)) ∧
    (zoneOf 0x300000 = .unmapped ∧ ok (sfAt 1 0x1030000000000009#64 0) (.streamWrite 1) (fun t => t.chip.rb (SF.SF_STAT 1) 1 ∧ t.chip.rf (SF.SF_STAT 1) 3 2 = 2) ∧ same (sfAt 1 0#64 0) (.streamWrite 1)) ∧
    (Reaches (sfAt 1 0#64 0) .sink1 EVX.LEN_LO ∧ ok (sfAt 1 (BitVec.ofNat 64 (2 ^ 60 + EVX.LEN_LO * 2 ^ 32 + 9)) 0) (.streamWrite 1) (fun t => t.chip.reg EVX.LEN_LO = 9#32 ∧ (t.chip.sf 1).fifo = [])) := by decide +kernel

/-- Channel `k` enabled with a ring of 16 descriptors, one of them posted, and the link up. -/
  def dmaAt (k : Nat) : State := wr (wr (wr (wr on HOSTIF.LINK 1) (HOSTIF.DMA_CFG k) 0x80000004) (HOSTIF.TAIL k) 1) (pgCtrl (pgSf k)) 1

/-- Channel `k` with a descriptor in progress. -/
  def dmaBusy (k : Nat) (r : DmaRun) : State := (dmaAt k).onChip (fun c => c.setRun k (some r))

/-- A frame of 60 bytes. -/
  def frame60 : List Byte := List.replicate 60 9#8

/-- A Delay_Req of PTP version 2 in domain 0. -/
  def ptpFrame : List Byte := [1#8, 0x1B#8, 0x19#8, 0#8, 0#8, 0#8] ++ List.replicate 6 9#8 ++ [0x88#8, 0xF7#8, 1#8, 2#8, 0#8, 44#8] ++ List.replicate 42 0#8

/-- The firmware serves PTP, and the time follows it. -/
  def slave : State :=
    let s := wr (wr (on.onChip (fun c => c.setKstate 2)) PTP.PTP_CTRL 0x80000000) TIME.TIME_CTRL 0x10
    { s with tb := { s.tb with ns := 5000 } }

/-- A written-back descriptor of channel `k`. -/
  def wrote (k : Nat) (t : State) (l : List Out) (status : Nat) (aux : Word) : Bool := decide (t.chip.out = l ++ [.writeBack k 12 aux, .status k 11 status] ∧ t.chip.dmaRun k = none ∧ t.chip.rf (HOSTIF.HEAD k) 11 0 = 1)

/-- R84, R94 to R99, R418 to R421, R467: enables, tails, descriptors, timed frames, frames received and PTP. -/
theorem test_dmaAndManagement_1 :
    (Reaches on .pcie (HOSTIF.DMA_CFG 4) ∧ ok on (.dmaEnable .pcie 4 0x8000000C#32) (fun t => t.chip.dmaEn 4 ∧ t.chip.rf (HOSTIF.DMA_CFG 4) 3 0 = 12) ∧ ok on (.dmaEnable .pcie 4 0x80000003#32) (fun t => t.chip.dmaEn 4 = false ∧ Counted on.chip t.chip (HOSTIF.ERR 4) ∧ EventSet t.chip pgHostif 12) ∧ ok on (.dmaEnable .pcie 4 0x8000000D#32) (fun t => t.chip.dmaEn 4 = false)) ∧
    (ok (dmaAt 0) (.dmaDisable .pcie 0 4#32) (fun t => t.chip.dmaEn 0 = false ∧ t.chip.rf (HOSTIF.DMA_CFG 0) 3 0 = 4) ∧ ok (dmaBusy 0 ⟨⟨0, 8#32, 0#32⟩, 3, none, none⟩) (.dmaDisable .pcie 0 4#32) (fun t => t.chip.dmaEn 0 = false ∧ wrote 0 t [] 8 3#32) ∧ ok (dmaBusy 4 ⟨⟨0, 60#32, 9#32⟩, 0, none, none⟩) (.dmaDisable .pcie 4 4#32) (fun t => t.chip.dmaEn 4 = false ∧ wrote 4 t [] 8 9#32)) ∧
    (Reaches on .pcie (HOSTIF.TAIL 4) ∧ ok (dmaAt 4) (.tailWrite .pcie 4 15#32) (fun t => t.chip.reg (HOSTIF.TAIL 4) = 15#32) ∧ ok (dmaAt 4) (.tailWrite .pcie 4 16#32) (fun t => t.chip.reg (HOSTIF.TAIL 4) = 1#32 ∧ Counted on.chip t.chip (HOSTIF.ERR 4))) ∧
    ((dmaAt 3).chip.dmaReady 3 ∧ (dmaAt 3).chip.dmaRun 3 = none ∧ ok (dmaAt 3) (.dmaDescriptor 3 ⟨4, 8#32, 0#32⟩ [] [] false 0) (fun t => wrote 3 t [.hostRead 3 0 16] 6 0#32 ∧ Counted on.chip t.chip (HOSTIF.ERR 3)) ∧ ok (dmaAt 3) (.dmaDescriptor 3 ⟨8, 0#32, 0#32⟩ [] [] false 0) (wrote 3 · [.hostRead 3 0 16] 6 0#32) ∧ ok (dmaAt 3) (.dmaDescriptor 3 ⟨8, 1#32, 0#32⟩ [5#64] [] true 0) (wrote 3 · [.hostRead 3 0 16] 4 0#32) ∧ ok (dmaAt 3) (.dmaDescriptor 3 ⟨8, 0x20001#32, 0#32⟩ [] [] false 0) (wrote 3 · [.hostRead 3 0 16] 6 0#32) ∧ ok (dmaAt 4) (.dmaDescriptor 4 ⟨8, 59#32, 9#32⟩ [] frame60 false 3) (wrote 4 · [.hostRead 4 0 16] 6 9#32)) ∧
    (ok (dmaAt 1) (.dmaDescriptor 1 ⟨8, 2#32, 0#32⟩ [5#64, 6#64] [] false 0) (fun t => wrote 1 t [.hostRead 1 0 16, .hostRead 1 8 16] 1 2#32 ∧ (t.chip.sf 1).fifo = [(5#64, 0), (6#64, 0)])) ∧
    (ok ((dmaAt 3).onChip (fun c => c.modSf 3 (fun f => { f with fifo := [(5#64, 0)] }))) (.dmaDescriptor 3 ⟨8, 1#32, 0#32⟩ [] [] false 0) (fun t => wrote 3 t [.hostRead 3 0 16, .hostWrite 3 8 [5#64]] 1 1#32 ∧ (t.chip.sf 3).fifo = [])) ∧
    (ok (dmaAt 4) (.dmaDescriptor 4 ⟨8, 60#32, 0#32⟩ [] frame60 false 3) (fun t => wrote 4 t [.hostRead 4 0 16, .hostRead 4 8 60, .mgFrame (on.tb.fast + BitVec.ofNat 32 (on.chip.rf PTP.TX_LAT 15 0)) (mgWireBytes frame60)] 1 (on.tb.fast + BitVec.ofNat 32 (on.chip.rf PTP.TX_LAT 15 0)))) ∧
    (on.chip.dmaReady 2 = false ∧ same on (.dmaDescriptor 2 ⟨8, 2#32, 0#32⟩ [] [] false 0) ∧ same on (.short 2) ∧ same on .timedFrameLaunch) := by decide +kernel

/-- R84, R94 to R99, R418 to R421, R467: enables, tails, descriptors, timed frames, frames received and PTP. -/
theorem test_dmaAndManagement_2 :
    (ok { wr (dmaBusy 3 ⟨⟨0, 8#32, 0#32⟩, 3, some (0, 0#32), none⟩) (HOSTIF.DMA_CFG 3) 0x80000014 with tb := { on.tb with up := 1000 } } (.short 3) (wrote 3 · [] 2 3#32)) ∧
    (ok (dmaBusy 4 ⟨⟨0, 0x20008#32, on.tb.fast - 7#32⟩, 0, none, some (frame60, 3)⟩) .timedFrameLaunch (fun t => t.chip.dmaRun 4 = none ∧ t.chip.out.length = 3) ∧ ok (dmaBusy 4 ⟨⟨0, 0x20008#32, on.tb.fast - 8#32⟩, 0, none, some (frame60, 3)⟩) .timedFrameLaunch (fun t => wrote 4 t [] 3 (on.tb.fast - 8#32) ∧ Counted on.chip t.chip HOSTIF.MG_LAUNCH_LATE) ∧ same (dmaBusy 4 ⟨⟨0, 0x20008#32, on.tb.fast + 1#32⟩, 0, none, some (frame60, 3)⟩) .timedFrameLaunch) ∧
    (on.chip.live ∧ on.chip.domOn 1 ∧ ok on (.mgFrameReceive frame60 5#32 none) (fun t => t.ktl.mgLast = some (frame60, 5#32 + BitVec.ofNat 32 (on.chip.rf PTP.RX_LAT 15 0)) ∧ t.ktl.inbox = []) ∧ same (on.onChip (fun c => { c with rst := { c.rst with held := [5], pd1 := true } })) (.mgFrameReceive frame60 5#32 none)) ∧
    (Reaches on .pcie PTP.PTP_CTRL ∧ ok on (.ptpCtrlWrite .pcie 0x300#32) (fun t => t = on.onChip (fun c => c.errCount pgPtp)) ∧ ok on (.ptpCtrlWrite .pcie 0x80000200#32) (fun t => t.chip.rb PTP.PTP_CTRL 31 ∧ t.chip.rf PTP.PTP_CTRL 9 8 = 2) ∧ ok on (.ptpCtrlWrite .pcie 0x100#32) (fun t => t.chip.reg PTP.PTP_STAT = 2#32)) ∧
    (ok (wr (on.onChip (fun c => c.setKstate 2)) PTP.PTP_CTRL 0x80000000) (.ptpMessageSend ptpFrame 3 none) (fun t => t.chip.out = [.mgFrame (on.tb.fast + BitVec.ofNat 32 (on.chip.rf PTP.TX_LAT 15 0)) (mgWireBytes ptpFrame)]) ∧ on.chip.ptpOk true (List.replicate 6 8#8 ++ ptpFrame.drop 6) = false ∧ on.chip.mgSpeedOk 3 ∧ (on.onChip (fun c => { c with vsense := [(6, 3)] })).chip.mgSpeedOk 3 = false ∧ on.chip.ptpOk true ptpFrame = true ∧ on.chip.ptpOk true frame60 = false ∧ same on (.ptpMessageSend ptpFrame 3 none) ∧ same (wr (on.onChip (fun c => c.setKstate 2)) PTP.PTP_CTRL 0x80000000) (.ptpMessageSend frame60 3 none)) ∧
    (slave.chip.timeSrc = 1 ∧ slave.chip.ptpOk false ptpFrame = true ∧ ok slave (.mgFrameReceive ptpFrame 5#32 (some (8, 2000, 9))) (fun t => t.tb.ns = 3000 ∧ t.tb.sec = 0#48 ∧ t.chip.reg PTP.PTP_STAT = 8#32)) ∧
    (ok (on.onKtl (fun k => { k with outbox := [([1#8], [2#8])] })) .timedFrameLaunch (fun t => t.chip.out = [.reply [1#8] [2#8]] ∧ t.ktl.outbox = []) ∧ same ((on.onKtl (fun k => { k with outbox := [([1#8], [2#8])] })).onChip (fun c => { c with mgEnd := 99999999999 })) .timedFrameLaunch) := by decide +kernel

/-- The Kettle's firmware runs, and a message waits in mailbox 1. -/
  def asks (msg : List Byte) : State :=
    wr ((List.range ((msg.length + 3) / 4)).foldl (fun s w => wr s (HOSTIF.MB_IN_BUF (64 + w)) (ofLE ((msg.drop (4 * w)).take 4))) (on.onChip (fun c => c.setKstate 2))) (HOSTIF.MBX_IN 1) (0xC0000000 + msg.length)

/-- The mailbox's message is completed with a result. -/
  def done1 (t : State) (r : Nat) : Bool := decide (t.chip.rb (HOSTIF.MBX_IN 1) 31 = false ∧ t.chip.rb (HOSTIF.MBX_IN 1) 30 = false ∧ t.chip.rf (HOSTIF.MBX_IN 1) 23 16 = r ∧ t.chip.rb (HOSTIF.MBX_IN 1) 29 = true ∧ EventSet t.chip pgHostif 17)

/-- An update of `total` bytes into slot B is under way, by messages. -/
  def updating (s : State) (got total : Nat) : State := s.onKtl (fun k => { k with upd := some ⟨1, 0, total, got⟩ })

def imgBeg : List Byte := [0x10#8, 0#8, 0#8, 0#8, 1#8, 0#8, 0#8, 0#8, 0#8, 2#8, 0#8, 0#8]

/-- A message in a datagram to the command port waits on the management port. -/
  def asksUdp (msg : List Byte) : State :=
    (on.onChip (fun c => c.setKstate 2)).onKtl (fun k => { k with inbox := [List.replicate 12 9#8 ++ [8#8, 0#8, 0x45#8] ++ List.replicate 8 0#8 ++ [17#8] ++ List.replicate 12 0#8 ++
      [0x4C#8, 0x59#8] ++ (leBytes 2 (8 + msg.length)).reverse ++ [0#8, 0#8] ++ msg] })

/-- R427, R454, R466, R467: GO, FULL, and each command. -/
theorem test_kettleMessages_1 :
    (Reaches on .pcie (HOSTIF.MBX_IN 1) ∧ ok on (.mbxGo .pcie 1 256) (fun t => t.chip.rb (HOSTIF.MBX_IN 1) 30 ∧ t.chip.rb (HOSTIF.MBX_IN 1) 31 ∧ t.chip.rf (HOSTIF.MBX_IN 1) 8 0 = 256) ∧ ok on (.mbxGo .pcie 1 257) (fun t => t.chip.rb (HOSTIF.MBX_IN 1) 30 = false) ∧ ok on (.mbxGo .pcie 1 0) (fun t => t.chip.rb (HOSTIF.MBX_IN 1) 30 = false) ∧ same (asks [1#8]) (.mbxGo .pcie 1 4)) ∧
    (Reaches on .pcie (HOSTIF.MBX_OUT 1) ∧ ok (wr on (HOSTIF.MBX_OUT 1) 0x80000004) (.mbxFullClear .pcie 1) (fun t => t.chip.rb (HOSTIF.MBX_OUT 1) 31 = false) ∧ ok (wr ((asks [1#8, 0#8, 0#8, 0#8]).onKtl (fun k => { k with waiting := [(1, some (0, [1#8, 2#8]))] })) (HOSTIF.MBX_OUT 1) 0x80000004) (.mbxFullClear .pcie 1) (fun t => done1 t 0 ∧ t.chip.rb (HOSTIF.MBX_OUT 1) 31 ∧ t.chip.rf (HOSTIF.MBX_OUT 1) 8 0 = 2 ∧ t.chip.reg (HOSTIF.MB_OUT_BUF 64) = 0x201#32 ∧ t.mbxWaits 1 = none)) ∧
    (on.message (.mbx 1) = none ∧ same on (.info (.mbx 1)) ∧ same on (.logRead .mgmt) ∧ same on (.imgBegin (.mbx 1) false) ∧ same on (.imgEnd (.mbx 1) true) ∧ same on (.setPending (.mbx 1)) ∧ same on (.clearTries (.mbx 1)) ∧ same on (.keyProg .mgmt) ∧ same on (.resetCommand .mgmt)) ∧
    ((asks [9#8, 0#8, 0#8, 0#8]).message (.mbx 1) = some [9#8, 0#8, 0#8, 0#8] ∧ knownCmd 9 = false ∧ ok (asks [9#8, 0#8, 0#8, 0#8]) (.info (.mbx 1)) (done1 · 1) ∧ ok (asks [9#8, 0#8, 0#8, 0#8]) (.keyProg (.mbx 1)) (done1 · 1)) ∧
    (same (asks [2#8, 0#8, 0#8, 0#8]) (.info (.mbx 1)) ∧ same (asks [1#8, 0#8, 0#8, 0#8]) (.logRead (.mbx 1)) ∧ same (asks [1#8, 0#8, 0#8, 0#8]) (.keyProg (.mbx 1))) ∧
    (ok (asks [1#8, 0#8, 0#8, 0#8]) (.info (.mbx 1)) (fun t => done1 t 0 ∧ t.chip.rb (HOSTIF.MBX_OUT 1) 31 ∧ t.chip.rf (HOSTIF.MBX_OUT 1) 8 0 = 4 + (asks [1#8, 0#8, 0#8, 0#8]).infoData.length) ∧ ok (wr (asks [1#8, 0#8, 0#8, 0#8]) (HOSTIF.MBX_OUT 1) 0x80000000) (.info (.mbx 1)) (fun t => (t.mbxWaits 1).isSome ∧ t.chip.rb (HOSTIF.MBX_IN 1) 30)) ∧
    (ok (asks [2#8, 0#8, 0#8, 0#8, 0#8, 0#8, 0#8, 0#8, 15#8]) (.logRead (.mbx 1)) (done1 · 0) ∧ ok (asks [2#8, 0#8, 0#8, 0#8, 0#8, 0#8, 0#8, 0#8, 16#8]) (.logRead (.mbx 1)) (done1 · 2)) ∧
    (ok (asks imgBeg) (.imgBegin (.mbx 1) false) (fun t => done1 t 0 ∧ t.ktl.upd = some ⟨1, 0, 512, 0⟩) ∧ ok (asks imgBeg) (.imgBegin (.mbx 1) true) (fun t => done1 t 6 ∧ t.ktl.upd = none) ∧ ok (asks ([0x10#8, 0#8, 0#8, 0#8, 2#8] ++ imgBeg.drop 5)) (.imgBegin (.mbx 1) false) (done1 · 2) ∧ ok ((updating (asks imgBeg) 0 512).onKtl (fun k => { k with upd := some ⟨1, 1, 512, 0⟩ })) (.imgBegin (.mbx 1) false) (done1 · 3)) := by decide +kernel

/-- R427, R454, R466, R467: GO, FULL, and each command. -/
theorem test_kettleMessages_2 :
    ((asks imgBeg).slotBusy 1 = false ∧ (asks imgBeg).slotBusy 0 ∧ ok (asks ([0x10#8, 0#8, 0#8, 0#8, 0#8] ++ imgBeg.drop 5)) (.imgBegin (.mbx 1) false) (done1 · 7)) ∧
    (ok (asks [0x11#8, 0#8, 0#8, 0#8, 0#8, 0#8, 0#8, 0#8]) (.imgData (.mbx 1) false) (done1 · 7) ∧ ok ((asks [0x11#8, 0#8, 0#8, 0#8, 0#8, 0#8, 0#8, 0#8]).onKtl (fun k => { k with upd := some ⟨1, 1, 512, 0⟩ })) (.imgData (.mbx 1) false) (done1 · 3)) ∧
    (ok (updating (asks [0x11#8, 0#8, 0#8, 0#8, 1#8, 0#8, 0#8, 0#8, 7#8]) 0 512) (.imgData (.mbx 1) false) (done1 · 2) ∧ ok (updating (asks [0x11#8, 0#8, 0#8, 0#8, 5#8, 0#8, 0#8, 0#8, 7#8]) 5 512) (.imgData (.mbx 1) false) (fun t => done1 t 0 ∧ t.ktl.upd = some ⟨1, 0, 512, 6⟩ ∧ t.ktl.fbyte (slotAt 1 + 5) = 7#8)) ∧
    (ok ((wr (sfAt 1 0x0807060504030201#64 0) (SF.SF_CFG 1) 0).onChip (fun c => c.setKstate 2) |>.onKtl (fun k => { k with upd := some ⟨1, 2, 3, 0⟩ })) (.imgData (.stream 1) false) (fun t => t.ktl.upd = some ⟨1, 2, 3, 3⟩ ∧ (t.chip.sf 1).fifo = [])) ∧
    (ok (asks [0x12#8, 0#8, 0#8, 0#8]) (.imgEnd (.mbx 1) false) (done1 · 7) ∧ ok (updating (asks [0x12#8, 0#8, 0#8, 0#8]) 511 512) (.imgEnd (.mbx 1) false) (fun t => done1 t 2 ∧ t.ktl.upd = none ∧ EventSet t.chip pgKtl 4) ∧ ok (updating (asks [0x12#8, 0#8, 0#8, 0#8]) 512 512) (.imgEnd (.mbx 1) true) (done1 · 6)) ∧
    (ok (asks [0x13#8, 0#8, 0#8, 0#8, 2#8]) (.setPending (.mbx 1)) (done1 · 2) ∧ ok (asks [0x13#8, 0#8, 0#8, 0#8, 1#8]) (.setPending (.mbx 1)) (done1 · 7) ∧ ok ((asks [0x13#8, 0#8, 0#8, 0#8, 1#8]).onKtl (fun k => { k with accepted := [1] })) (.setPending (.mbx 1)) (fun t => done1 t 0 ∧ t.ktl.bootRec.pending = 2 ∧ t.ktl.bootRec.gen = 1#32) ∧ ok ((asks [0x13#8, 0#8, 0#8, 0#8, 1#8]).onKtl (fun k => { k with accepted := [1] })) (.setPending (.mbx 1) true) (fun t => done1 t 6 ∧ t.ktl.bootRec.pending = 0)) ∧
    (ok (wr (asks [0x14#8, 0#8, 0#8, 0#8]) KTL.BOOT 3) (.clearTries (.mbx 1)) (fun t => done1 t 0 ∧ t.chip.bootTries = 0) ∧ ok (asks [0x15#8, 0#8, 0#8, 0#8]) (.resetCommand (.mbx 1)) (fun t => 7 ∈ t.chip.rst.held ∧ t.chip.rb RST.SEEN 7) ∧ same (asks [0x14#8, 0#8, 0#8, 0#8]) (.resetCommand (.mbx 1))) ∧
    (ok (asks ([0x16#8, 0#8, 0#8, 0#8] ++ List.replicate 32 1#8)) (.keyProg (.mbx 1)) (fun t => done1 t 0 ∧ t.ktl.otp.keyHash1 = ofBE (List.replicate 32 1#8)) ∧ ok ((asks ([0x16#8, 0#8, 0#8, 0#8] ++ List.replicate 32 1#8)).onKtl (fun k => { k with otp := { k.otp with keyHash1 := 5 } })) (.keyProg (.mbx 1)) (fun t => done1 t 7 ∧ t.ktl.otp.keyHash1 = 5)) := by decide +kernel

/-- R427, R454, R466, R467: GO, FULL, and each command. -/
theorem test_kettleMessages_3 :
    ((asksUdp [0x14#8, 0#8, 7#8, 0#8]).message .mgmt = some [0x14#8, 0#8, 7#8, 0#8] ∧ ok (asksUdp [0x14#8, 0#8, 7#8, 0#8]) (.clearTries .mgmt) (fun t => t.chip.out = [.reply ((asksUdp [0x14#8, 0#8, 7#8, 0#8]).ktl.inbox.headD []) [0x14#8, 0#8, 7#8, 0#8]] ∧ t.ktl.inbox = [] ∧ t.ktl.outbox = []) ∧ ok ((asksUdp [0x14#8, 0#8, 7#8, 0#8]).onChip (fun c => { c with mgEnd := 99999999999 })) (.clearTries .mgmt) (fun t => t.chip.out = [] ∧ t.ktl.outbox.length = 1)) ∧
    (ok (updating (asksUdp ([0x11#8, 0#8, 0#8, 0#8, 0#8, 0#8, 0#8, 0#8] ++ List.replicate 249 7#8)) 0 512) (.imgData .mgmt false) (fun t => t.chip.out.any (fun o => match o with | .reply _ l => decide (l = [0x11#8, 2#8, 0#8, 0#8]) | _ => false) ∧ t.ktl.upd = some ⟨1, 0, 512, 0⟩)) := by decide +kernel

/-- The firmware runs, with entry 0 of the log in the ring. -/
  def logged : State := (wr (wr (on.onChip (fun c => c.setKstate 2)) LOG.WR_SEQ 1) LOG.STREAM 1).onChip (fun c => { c with log := [⟨0#32, 5#32, 6, 3, false, 1, 2, 4⟩] })

/-- The chip in its startup, before the declaration. -/
  def starting : State := on.onChip (fun c => c.setKstate 1)

/-- R455 to R457, R460 to R465, R469: conversions, the log, the declaration, restarts. -/
theorem test_kettleServices_1 :
    (ok (wr (wr on (thrReg 19) 0xFF9C0064) (SENS.HYS 19) 10) (.sensorConversion 19 100) (fun t => t.chip.reg (SENS.VM 15) = 100#32 ∧ t.chip.rb SENS.HI_STAT 19 ∧ EventSet t.chip pgSens 0 ∧ t.chip.reg SENS.TMAX = on.chip.reg SENS.TMAX) ∧ ok (wr (wr on (thrReg 19) 0xFF9C0064) (SENS.HYS 19) 10) (.sensorConversion 19 (-101)) (fun t => t.chip.reg (SENS.VM 15) = 0xFF9B#32 ∧ t.chip.rb SENS.LO_STAT 19 ∧ EventSet t.chip pgSens 1)) ∧
    (ok (wr (wr (wr on (thrReg 19) 0xFF9C0064) (SENS.HYS 19) 10) SENS.HI_STAT 0x80000) (.sensorConversion 19 89) (fun t => t.chip.rb SENS.HI_STAT 19 = false ∧ EventSet t.chip pgSens 2) ∧ ok (wr (wr (wr on (thrReg 19) 0xFF9C0064) (SENS.HYS 19) 10) SENS.HI_STAT 0x80000) (.sensorConversion 19 90) (fun t => t.chip.rb SENS.HI_STAT 19) ∧ ok (wr (wr (wr on (thrReg 19) 0xFF9C0064) (SENS.HYS 19) 10) SENS.LO_STAT 0x80000) (.sensorConversion 19 (-90)) (fun t => t.chip.rb SENS.LO_STAT 19 = false ∧ EventSet t.chip pgSens 2)) ∧
    (ok (wr (wr on SENS.TMAX 5) SENS.TCRIT 6) (.sensorConversion 3 6) (fun t => t.chip.reg SENS.TMAX = 6#32 ∧ EventSet t.chip pgSens 3)) ∧
    (logged.persFirst.isSome ∧ ok logged (.logPersist false) (fun t => t.ktl.pers.length = 1 ∧ t.chip.reg LOG.PERSIST_SEQ = 0#32) ∧ ok logged (.logPersist true) (fun t => t.ktl = logged.ktl ∧ Counted logged.chip t.chip LOG.FLASH_ERR ∧ EventSet t.chip pgLog 2) ∧ same on (.logPersist true)) ∧
    ((wr logged (pgCtrl (pgSf 3)) 1).chip.sfRoom 3 2 ∧ ok (wr logged (pgCtrl (pgSf 3)) 1) .logStreamPush (fun t => t.ktl.streamNext = 1#32 ∧ (t.chip.sf 3).fifo.length = 2) ∧ ok ((wr logged (pgCtrl (pgSf 3)) 1).onKtl (fun k => { k with streamNext := 0xFFFFFFFE#32 })) .logStreamPush (fun t => t.ktl.streamNext = 0#32 ∧ t.chip.rn LOG.LOST = 2) ∧ same logged .logStreamPush) ∧
    (Reaches logged .pcie LOG.STREAM ∧ ok (logged.onKtl (fun k => { k with streamNext := 1#32 })) (.fromOldest .pcie true) (fun t => t.ktl.streamNext = 0#32 ∧ t.chip.rb LOG.STREAM 0) ∧ Reaches logged .pcie LOG.RD_SEQ ∧ ok logged (.rdSeqWrite .pcie 0#32) (fun t => t.chip.rb LOG.RD_STAT 0 = false ∧ t.chip.reg (LOG.RD 1) = 5#32) ∧ ok logged (.rdSeqWrite .pcie 1#32) (fun t => t.chip.rb LOG.RD_STAT 0 ∧ t.chip.reg (LOG.RD 1) = 0#32)) ∧
    (ok (logged.onChip (fun c => { c with sramErr := [(ringAt 0#32, false)] })) (.rdSeqWrite .pcie 0#32) (fun t => t.chip.reg (LOG.RD 1) = 5#32 ∧ t.chip.sramErr = [] ∧ t.chip.log.length = 2 ∧ t.chip.log.getLast?.any (fun y => decide (y.seq = 1#32 ∧ y.sev = 1 ∧ y.src = 10 ∧ y.code = 3))) ∧ ok (logged.onChip (fun c => { c with sramErr := [(ringAt 0#32, true)] })) (.rdSeqWrite .pcie 0#32) (fun t => t.chip.kstate = 4 ∧ Counted logged.chip t.chip KTL.KRESTARTS ∧ t.chip.reg (LOG.RD 1) = 0#32)) ∧
    (ok ((wr (wr logged LOG.WR_SEQ 10) (pgCtrl (pgSf 3)) 1).onChip (fun c => { c with log := [⟨4#32, 5#32, 6, 3, false, 1, 2, 4⟩, ⟨8#32, 7#32, 6, 3, false, 1, 2, 4⟩] }) |>.onKtl (fun k => { k with streamNext := 5#32 })) .logStreamPush (fun t => t.ktl.streamNext = 9#32 ∧ t.chip.rn LOG.LOST = 0 ∧ ((t.chip.sf 3).fifo.headD (0#64, 0)).1 = 0x700000008#64)) := by decide +kernel

/-- R455 to R457, R460 to R465, R469: conversions, the log, the declaration, restarts. -/
theorem test_kettleServices_2 :
    (onPg (LOG.RD 3) (fun q => decide (Reads logged .pcie q (LOG.RD 3))) ∧ ok (wr (wr logged LOG.RD_SEQ 0xFFFFFFFF) (LOG.RD 3) 9) (.rd3Read .pcie) (fun t => (t.chip.port .pcie).rdata = 9#32 ∧ t.chip.reg LOG.RD_SEQ = 0#32 ∧ t.chip.reg (LOG.RD 1) = 5#32)) ∧
    (Reaches starting .kettle KTL.CTRL ∧ ok starting (.decafReq .kettle) (fun t => t.chip.rb KTL.BOOT 2) ∧ ok starting (.confirm .kettle) (fun t => t.chip.rb KTL.STAT 23) ∧ same logged (.confirm .kettle)) ∧
    (starting.chip.goodOk ∧ ok ((wr (wr starting KTL.BOOT 2) KTL.FW_SVN 3).onKtl (fun k => { k with rec0 := some (BootRec.make 1#32 1 1), loaded := true })) .good (fun t => t.chip.kstate = 2 ∧ t.chip.bootTries = 0 ∧ EventSet t.chip pgKtl 0 ∧ t.ktl.bootRec.pending = 0 ∧ t.ktl.bootRec.active = 0 ∧ 3 ≤ t.ktl.counter) ∧ same logged .good) ∧
    (ok logged .kettleWatchdog (fun t => t.chip.kstate = 4 ∧ Counted logged.chip t.chip KTL.KRESTARTS ∧ EventSet t.chip pgKtl 1) ∧ ok logged .trap (fun t => t.chip.kstate = 4) ∧ same starting .kettleWatchdog ∧ ok starting .trap (fun t => 9 ∈ t.chip.rst.held) ∧ same State.reset .trap ∧ same (on.onChip (fun c => c.setKstate 4)) .trap) ∧
    (ok ((asks [1#8]).onChip (fun c => c.setKstate 4)) .kettleRestartDone (fun t => t.chip.kstate = 2 ∧ done1 t 7) ∧ same logged .kettleRestartDone ∧ same starting .good ∧ starting.ktl.loaded = false) := by decide +kernel

def linked : State := wr on HOSTIF.LINK 1

/-- The chip with MSI-X on, and a request for vector 31. -/
  def asksVec (mask : Nat) : State := (wr (wr (wr (wr linked (HOSTIF.MSIX_TABLE 127) mask) (HOSTIF.MSIX_TABLE 124) 0x1000) (IRQ.MAP 95) 0x801F) (HOSTIF.MSIX_TABLE 126) 5 |> (wr · (pgEvtRaw pgKtl) 1) |> (wr · (pgEvtEn pgKtl) 1)).onChip (fun c => { c with pcie := { Pcie.reset with msixEn := true, command := 6#32 } })

/-- R410 to R417, R428, R430, R435, R442: requests of both ports, interrupts, counters, the link. -/
theorem test_hostPortsAndInterrupts_1 :
    (linked.chip.pcieOk ∧ alike linked (.pcieMemoryRequest (.write EVX.LEN_LO [(15, 5#32)])) (.registerWrite .pcie EVX.LEN_LO 5#32) ∧ ok linked (.pcieMemoryRequest (.write EVX.LEN_LO [(7, 5#32)])) (fun t => t = linked.onChip (fun c => c.trouble HOSTIF.PARTIAL_WR)) ∧ same linked (.pcieMemoryRequest (.write EVX.LEN_LO (List.replicate 65 (15, 5#32)))) ∧ LocksOut (wr linked (pgLock pgEvx) 0x80000000).chip .pcie EVX.LEN_LO = true ∧ ok (wr linked (pgLock pgEvx) 0x80000000) (.pcieMemoryRequest (.write EVX.LEN_LO [(7, 5#32)])) (fun t => EventSet t.chip pgEvx 30 ∧ Counted linked.chip t.chip HOSTIF.PARTIAL_WR ∧ Counted linked.chip t.chip (pgErrcnt pgEvx)) ∧ ok (wr linked EVX.LEN_LO 7) (.pcieMemoryRequest (.read EVX.LEN_LO [15])) (fun t => t.chip.out = [.completion [7#32]])) ∧
    (on.chip.pcieOk = false ∧ same on (.pcieMemoryRequest (.write EVX.LEN_LO [(15, 5#32)])) ∧ same on (.pcieMemoryRequest (.read EVX.LEN_LO [15]))) ∧
    (ok (wr (dmaAt 4) IRQ.INSERV 5) (.hotReset true) (fun t => t.chip.dmaEn 4 = false ∧ t.chip.reg IRQ.INSERV = 0#32 ∧ t.chip.reg HOSTIF.LINK = 0#32 ∧ EventSet t.chip pgHostif 21) ∧ ok linked (.hotReset false) (fun t => t.chip.reg HOSTIF.LINK = 1#32) ∧ ok (wr (wr linked HOSTIF.PBA0 7) (HOSTIF.MSIX_TABLE 127) 0) (.hotReset false) (fun t => t.chip.reg HOSTIF.PBA0 = 7#32 ∧ t.chip.reg (HOSTIF.MSIX_TABLE 127) = 1#32)) ∧
    (on.chip.reach .qspi ∧ qspiAddr EVX.LEN_LO ∧ ok on (.qspiWrite EVX.LEN_LO [5#32] 0) (fun t => t.chip.qspiWip ∧ ok on (.registerWrite .qspi EVX.LEN_LO 5#32) (fun u => u.onChip (fun c => { c with qspiWip := true }) = t)) ∧ ok on (.qwrite EVX.LEN_LO [] 0) (fun t => t.chip.qspiWip = false) ∧ ok (wr on EVX.LEN_LO 7) (.qspiRead EVX.LEN_LO 1 0) (fun t => t.chip.out = [.qspi [0#8]]) ∧ ok on (.qspiRead 0x300000 1 0) (fun t => Counted on.chip t.chip HOSTIF.UNMAPPED) ∧ ok on (.qspiRead 0x300000 1 1) (fun t => t.chip.rn HOSTIF.UNMAPPED = 2) ∧ ok on (.qread 0x1FFFFFC 1 1) (fun t => t.chip.rn HOSTIF.UNMAPPED = 1) ∧ ok on (.qspiWrite EVX.LEN_LO [] 3) (fun t => t = on.onChip (fun c => c.trouble HOSTIF.PARTIAL_WR))) ∧
    (qspiAddr 0x2000000 = false ∧ ok on (.qspiErr 0x11#8 0 2) (fun t => t.chip.qspiErr ∧ Counted on.chip t.chip HOSTIF.QSPI_ERR ∧ EventSet t.chip pgHostif 20 ∧ t.chip.out = [.qspi [0#8, 0#8]]) ∧ ok on (.qspiErr 3#8 2 0) (fun t => t.chip.qspiErr ∧ t.chip.out = []) ∧ same on (.qspiErr 0x9F#8 2 4) ∧ ok on (.qspiRead 0x2000000 1 1) (fun t => t.chip.qspiErr ∧ t.chip.out = [.qspi (List.replicate 6 0#8)]) ∧ ok on (.qread 2 1 1) (fun t => t.chip.qspiErr) ∧ ok on (.qspiWrite 0x2000000 [5#32] 0) (fun t => t.chip.qspiErr) ∧ ok on (.qwrite 0x2000000 [5#32] 0) (fun t => t.chip.qspiErr)) ∧
    (ok (on.onChip (fun c => { c with qspiErr := true })) (.qspiStatus 2) (fun t => t.chip.qspiErr = false ∧ t.chip.out = [.qspi [2#8, 2#8]]) ∧ ok (on.onChip (fun c => { c with qspiWip := true })) (.qspiStatus 1) (fun t => t.chip.qspiErr = false) ∧ ok on .qspiId (fun t => t.chip.out = [.qspi (leBytes 4 (on.chip.rn CHIP.CHIP_ID) ++ [0#8])])) ∧
    (Reaches on .pcie IRQ.EOI ∧ ok (wr on IRQ.INSERV 0x80000001) (.eoi .pcie 0x80000000#32) (fun t => t.chip.reg IRQ.INSERV = 1#32)) ∧
    (Reaches on .pcie (LEAF.PCTL 63) ∧ ok (wr on (LEAF.PCNT_LO 63 3) 5) (.leafPctlClr .pcie 63 true) (fun t => t.chip.reg (LEAF.PCNT_LO 63 3) = 0#32 ∧ t.chip.rb (LEAF.PCTL 63) 0) ∧ ok on (.freeze .pcie (some 63) true) (fun t => t.chip.rb (LEAF.PCTL 63) 0) ∧ Reaches on .pcie CHIP.PCTL ∧ ok (wr (wr on (LEAF.PCNT_LO 63 3) 5) (CHIP.CCNT_HI 15) 6) (.chipPctlClr .pcie true) (fun t => t.chip.reg (LEAF.PCNT_LO 63 3) = 0#32 ∧ t.chip.reg (CHIP.CCNT_HI 15) = 0#32 ∧ t.chip.rb CHIP.PCTL 0) ∧ ok on (.freeze .pcie none true) (fun t => t.chip.rb CHIP.PCTL 0)) := by decide +kernel

/-- R410 to R417, R428, R430, R435, R442: requests of both ports, interrupts, counters, the link. -/
theorem test_hostPortsAndInterrupts_2 :
    (same on (.pcieLinkUp 4 1) ∧ same on (.pcieLinkUp 3 3) ∧ ok on (.pcieLinkUp 3 2) (fun t => t.chip.rb HOSTIF.LINK 0 ∧ t.chip.rf HOSTIF.LINK 31 28 = 3 ∧ t.chip.rf HOSTIF.LINK 27 24 = 2 ∧ EventSet t.chip pgHostif 21) ∧ same (on.onChip (fun c => { c with rst := { c.rst with unlocked := [2] } })) (.pcieLinkUp 3 2)) ∧
    (ok linked (.pcieConfigRequest (.read 0)) (fun t => t.chip.out = [.completion [0x2561E73#32]]) ∧ ok linked (.pcieConfigRequest (.power true)) (fun t => t.chip.pcie.d3hot) ∧ ok linked (.pcieConfigRequest (.msix true false)) (fun t => t.chip.pcie = { Pcie.reset with msixEn := true }) ∧ ok linked (.pcieConfigRequest (.bar0 0x12345678#32)) (fun t => t.chip.pcie.bar0 = 0x12000000#32) ∧ ok (linked.onChip (fun c => { c with pcie := { c.pcie with bar0 := 0x12000000#32 } })) (.pcieConfigRequest (.read 0x10)) (fun t => t.chip.out = [.completion [0x12000000#32]]) ∧ ok linked (.pcieConfigRequest (.read 0x50)) (fun t => t.chip.out = [.completion [0x1F7011#32]]) ∧ ok linked (.pcieConfigRequest (.read 0x58)) (fun t => t.chip.out = [.completion [0x8A00#32]]) ∧ ok linked (.pcieConfigRequest (.read 0x24)) (fun t => t.chip.out = [.completion [0#32]]) ∧ ok linked (.pcieConfigRequest (.other 0x78 0x12345#32)) (fun t => t.chip.pcie.devctl = 0x2345#32) ∧ ok (linked.onChip (fun c => { c with pcie := { c.pcie with aerUnc := 7#32, aerCor := 7#32 } })) (.pcieConfigRequest (.other 0x104 2#32)) (fun t => t.chip.pcie.aerUnc = 5#32) ∧ ok linked (.pcieConfigRequest (.command 7#32)) (fun t => t.chip.pcie.command = 6#32) ∧ same on (.pcieConfigRequest (.power true))) ∧
    (ok (wr (asksVec 0) (IRQ.EN 2) 0x80000000) (.msixMessage 31) (fun t => t.chip.out = [.msix 31 0x1000 5#32] ∧ t.chip.rb IRQ.INSERV 31 ∧ t.chip.reg IRQ.MSGS = 1#32) ∧ ok (wr (asksVec 1) (IRQ.EN 2) 0x80000000) (.msixMessage 31) (fun t => t.chip.rb HOSTIF.PBA0 31) ∧ same (asksVec 0) (.msixMessage 31)) := by decide +kernel

/-- R448, R449: the invariant at reset, and a step that keeps it. -/
theorem test_kettleStore :
    (Kettle.wf State.reset.ktl ∧ Kettle.wf (asks ([0x16#8, 0#8, 0#8, 0#8] ++ List.replicate 32 1#8)).ktl ∧ stepOk { asks ([0x16#8, 0#8, 0#8, 0#8] ++ List.replicate 32 1#8) with pending := [.keyProg (.mbx 1)] } (fun t => Kettle.wf t.ktl ∧ otpKept State.reset.ktl t.ktl ∧ t.ktl.otp.keyHash1 ≠ 0)) := by decide +kernel

/-! ### Well-formedness: one ill-formed command for each check -/

/-- Ill-formed commands, piece 1. -/
theorem test_illFormed1 : ([.registerWrite .pcie 2 0#32, .unmappedAccess .pcie (2 ^ 25) none, .rcRead .pcie 2, .pairLowRead .pcie 2, .pairLowWrite .pcie 2 0#32,
    .pairHighWrite .pcie 2 0#32, .rwcWrite .pcie 2 0#32, .pgCommitGo .pcie 0xF000, .srst .pcie 0xF000 0#32, .srstSettle 0xF000,
    .pgLockWrite .pcie 0xF000 0#32, .pgEvtSetWrite .pcie 0xF000 0#32, .w1cWrite .pcie 2 0#32, .runStart .pcie 8, .runStop .pcie 8,
    .modeSetWrite .pcie 8 0 0#32, .modeSetWrite .pcie 0 8 0#32, .openDoors 32, .closeDoors 32, .isolate 32, .restore 32, .seqReset 32,
    .learnReset 32, .cyclePoint 8, .gatherLaunch 16, .gatherCopyReceive 32 false ⟨[], true, 0#32⟩, .aCopyTimeout 16, .gatherReturn 16,
    .gatherMiss 16, .cupAssign 8, .cupEntry 64 false, .cupCompletion 64, .cupOverrun 64, .pourLaunch 16, .serviceSlotOpen 16,
    .modeBeacon 16, .modeAnnounce 16, .lctrlQuar .pcie 64, .quarIn 64 1, .quarIn 0 16, .lctrlRelease .pcie 64, .leafReleaseDone 64,
    .leafFillDone 64, .step .pcie 64, .dbgPcWrite .pcie 64 0#32, .dbgDataWrite .pcie 64 0#32, .debugWindowWrite .pcie 0x400000 0#32,
    .debugWindowRead .pcie 0x400000, .icMiss 64 0 false, .icMiss 0 (2 ^ 15) false] : List Instr).all
    (fun i => !wellFormed i) = true := by decide +kernel

/-- Ill-formed commands, piece 2. -/
theorem test_illFormed2 : ([.pctrlQuar .pcie 8 0#32, .pctrlRelease .pcie 8 0#32, .potReleaseDone 8, .potFillDone 8, .slowCupStart 64 false, .add 64 0 0 0 false,
    .add 0 32 0 0 false, .add 0 0 32 0 false, .add 0 0 0 32 false, .sub 64 0 0 0 false, .sub 0 32 0 0 false, .sub 0 0 32 0 false,
    .sub 0 0 0 32 false, .adds 64 0 0 0 false, .adds 0 32 0 0 false, .adds 0 0 32 0 false, .adds 0 0 0 32 false, .subs 64 0 0 0 false,
    .subs 0 32 0 0 false, .subs 0 0 32 0 false, .subs 0 0 0 32 false, .and 64 0 0 0 false, .and 0 32 0 0 false, .and 0 0 32 0 false,
    .and 0 0 0 32 false, .or 64 0 0 0 false, .or 0 32 0 0 false, .or 0 0 32 0 false, .or 0 0 0 32 false, .xor 64 0 0 0 false,
    .xor 0 32 0 0 false, .xor 0 0 32 0 false, .xor 0 0 0 32 false, .sll 64 0 0 0 false, .sll 0 32 0 0 false, .sll 0 0 32 0 false,
    .sll 0 0 0 32 false, .srl 64 0 0 0 false, .srl 0 32 0 0 false, .srl 0 0 32 0 false, .srl 0 0 0 32 false, .sra 64 0 0 0 false,
    .sra 0 32 0 0 false, .sra 0 0 32 0 false, .sra 0 0 0 32 false, .slli 64 0 0 0 false, .slli 0 32 0 0 false, .slli 0 0 32 0 false,
    .slli 0 0 0 32 false, .srli 64 0 0 0 false] : List Instr).all
    (fun i => !wellFormed i) = true := by decide +kernel

/-- Ill-formed commands, piece 3. -/
theorem test_illFormed3 : ([.srli 0 32 0 0 false, .srli 0 0 32 0 false, .srli 0 0 0 32 false, .srai 64 0 0 0 false, .srai 0 32 0 0 false, .srai 0 0 32 0 false,
    .srai 0 0 0 32 false, .slt 64 0 0 0 false, .slt 0 32 0 0 false, .slt 0 0 32 0 false, .slt 0 0 0 32 false, .sltu 64 0 0 0 false,
    .sltu 0 32 0 0 false, .sltu 0 0 32 0 false, .sltu 0 0 0 32 false, .abss 64 0 0 false, .abss 0 32 0 false, .abss 0 0 32 false,
    .negs 64 0 0 false, .negs 0 32 0 false, .negs 0 0 32 false, .nrm 64 0 0 false, .nrm 0 32 0 false, .nrm 0 0 32 false,
    .seln 64 0 0 0 false, .seln 0 32 0 0 false, .seln 0 0 32 0 false, .seln 0 0 0 32 false, .selz 64 0 0 0 false, .selz 0 32 0 0 false,
    .selz 0 0 32 0 false, .selz 0 0 0 32 false, .sllsi 64 0 0 0 false, .sllsi 0 32 0 0 false, .sllsi 0 0 32 0 false,
    .sllsi 0 0 0 32 false, .mfc 64 0 0 false, .mfc 0 32 0 false, .mfc 0 0 32 false, .mtc 64 0 0 false, .mtc 0 32 0 false,
    .mtc 0 0 32 false, .ga 64 0 0 false, .ga 0 8 0 false, .ga 0 0 32 false, .ag 64 0 0 false, .ag 0 32 0 false, .ag 0 0 8 false,
    .jr 64 0 false, .jr 0 32 false] : List Instr).all
    (fun i => !wellFormed i) = true := by decide +kernel

/-- Ill-formed commands, piece 4. -/
theorem test_illFormed4 : ([.addi 64 0 0 0 false, .addi 0 32 0 0 false, .addi 0 0 32 0 false, .addi 0 0 0 (2 ^ 16) false, .addsi 64 0 0 0 false,
    .addsi 0 32 0 0 false, .addsi 0 0 32 0 false, .addsi 0 0 0 (2 ^ 16) false, .andi 64 0 0 0 false, .andi 0 32 0 0 false,
    .andi 0 0 32 0 false, .andi 0 0 0 (2 ^ 16) false, .ori 64 0 0 0 false, .ori 0 32 0 0 false, .ori 0 0 32 0 false,
    .ori 0 0 0 (2 ^ 16) false, .xori 64 0 0 0 false, .xori 0 32 0 0 false, .xori 0 0 32 0 false, .xori 0 0 0 (2 ^ 16) false,
    .lui 64 0 0 false, .lui 0 32 0 false, .lui 0 0 (2 ^ 16) false, .slti 64 0 0 0 false, .slti 0 32 0 0 false, .slti 0 0 32 0 false,
    .slti 0 0 0 (2 ^ 16) false, .sltui 64 0 0 0 false, .sltui 0 32 0 0 false, .sltui 0 0 32 0 false, .sltui 0 0 0 (2 ^ 16) false,
    .aadd 64 0 0 0 false, .aadd 0 8 0 0 false, .aadd 0 0 8 0 false, .aadd 0 0 0 (2 ^ 16) false, .ainc 64 0 0 false, .ainc 0 8 0 false,
    .ainc 0 0 (2 ^ 16) false, .ldb 64 0 0 false 0 false, .ldb 0 32 0 false 0 false, .ldb 0 0 8 false 0 false,
    .ldb 0 0 0 false (2 ^ 12) false, .ldbu 64 0 0 false 0 false, .ldbu 0 32 0 false 0 false, .ldbu 0 0 8 false 0 false,
    .ldbu 0 0 0 false (2 ^ 12) false, .ldh 64 0 0 false 0 false, .ldh 0 32 0 false 0 false, .ldh 0 0 8 false 0 false,
    .ldh 0 0 0 false (2 ^ 12) false] : List Instr).all
    (fun i => !wellFormed i) = true := by decide +kernel

/-- Ill-formed commands, piece 5. -/
theorem test_illFormed5 : ([.ldhu 64 0 0 false 0 false, .ldhu 0 32 0 false 0 false, .ldhu 0 0 8 false 0 false, .ldhu 0 0 0 false (2 ^ 12) false,
    .ldw 64 0 0 false 0 false, .ldw 0 32 0 false 0 false, .ldw 0 0 8 false 0 false, .ldw 0 0 0 false (2 ^ 12) false,
    .ldd 64 0 0 false 0 false, .ldd 0 32 0 false 0 false, .ldd 0 0 8 false 0 false, .ldd 0 0 0 false (2 ^ 12) false,
    .ldc 64 0 0 0 false 0 false, .ldc 0 32 0 0 false 0 false, .ldc 0 0 4 0 false 0 false, .ldc 0 0 0 8 false 0 false,
    .ldc 0 0 0 0 false (2 ^ 12) false, .stb 64 0 0 false 0 false, .stb 0 32 0 false 0 false, .stb 0 0 8 false 0 false,
    .stb 0 0 0 false (2 ^ 12) false, .sth 64 0 0 false 0 false, .sth 0 32 0 false 0 false, .sth 0 0 8 false 0 false,
    .sth 0 0 0 false (2 ^ 12) false, .stw 64 0 0 false 0 false, .stw 0 32 0 false 0 false, .stw 0 0 8 false 0 false,
    .stw 0 0 0 false (2 ^ 12) false, .std 64 0 0 false 0 false, .std 0 32 0 false 0 false, .std 0 0 8 false 0 false,
    .std 0 0 0 false (2 ^ 12) false, .stsh 64 0 0 false 0 0 false, .stsh 0 32 0 false 0 0 false, .stsh 0 0 8 false 0 0 false,
    .stsh 0 0 0 false (2 ^ 12) 0 false, .stsh 0 0 0 false 0 32 false, .b 64 0 false, .b 0 (2 ^ 15) false, .jal 64 0 0 false,
    .jal 0 32 0 false, .jal 0 0 (2 ^ 15) false, .beq 64 0 0 0 false, .beq 0 32 0 0 false, .beq 0 0 32 0 false, .beq 0 0 0 (2 ^ 16) false,
    .bne 64 0 0 0 false, .bne 0 32 0 0 false, .bne 0 0 32 0 false] : List Instr).all
    (fun i => !wellFormed i) = true := by decide +kernel

/-- Ill-formed commands, piece 6. -/
theorem test_illFormed6 : ([.bne 0 0 0 (2 ^ 16) false, .blt 64 0 0 0 false, .blt 0 32 0 0 false, .blt 0 0 32 0 false, .blt 0 0 0 (2 ^ 16) false,
    .bge 64 0 0 0 false, .bge 0 32 0 0 false, .bge 0 0 32 0 false, .bge 0 0 0 (2 ^ 16) false, .bltu 64 0 0 0 false, .bltu 0 32 0 0 false,
    .bltu 0 0 32 0 false, .bltu 0 0 0 (2 ^ 16) false, .bgeu 64 0 0 0 false, .bgeu 0 32 0 0 false, .bgeu 0 0 32 0 false,
    .bgeu 0 0 0 (2 ^ 16) false, .dbnz 64 0 0 false, .dbnz 0 32 0 false, .dbnz 0 0 (2 ^ 16) false, .endCup 64 false, .nop 64 false,
    .reservedOpcode 64 false false, .mul 64 0 0 0 false, .mul 0 4 0 0 false, .mul 0 0 32 0 false, .mul 0 0 0 32 false,
    .mac 64 0 0 0 false, .mac 0 4 0 0 false, .mac 0 0 32 0 false, .mac 0 0 0 32 false, .mac2 64 0 0 0 false, .mac2 0 4 0 0 false,
    .mac2 0 0 32 0 false, .mac2 0 0 0 32 false, .mac2s 64 0 0 0 false, .mac2s 0 4 0 0 false, .mac2s 0 0 32 0 false,
    .mac2s 0 0 0 32 false, .clr 64 0 false, .clr 0 4 false, .ext 64 0 0 false, .ext 0 32 0 false, .ext 0 0 4 false, .exts 64 0 0 0 false,
    .exts 0 32 0 0 false, .exts 0 0 4 0 false, .exts 0 0 0 32 false, .rdacc 64 0 0 0 false, .rdacc 0 32 0 0 false] : List Instr).all
    (fun i => !wellFormed i) = true := by decide +kernel

/-- Ill-formed commands, piece 7. -/
theorem test_illFormed7 : ([.rdacc 0 0 4 0 false, .rdacc 0 0 0 32 false, .wracc 64 0 0 0 false, .wracc 0 4 0 0 false, .wracc 0 0 32 0 false,
    .wracc 0 0 0 32 false, .wraccp 64 0 0 0 false, .wraccp 0 4 0 0 false, .wraccp 0 0 32 0 false, .wraccp 0 0 0 32 false,
    .smax 64 0 0 false, .smax 0 4 0 false, .smax 0 0 32 false, .smin 64 0 0 false, .smin 0 4 0 false, .smin 0 0 32 false,
    .max 64 0 0 0 false, .max 0 32 0 0 false, .max 0 0 32 0 false, .max 0 0 0 32 false, .min 64 0 0 0 false, .min 0 32 0 0 false,
    .min 0 0 32 0 false, .min 0 0 0 32 false, .clamp 64 0 0 0 false, .clamp 0 32 0 0 false, .clamp 0 0 32 0 false, .clamp 0 0 0 32 false,
    .satn 64 0 0 0 false, .satn 0 32 0 0 false, .satn 0 0 32 0 false, .satn 0 0 0 32 false, .fsClear .pcie 256,
    .countedEdge 16 false false, .errQuad 16 false false, .comparePulseEnd 16, .idx 16 false, .zclrArm .pcie 16 0#32,
    .cmpWrite .pcie 16 0#32, .cmpEnable .pcie 16 0#32, .padTransition 48 false, .pulseAccept 48, .chatterAutoRelease 48,
    .chRelease .pcie 6 0#32, .stuck 48, .arm .pcie 16 0#32, .stop .pcie 16 0#32, .clear .pcie 16 0#32, .force .pcie 16 0#32,
    .rewind .pcie 16 0#32] : List Instr).all
    (fun i => !wellFormed i) = true := by decide +kernel

/-- Ill-formed commands, piece 8. -/
theorem test_illFormed8 : ([.markWrite .pcie 16 0#32, .caddyWindowWrite .pcie 0x800000 0#32, .dataLoWrite .pcie 4 0#32, .dataHiWrite .pcie 4 0#32,
    .dataLoRead .pcie 4, .flush .pcie 4, .resume .pcie 4, .streamNop 4, .streamWrite 4, .streamCommit 4, .waitTick 4, .waitTickDone 4,
    .streamReservedOp 4, .dmaEnable .pcie 5 0#32, .dmaDisable .pcie 5 0#32, .tailWrite .pcie 5 0#32,
    .dmaDescriptor 5 ⟨0, 0#32, 0#32⟩ [] [] false 0, .dmaDescriptor 0 ⟨0, 0#32, 0#32⟩ [] [] false 4, .short 5, .mbxGo .pcie 2 0,
    .mbxGo .pcie 0 (2 ^ 9), .mbxFullClear .pcie 2, .info (.mbx 2), .logRead (.mbx 2), .imgBegin (.mbx 2) false, .imgData (.mbx 2) false,
    .imgEnd (.mbx 2) false, .setPending (.mbx 2) false, .clearTries (.mbx 2), .resetCommand (.mbx 2), .keyProg (.mbx 2),
    .sensorConversion 20 0, .pllUnlock 5, .pllRelock 5, .resetRelease 10, .supplyLoss 3 false, .up 32, .inserv 32, .down 32 false,
    .lqUpdate 32 0 0 0 0, .cableGo .pcie 32, .cableDone 32 0 0, .cableDone 0 4 0, .cableDone 0 0 (2 ^ 16), .rxOther 32 false 0#32,
    .frameForward 32 ⟨[], true, 0#32⟩, .pourCompare 32 ⟨[], true, 0#32⟩, .serviceFrameReceive 32 ⟨[], true, 0#32⟩,
    .uplinkChunk 32 ⟨[], true, 0#32⟩, .desc 32 ⟨[], true, 0#32⟩] : List Instr).all
    (fun i => !wellFormed i) = true := by decide +kernel

/-- Ill-formed commands, piece 9. -/
theorem test_illFormed9 : ([.npbAck 32 ⟨[], true, 0#32⟩, .nodeLost 16 1, .nodeLost 0 17, .mbxTxGo .pcie 16 0#32, .mbxTxAbort .pcie 16 0#32, .mbxRxFree .pcie 16,
    .mbxTimeout 16, .mbxRxTimeout 16, .delayReqSend 16, .delayReqReceive 32 ⟨[], true, 0#32⟩, .delayRespSend 16,
    .delayRespReceive 32 ⟨[], true, 0#32⟩, .mcGo .pcie 8 0, .mcGo .pcie 0 32, .mcAbort .pcie 8 0, .mcAbort .pcie 0 32,
    .coldstartReceive 32 ⟨[], true, 0#32⟩, .hello ⟨0, 0, true⟩ (2 ^ 16) 0 0 0 0 0, .hello ⟨0, 0, true⟩ 0 (2 ^ 8) 0 0 0 0,
    .hello ⟨0, 0, true⟩ 0 0 (2 ^ 64) 0 0 0, .hello ⟨0, 0, true⟩ 0 0 0 4 0 0, .hello ⟨0, 0, true⟩ 0 0 0 0 (2 ^ 4) 0,
    .hello ⟨0, 0, true⟩ 0 0 0 0 0 (2 ^ 4), .tickMessage ⟨0, 0, true⟩ (2 ^ 64) 0 0 [], .tickMessage ⟨0, 0, true⟩ 0 4 0 [],
    .tickMessage ⟨0, 0, true⟩ 0 0 (2 ^ 64) [], .relay ⟨0, 0, true⟩ false 16 false 0 [] none,
    .relay ⟨0, 0, true⟩ false 0 false (2 ^ 17) [] none, .report ⟨0, 0, true⟩ 16 [] [], .verdict 256, .claim ⟨0, 0, true⟩ (2 ^ 64) 0,
    .claim ⟨0, 0, true⟩ 0 3, .deposed 32 ⟨[], true, 0#32⟩, .oldTenure 32 ⟨[], true, 0#32⟩, .pcieMemoryRequest (.read 2 []),
    .qspiWrite 0 [] 4, .qwrite 0 [] 4, .msixMessage 32, .leafPctlClr .pcie 64 false, .freeze .pcie (some 64) false,
    .pcntLoRead .pcie (some 64) 0, .pcntLoRead .pcie none (2 ^ 4), .bankSupplyChange 7 0, .bankSupplyChange 0 3, .pcieLinkUp 0 1,
    .pcieLinkUp 1 3, .slLaneLock 2 false, .ptpMessageSend [] 4 none, .pcieMemoryRequest (.write 2 []),
    .pcieMemoryRequest (.write 0 [(16, 0#32)])] : List Instr).all
    (fun i => !wellFormed i) = true := by decide +kernel

/-- Ill-formed commands, piece 10. -/
theorem test_illFormed10 : ([.pcieMemoryRequest (.read 0 [16]), .pcieMemoryRequest (.write 0 (List.replicate 65 (15, 0#32)))] : List Instr).all
    (fun i => !wellFormed i) = true := by decide +kernel

end Sys2Proof.Tests
end

/-!
PROOFS. The page of an address and its header registers, the gate of a page case by case, and the statement about it (R60, R61).
-/

namespace Sys2Proof.Machine

/-! ### The page of an address -/

/-- Every block of Table 2.2 begins on a page boundary. -/
theorem pageRows_base_mod : ∀ r ∈ pageRows, r.base % 0x1000 = 0 := by decide

/-- The pages that Table 2.2 locks after reset are PWR, RST, CLK, STBY and KTL (R60). -/
theorem pageRows_locked : ∀ r ∈ pageRows, r.locked = decide (r.type ∈ [0x05, 0x06, 0x07, 0x0B, 0x0C]) := by decide

/-- The page of an address is a row of Table 2.2 whose range holds the address, with the address's number in the block and offset. -/
theorem pageAt_spec {a : Nat} {q : PageAt} (h : pageAt a = some q) :
    q.page ∈ pageRows ∧ q.page.base ≤ a ∧ q = ⟨q.page, (a - q.page.base) / 0x1000, (a - q.page.base) % 0x1000⟩ := by
  unfold pageAt at h
  split at h
  · rename_i r hr
    have hin := List.find?_some hr
    rw [decide_eq_true_eq] at hin
    obtain rfl := Option.some.inj h
    exact ⟨List.mem_of_find?_eq_some hr, hin.1, rfl⟩
  · cases h

theorem pageAt_mem {a : Nat} {q : PageAt} (h : pageAt a = some q) : q.page ∈ pageRows := (pageAt_spec h).1

/-- The offset in a page is the address modulo the page size. -/
theorem pageAt_off {a : Nat} {q : PageAt} (h : pageAt a = some q) : q.off = a % 0x1000 := by
  obtain ⟨hmem, hle, hq⟩ := pageAt_spec h
  have hb := pageRows_base_mod _ hmem
  rw [hq]
  show (a - q.page.base) % 0x1000 = a % 0x1000
  omega

/-- The addresses of one page lie in the same block. -/
theorem pageAt_pageBase_add {a k : Nat} {q : PageAt} (h : pageAt a = some q) (hk : k < 0x1000) :
    pageAt (pageBase a + k) = some ⟨q.page, q.inst, k⟩ := by
  obtain ⟨hmem, hle, hq⟩ := pageAt_spec h
  have hb := pageRows_base_mod _ hmem
  have hfind : pageRows.find? (fun r => decide (r.base ≤ pageBase a + k ∧ pageBase a + k < r.base + 0x1000 * r.count)) =
      pageRows.find? (fun r => decide (r.base ≤ a ∧ a < r.base + 0x1000 * r.count)) := by
    refine List.find?_congr fun r hr => decide_eq_decide.mpr ?_
    have := pageRows_base_mod r hr
    unfold pageBase
    omega
  have hinst : (pageBase a + k - q.page.base) / 0x1000 = (a - q.page.base) / 0x1000 := by unfold pageBase; omega
  have hoff : (pageBase a + k - q.page.base) % 0x1000 = k := by unfold pageBase; omega
  unfold pageAt at h ⊢
  rw [hfind]
  split at h
  · obtain rfl := Option.some.inj h
    simp only at hinst hoff
    simp only [hinst, hoff]
  · cases h

/-! ### Locks at reset -/

/-- After reset a register beside the two inbound SF_STAT reads its reset value (R388). -/
theorem reset_reg {a : Nat} (h0 : a ≠ SF.SF_STAT 0) (h1 : a ≠ SF.SF_STAT 1) : State.reset.chip.reg a = regReset a := by
  have h0 : a ≠ 0xC0058 := h0
  have h1 : a ≠ 0xC1058 := h1
  simp [State.reset, Chip.reset, Chip.core, Chip.reg, Tab.get, h0, h1]

/-- The reset value of PG_LOCK is the lock that Table 2.2 gives the page. -/
theorem regReset_pgLock {a : Nat} {q : PageAt} (h : pageAt a = some q) :
    regReset (pgLock (pageBase a)) = if q.page.locked then oneBit 31 else 0#32 := by
  simp [regReset, pgLock, pageAt_pageBase_add h (show 0x24 < 0x1000 by decide), headerReset]

/-- R60: which pages stand locked after reset. -/
theorem reset_locked {a : Nat} {q : PageAt} (h : pageAt a = some q) :
    State.reset.chip.locked (pageBase a) = decide (q.page.type ∈ [0x05, 0x06, 0x07, 0x0B, 0x0C]) := by
  have h0 : pgLock (pageBase a) ≠ SF.SF_STAT 0 := by simp only [pgLock, pageBase, SF.SF_STAT]; omega
  have h1 : pgLock (pageBase a) ≠ SF.SF_STAT 1 := by simp only [pgLock, pageBase, SF.SF_STAT]; omega
  rw [← pageRows_locked _ (pageAt_mem h), Chip.locked, Chip.rb, reset_reg h0 h1, regReset_pgLock h]
  cases q.page.locked <;> decide

/-! ### Counts and events -/

/-- A saturating count goes up by one, or stays at all ones. -/
theorem Chip.satUp_counted (c : Chip) (a : Nat) : Counted c (c.satUp a) a := by
  have hlt := (c.reg a).isLt
  unfold Counted Chip.satUp Chip.rn
  split
  · omega
  · rw [Chip.bump, Chip.reg_bumpBy, if_pos rfl, BitVec.toNat_add, BitVec.toNat_ofNat]
    omega

/-- An event sets its bit (R58). -/
theorem Chip.evt_eventSet (c : Chip) (b : Nat) {i : Nat} (hi : i < 32) : EventSet (c.evt b i) b i := by
  have hbit : (oneBit i).getLsbD i = true := by
    rw [oneBit, BitVec.getLsbD_ofNat, Nat.testBit_two_pow_self, Bool.and_true, decide_eq_true hi]
  rw [EventSet, Chip.reg_evt, if_pos rfl, BitVec.getLsbD_or, hbit, Bool.or_true]

theorem pgErrcnt_ne_pgEvtRaw (b : Nat) : pgErrcnt b ≠ pgEvtRaw b := by simp [pgErrcnt, pgEvtRaw]

/-- What a locked page does with a write it discards: LOCK_VIOL, and one count in PG_ERRCNT (R61). -/
def Chip.lockViol (c : Chip) (b : Nat) : Chip := (c.evt b 30).errCount b

theorem Chip.lockViol_eventSet (c : Chip) (b : Nat) : EventSet (c.lockViol b) b 30 := by
  have hother := (Chip.satUp_onlyRegs (c.evt b 30) (pgErrcnt b)).2 (pgEvtRaw b)
    (by simpa using (pgErrcnt_ne_pgEvtRaw b).symm)
  rw [EventSet, Chip.lockViol, Chip.errCount, hother]
  exact Chip.evt_eventSet c b (by decide)

theorem Chip.lockViol_onlyRegs (c : Chip) (b : Nat) : OnlyRegs [pgEvtRaw b, pgErrcnt b] c (c.lockViol b) :=
  ((Chip.evt_onlyRegs c b 30).mono (by simp)).trans ((Chip.satUp_onlyRegs _ _).mono (by simp))

theorem Chip.lockViol_counted (c : Chip) (b : Nat) : Counted c (c.lockViol b) (pgErrcnt b) := by
  have hcount := Chip.satUp_counted (c.evt b 30) (pgErrcnt b)
  rwa [Counted, Chip.reg_evt, if_neg (pgErrcnt_ne_pgEvtRaw b)] at hcount

/-! ### The gate of a page, case by case -/

section

variable {c : Chip} {p : Port} {a : Nat} {q : PageAt}

/-- A page that is absent on the part ignores a write (R5). -/
theorem Chip.gate_absent (h : pageAt a = some q) (habs : c.absent q.page.type q.inst = true) : c.gate p a = (c, false) := by
  simp [Chip.gate, h, habs]

/-- A page whose domain is off ignores a write, and counts it where it comes from a host bus (R411). -/
theorem Chip.gate_unpowered (h : pageAt a = some q) (hreach : c.reach p = true)
    (hhere : c.absent q.page.type q.inst = false) (hoff : ¬c.domOn (pageDomain q.page.type) = true) :
    c.gate p a = (if p.isBus then c.trouble HOSTIF.DOMAIN_OFF else c, false) := by
  simp [Chip.gate, h, hreach, hhere, hoff]

/-- A page that is there and has its power asks for the lock, then for the settling of a soft reset (R57, R61). -/
theorem Chip.gate_powered (h : pageAt a = some q) (hreach : c.reach p = true)
    (hhere : c.absent q.page.type q.inst = false) (hon : c.domOn (pageDomain q.page.type) = true) :
    c.gate p a =
      if LocksOut c p a then (c.lockViol (pageBase a), false)
      else if c.settling.contains (pageBase a) then (c, false) else (c, true) := by
  simp [Chip.gate, h, hreach, hhere, hon, LocksOut, pageAt_off h, Chip.lockViol]

end

/-- Locks do not bind the Kettle (R60). -/
theorem LocksOut_kettle (c : Chip) (a : Nat) : LocksOut c .kettle a = false := by
  simp [LocksOut, Port.isHost]

/-- Settles O4: the gate taken apart in the order in which it asks, presence, power, lock, settling (log entries 8 and 9), and the locks of
the reset state. -/
theorem writeGate : Obligations.WriteGate := by
  unfold Obligations.WriteGate
  intro s p q a hq hreach c here powered
  refine ⟨?reaches, ?locked, ?settles, ?offBus, ?offOther, ?absent, ?kettle, reset_locked hq⟩
  case reaches =>
    intro hhere hon hlock hset
    rw [Reaches, Chip.gate_powered hq hreach hhere hon, hlock, hset]
    rfl
  case locked =>
    intro hhere hon hlock f
    have hgate : c.gate p a = (c.lockViol (pageBase a), false) := by
      rw [Chip.gate_powered hq hreach hhere hon, if_pos hlock]
    exact ⟨_, Chip.gated_of_shut hgate f, c.lockViol_eventSet _, c.lockViol_onlyRegs _, c.lockViol_counted _⟩
  case settles =>
    intro hhere hon hlock hset f
    refine Chip.gated_of_shut ?_ f
    rw [Chip.gate_powered hq hreach hhere hon, hlock, hset]
    rfl
  case offBus =>
    intro hhere hoff hbus f
    refine Chip.gated_of_shut ?_ f
    rw [Chip.gate_unpowered hq hreach hhere hoff, hbus, if_pos rfl]
  case offOther =>
    intro hhere hoff hbus f
    refine Chip.gated_of_shut ?_ f
    rw [Chip.gate_unpowered hq hreach hhere hoff, hbus]
    rfl
  case absent =>
    intro habs f
    exact Chip.gated_of_shut (Chip.gate_absent hq (Bool.eq_true_of_not_eq_false habs)) f
  case kettle =>
    rintro rfl
    exact LocksOut_kettle c a

end Sys2Proof.Machine

/-!
PROOFS. The fields of a word, the owner of the time base, and what a write of TIME_CTRL does part by part: the snapshot, SRC, the set
(R78 to R80).
-/

namespace Sys2Proof.Machine

/-! ### Fields of a word -/

theorem bit_eq_getLsbD (w : Word) (i : Nat) : bit w i = w.getLsbD i := rfl

theorem bit_or (v w : Word) (i : Nat) : bit (v ||| w) i = (bit v i || bit w i) := by
  simp [bit, Nat.testBit_or]

theorem getLsbD_fmask (hi lo i : Nat) : (fmask hi lo).getLsbD i = decide (i < 32 ∧ lo ≤ i ∧ i < hi + 1) := by
  rw [fmask, BitVec.getLsbD_ofNat, Nat.testBit_mul_two_pow, Nat.testBit_two_pow_sub_one]
  grind

/-- A field that has been written reads what was written, modulo its width. -/
theorem fld_putFld (w : Word) {hi lo : Nat} (v : Nat) (hhi : hi < 32) : fld (putFld w hi lo v) hi lo = v % 2 ^ (hi + 1 - lo) := by
  refine Nat.eq_of_testBit_eq fun i => ?_
  rw [fld, Nat.testBit_mod_two_pow, Nat.testBit_mod_two_pow, Nat.testBit_shiftRight]
  by_cases hin : i < hi + 1 - lo
  · have hmask : (fmask hi lo).getLsbD (lo + i) = true := by rw [getLsbD_fmask]; exact decide_eq_true (by omega)
    have hval : (BitVec.ofNat 32 (v * 2 ^ lo)).getLsbD (lo + i) = v.testBit i := by
      rw [BitVec.getLsbD_ofNat, Nat.testBit_mul_two_pow]
      simp [show lo + i < 32 by omega]
    have hbit : (putFld w hi lo v).getLsbD (lo + i) = v.testBit i := by
      simp [putFld, hmask, hval]
    rw [BitVec.testBit_toNat, hbit]
  · simp [hin]

/-! ### Nothing but registers: what stays -/

theorem OnlyRegs.tg {l : List Nat} {c d : Chip} (h : OnlyRegs l c d) : d.tg = c.tg := by rw [h.1]

theorem OnlyRegs.rf {l : List Nat} {c d : Chip} (h : OnlyRegs l c d) {a : Nat} (ha : a ∉ l) (hi lo : Nat) :
    d.rf a hi lo = c.rf a hi lo := by rw [Chip.rf, Chip.rf, h.2 a ha]

theorem OnlyRegs.rb {l : List Nat} {c d : Chip} (h : OnlyRegs l c d) {a : Nat} (ha : a ∉ l) (i : Nat) : d.rb a i = c.rb a i := by
  rw [Chip.rb, Chip.rb, h.2 a ha]

theorem Chip.setF_onlyRegs (c : Chip) (a hi lo v : Nat) : OnlyRegs [a] c (c.setF a hi lo v) := Chip.setReg_onlyRegs c a _

/-! ### The owner of the time base -/

/-- R79, R99: a host owns it with SRC = FREE, the Kettle with SRC = PTP while the PTP port is enabled. -/
theorem Chip.timeOwner_iff (c : Chip) (p : Port) :
    c.timeOwner p = true ↔
      (c.timeSrc = 0 ∧ p.isHost = true) ∨ (c.timeSrc = 1 ∧ p = .kettle ∧ c.rb PTP.PTP_CTRL 31 = true) := by
  simp only [Chip.timeOwner, Chip.servoOn, Bool.or_eq_true, Bool.and_eq_true, decide_eq_true_eq]
  tauto

theorem Chip.timeSrc_eq (c : Chip) : c.timeSrc = if c.lstate = 4 then 2 else c.rf TIME.TIME_CTRL 5 4 := by
  simp [Chip.timeSrc, Chip.isStandby]

/-! ### The set -/

/-- A set is refused while the tick runs, with SET_NS out of its range, or by a port that is not the owner (R78, R79). -/
theorem State.timeSet_refused {s : State} {p : Port} (later : Bool)
    (h : s.chip.tg.running = true ∨ 999999999 < s.chip.rf TIME.SET_NS 29 0 ∨ ¬s.chip.timeOwner p = true) :
    s.timeSet p later = s.onChip Chip.ctrlRef := by
  simp only [State.timeSet]
  rw [if_pos]
  simpa [or_assoc] using h

/-- The time that the SET registers hold: seconds and nanoseconds. -/
def Chip.setTime (c : Chip) : BitVec 48 × Nat :=
  (BitVec.ofNat 48 (c.rn TIME.SET_SEC_LO + c.rf TIME.SET_SEC_HI 15 0 * 2 ^ 32), c.rf TIME.SET_NS 29 0)

/-- A set that is accepted loads the time, or leaves it to the following clock period (R78, R80). -/
theorem State.timeSet_accepted {s : State} {p : Port} (later : Bool) (hrun : s.chip.tg.running = false)
    (hns : s.chip.rf TIME.SET_NS 29 0 ≤ 999999999) (hown : s.chip.timeOwner p = true) :
    s.timeSet p later = { s with tb :=
      if later then { s.tb with setDue := some s.chip.setTime } else { s.tb with ns := s.chip.setTime.2, sec := s.chip.setTime.1 } } := by
  simp only [State.timeSet]
  rw [if_neg (by simp [hrun, hown, hns])]
  cases later <;> rfl

/-- Of the chip a set changes no more than the events of its page. -/
theorem State.timeSet_onlyRegs (s : State) (p : Port) (later : Bool) :
    OnlyRegs [pgEvtRaw pgTime] s.chip (s.timeSet p later).chip := by
  simp only [State.timeSet]
  split
  · exact Chip.evt_onlyRegs _ _ _
  · split <;> exact OnlyRegs.refl _ _

/-! ### The snapshot -/

/-- The registers of a snapshot (Table 3.1). -/
def snapRegs : List Nat :=
  [TIME.SNAP_NS, TIME.SNAP_SEC_LO, TIME.SNAP_SEC_HI, TIME.SNAP_FAST, TIME.SNAP_TICK_LO, TIME.SNAP_TICK_HI, TIME.SNAP_OFS]

/-- What a register reads after a snapshot (R80). -/
theorem Chip.reg_snapshot (c : Chip) (tb : TimeBase) (a : Nat) :
    (c.snapshot tb).reg a =
      if a = TIME.SNAP_OFS then BitVec.ofNat 32 (if c.tg.running then c.ofs tb % 2 ^ 18 else 0)
      else if a = TIME.SNAP_TICK_HI then BitVec.ofNat 32 ((if c.tg.running then c.tg.tickNo.toNat else 0) / 2 ^ 32)
      else if a = TIME.SNAP_TICK_LO then BitVec.ofNat 32 (if c.tg.running then c.tg.tickNo.toNat else 0)
      else if a = TIME.SNAP_FAST then tb.fast
      else if a = TIME.SNAP_SEC_HI then BitVec.ofNat 32 (tb.sec.toNat / 2 ^ 32)
      else if a = TIME.SNAP_SEC_LO then BitVec.ofNat 32 tb.sec.toNat
      else if a = TIME.SNAP_NS then BitVec.ofNat 32 tb.ns
      else c.reg a := by
  simp only [Chip.snapshot, Chip.reg_setN, Chip.reg_setPair, Chip.reg_setReg]
  rfl

theorem Chip.snapshot_onlyRegs (c : Chip) (tb : TimeBase) : OnlyRegs snapRegs c (c.snapshot tb) := by
  refine ⟨rfl, fun a ha => ?_⟩
  simp only [snapRegs, List.mem_cons, List.not_mem_nil, or_false, not_or] at ha
  simp [Chip.reg_snapshot, ha]

section

variable (c : Chip) (tb : TimeBase)

theorem Chip.reg_snapshot_ns : (c.snapshot tb).reg TIME.SNAP_NS = BitVec.ofNat 32 tb.ns := Chip.reg_snapshot c tb _

theorem Chip.reg_snapshot_fast : (c.snapshot tb).reg TIME.SNAP_FAST = tb.fast := Chip.reg_snapshot c tb _

theorem Chip.reg_snapshot_secLo : (c.snapshot tb).reg TIME.SNAP_SEC_LO = tb.sec.setWidth 32 :=
  (Chip.reg_snapshot c tb _).trans (BitVec.ofNat_toNat 32 _)

theorem Chip.reg_snapshot_secHi : (c.snapshot tb).reg TIME.SNAP_SEC_HI = BitVec.ofNat 32 (tb.sec.toNat / 2 ^ 32) :=
  Chip.reg_snapshot c tb _

/-- The number of the tick, and 0 while the tick is stopped (R80). -/
theorem Chip.reg_snapshot_tickLo :
    (c.snapshot tb).reg TIME.SNAP_TICK_LO = if c.tg.running then c.tg.tickNo.setWidth 32 else 0#32 := by
  have h : (c.snapshot tb).reg TIME.SNAP_TICK_LO = BitVec.ofNat 32 (if c.tg.running then c.tg.tickNo.toNat else 0) :=
    Chip.reg_snapshot c tb _
  rw [h, apply_ite (BitVec.ofNat 32), BitVec.ofNat_toNat]

/-- The offset in the tick, and 0 while the tick is stopped (R80). -/
theorem Chip.reg_snapshot_ofs :
    (c.snapshot tb).reg TIME.SNAP_OFS =
      if c.tg.running then BitVec.ofNat 32 ((tb.fast - c.tg.t0Fast).toNat % 2 ^ 18) else 0#32 :=
  (Chip.reg_snapshot c tb _).trans (apply_ite (BitVec.ofNat 32) _ _ _)

end

/-! ### A write of TIME_CTRL -/

/-- The two parts of a write of TIME_CTRL that come before its set: the snapshot and SRC. -/
def State.snapAndSrc (s : State) (v : Word) : State :=
  (if bit v 0 then s.onChip (fun c => c.snapshot s.tb) else s).onChip (fun c => c.setF TIME.TIME_CTRL 5 4 (fld v 5 4))

theorem State.writeTimeCtrl_eq (s : State) (p : Port) (v : Word) :
    s.writeTimeCtrl p v = if bit v 1 then (s.snapAndSrc v).timeSet p (bit v 0) else s.snapAndSrc v := rfl

theorem State.snapAndSrc_eq_onChip (s : State) (v : Word) : s.snapAndSrc v = { s with chip := (s.snapAndSrc v).chip } := by
  unfold State.snapAndSrc; split <;> rfl

@[simp] theorem State.snapAndSrc_tb (s : State) (v : Word) : (s.snapAndSrc v).tb = s.tb := by rw [State.snapAndSrc_eq_onChip]

@[simp] theorem State.snapAndSrc_ktl (s : State) (v : Word) : (s.snapAndSrc v).ktl = s.ktl := by rw [State.snapAndSrc_eq_onChip]

theorem State.snapAndSrc_onlyRegs (s : State) (v : Word) :
    OnlyRegs (TIME.TIME_CTRL :: snapRegs) s.chip (s.snapAndSrc v).chip := by
  refine .trans (d := (if bit v 0 then s.onChip (fun c => c.snapshot s.tb) else s).chip) ?_
    ((Chip.setF_onlyRegs _ _ _ _ _).mono (by simp))
  split
  · exact (Chip.snapshot_onlyRegs _ _).mono fun _ => List.mem_cons_of_mem _
  · exact OnlyRegs.refl _ _

/-- SRC reads what was written there. -/
theorem State.snapAndSrc_src (s : State) (v : Word) : (s.snapAndSrc v).chip.rf TIME.TIME_CTRL 5 4 = v.toNat / 16 % 4 := by
  rw [State.snapAndSrc, State.onChip_chip, Chip.rf, Chip.reg_setF, if_pos rfl, fld_putFld _ _ (by decide), fld,
    Nat.shiftRight_eq_div_pow]
  omega

/-- Beside SRC, a write with SNAP = 1 leaves the registers as the snapshot does. -/
theorem State.reg_snapAndSrc {s : State} {v : Word} (hv : bit v 0 = true) {a : Nat} (ha : a ≠ TIME.TIME_CTRL) :
    (s.snapAndSrc v).chip.reg a = (s.chip.snapshot s.tb).reg a := by
  rw [State.snapAndSrc, if_pos hv, State.onChip_chip, State.onChip_chip, Chip.reg_setF, if_neg ha]

/-- The owner after a write of SRC is the owner under the new SRC. -/
theorem State.snapAndSrc_timeOwner_iff (s : State) (p : Port) (v : Word) :
    let src := if s.chip.lstate = 4 then 2 else v.toNat / 16 % 4
    (s.snapAndSrc v).chip.timeOwner p = true ↔
      (src = 0 ∧ p.isHost = true) ∨ (src = 1 ∧ p = .kettle ∧ s.chip.rb PTP.PTP_CTRL 31 = true) := by
  have honly := State.snapAndSrc_onlyRegs s v
  have hl : (s.snapAndSrc v).chip.lstate = s.chip.lstate := honly.rf (by decide) 31 28
  rw [Chip.timeOwner_iff, Chip.timeSrc_eq, State.snapAndSrc_src, hl, honly.rb (by decide)]

theorem State.snapAndSrc_setTime (s : State) (v : Word) : (s.snapAndSrc v).chip.setTime = s.chip.setTime := by
  have honly := State.snapAndSrc_onlyRegs s v
  rw [Chip.setTime, Chip.setTime, Chip.rn, Chip.rn, honly.2 _ (by decide), honly.rf (by decide), honly.rf (by decide)]

/-- What a write with SNAP = 1 leaves in the registers of the snapshot, whatever becomes of its set (R80). -/
theorem State.reg_writeTimeCtrl {s : State} (p : Port) {v : Word} (hv : bit v 0 = true) {a : Nat} (ha : a ∈ snapRegs) :
    (s.writeTimeCtrl p v).chip.reg a = (s.chip.snapshot s.tb).reg a := by
  have hctrl : a ≠ TIME.TIME_CTRL := by rintro rfl; revert ha; decide
  have hevt : a ∉ [pgEvtRaw pgTime] := by
    rw [List.mem_singleton]; rintro rfl; revert ha; decide
  rw [State.writeTimeCtrl_eq]
  split
  · rw [(State.timeSet_onlyRegs _ p _).2 a hevt, State.reg_snapAndSrc hv hctrl]
  · exact State.reg_snapAndSrc hv hctrl

/-- SET and SNAP, bits 1 and 0 of TIME_CTRL, lie below SRC: a word that holds only them leaves SRC. -/
theorem src_or_low (v w : Word) (hw : w.toNat < 16) : (v ||| w).toNat / 16 % 4 = v.toNat / 16 % 4 := by
  rw [BitVec.toNat_or, show 16 = 2 ^ 4 from rfl, ← Nat.shiftRight_eq_div_pow, Nat.shiftRight_or_distrib, Nat.shiftRight_eq_div_pow w.toNat,
    Nat.div_eq_of_lt hw, Nat.or_zero, Nat.shiftRight_eq_div_pow]

/-! ### The commands -/

theorem exec_timeSet {s : State} {p : Port} (h : Reaches s p TIME.TIME_CTRL) (v : Word) :
    exec (.timeSet p v) s = .next ((s.snapAndSrc (v ||| 2#32)).timeSet p (v.getLsbD 0)) := by
  have hset : bit (v ||| 2#32) 1 = true := by rw [bit_or, show bit 2#32 1 = true from rfl, Bool.or_true]
  have hsnap : bit (v ||| 2#32) 0 = v.getLsbD 0 := by rw [bit_or, show bit 2#32 0 = false from rfl, Bool.or_false, bit_eq_getLsbD]
  show Host.Outcome.next (s.gated p TIME.TIME_CTRL _) = _
  rw [State.gated_of_reaches h, State.writeTimeCtrl_eq, if_pos hset, hsnap]

theorem exec_snap {s : State} {p : Port} (h : Reaches s p TIME.TIME_CTRL) (v : Word) :
    exec (.snap p v) s = .next (s.writeTimeCtrl p (v ||| 1#32)) :=
  congrArg Host.Outcome.next (State.gated_of_reaches h _)

theorem exec_srcWrite {s : State} {p : Port} (h : Reaches s p TIME.TIME_CTRL) (v : Word) :
    exec (.srcWrite p v) s = .next (s.writeTimeCtrl p v) :=
  congrArg Host.Outcome.next (State.gated_of_reaches h _)

theorem exec_mark {s : State} {p : Port} (h : Reaches s p TIME.MARK) :
    exec (.mark p) s = .next (s.onChip (fun c => c.writeMark s.tb)) := by
  show Host.Outcome.next (s.onChip (fun c => c.gated p TIME.MARK _)) = _
  rw [State.onChip, Chip.gated_of_reaches h]
  rfl

theorem exec_slewDone (s : State) :
    exec .slewDone s = .next (if s.tb.slewDue then { s with tb := { s.tb with slewDue := false }, chip := s.chip.evt pgTime 2 } else s) := rfl

theorem exec_wrap (s : State) :
    exec .wrap s = .next (if s.tb.wrapDue then { s with tb := { s.tb with wrapDue := false }, chip := s.chip.evt pgTime 3 } else s) := rfl

/-- Settles O15: a write of TIME_CTRL taken apart into its snapshot, its SRC and its set, the set judged under the SRC that the write gives
(R78 to R80; the Kettle under another SRC is refused as a host is: log entry 61). -/
theorem timeCommands : Obligations.TimeCommands := by
  unfold Obligations.TimeCommands
  intro s p v src owner ns sec
  -- The state in which a set is judged.
  let u := s.snapAndSrc (v ||| 2#32)
  have honly : OnlyRegs (TIME.TIME_CTRL :: snapRegs) s.chip u.chip := State.snapAndSrc_onlyRegs s _
  have hsrc : u.chip.rf TIME.TIME_CTRL 5 4 = v.toNat / 16 % 4 :=
    (State.snapAndSrc_src s _).trans (src_or_low v 2#32 (by decide))
  have howner : u.chip.timeOwner p = true ↔ owner := by
    simpa only [src_or_low v 2#32 (by decide)] using State.snapAndSrc_timeOwner_iff s p (v ||| 2#32)
  have htick : u.chip.tg = s.chip.tg := honly.tg
  have hns : u.chip.rf TIME.SET_NS 29 0 = ns := honly.rf (by decide) 29 0
  have htime : u.chip.setTime = (sec, ns) := State.snapAndSrc_setTime s _
  refine ⟨?setLoads, ?setRefused, ?snap, ?src, exec_mark, ?slewDone, ?wrap, ?slewNotDue, ?wrapNotDue⟩
  case setLoads =>
    intro hreach hrun hrange hown
    have hset := State.timeSet_accepted (s := u) (v.getLsbD 0) (by rw [htick, hrun]) (by rwa [hns]) (howner.mpr hown)
    refine ⟨_, (exec_timeSet hreach v).trans (congrArg _ hset), ?_, State.snapAndSrc_ktl s _, hsrc⟩
    rw [htime, State.snapAndSrc_tb]
  case setRefused =>
    intro hreach href
    have hset := State.timeSet_refused (s := u) (p := p) (v.getLsbD 0) (by rwa [htick, hns, howner])
    exact ⟨_, (exec_timeSet hreach v).trans (congrArg _ hset), State.snapAndSrc_tb s _, Chip.evt_eventSet _ _ (by decide)⟩
  case snap =>
    intro hreach
    refine ⟨_, exec_snap hreach v, ?_⟩
    have hsnap : bit (v ||| 1#32) 0 = true := by rw [bit_or]; exact Bool.or_true _
    have hreg : ∀ a ∈ snapRegs, (s.writeTimeCtrl p (v ||| 1#32)).chip.reg a = (s.chip.snapshot s.tb).reg a :=
      fun a => State.reg_writeTimeCtrl p hsnap
    exact ⟨(hreg _ (by decide)).trans (Chip.reg_snapshot_ns _ _), (hreg _ (by decide)).trans (Chip.reg_snapshot_fast _ _),
      (hreg _ (by decide)).trans (Chip.reg_snapshot_secLo _ _), (hreg _ (by decide)).trans (Chip.reg_snapshot_secHi _ _),
      (hreg _ (by decide)).trans (Chip.reg_snapshot_tickLo _ _), (hreg _ (by decide)).trans (Chip.reg_snapshot_ofs _ _)⟩
  case src =>
    intro hreach hsnap hset
    have hwrite : s.writeTimeCtrl p v = s.snapAndSrc v := by
      rw [State.writeTimeCtrl_eq, bit_eq_getLsbD, hset]; rfl
    refine ⟨_, (exec_srcWrite hreach v).trans (congrArg _ hwrite), State.snapAndSrc_src s v, State.snapAndSrc_eq_onChip s v, ?_⟩
    rw [State.snapAndSrc, bit_eq_getLsbD, hsnap]
    exact Chip.setF_onlyRegs _ _ _ _ _
  case slewDone => intro h; rw [exec_slewDone, if_pos h]
  case wrap => intro h; rw [exec_wrap, if_pos h]
  case slewNotDue => intro h; rw [exec_slewDone, h]; rfl
  case wrapNotDue => intro h; rw [exec_wrap, h]; rfl

end Sys2Proof.Machine

/-!
PROOFS. What the slot Y operations on accumulators make of a Leaf, operation by operation, and the statement about them (R110, R137,
Table 5.7).
-/

namespace Sys2Proof.Machine

/-! ### Results with their flags -/

/-- R110: an accumulation saturates to 72 bits, and sets ASAT where that changes the exact sum. -/
theorem Leaf.accResult_sat72 (l : Leaf) (acc : Nat) (v : Int) :
    l.accResult acc (sat72 v) =
      (l.putAcc acc (BitVec.ofInt 72 (satI 72 v))).setFlags true (if satI 72 v = v then 0 else 2) := rfl

/-- R110: an extraction saturates to 32 bits, and sets SAT where that changes the exact value. -/
theorem Leaf.yResult_sat32 (l : Leaf) (gd : Nat) (v : Int) :
    l.yResult gd (sat32 v) = (l.putG true 2 gd (wOf (satI 32 v))).setFlags true (if satI 32 v = v then 0 else 1) := rfl

/-! ### Pair operands -/

theorem oddPair_iff (p : Nat) : oddPair p = true ↔ p % 2 = 1 := decide_eq_true_iff

@[simp] theorem orIll_false (f : Leaf → Leaf) (l : Leaf) : orIll false f l = f l := rfl

/-- Two pair operands: ILL is set where one of them is odd. -/
theorem oddPair_or_iff (p q : Nat) : (oddPair p || oddPair q) = true ↔ p % 2 = 1 ∨ q % 2 = 1 := by
  rw [Bool.or_eq_true, oddPair_iff, oddPair_iff]

/-- R137: an operation with an odd pair does nothing but set ILL. -/
theorem orIll_of_iff {bad : Bool} {P : Prop} [Decidable P] (h : bad = true ↔ P) (f : Leaf → Leaf) (l : Leaf) :
    orIll bad f l = if P then l.put true 3 .flagSet 4 else f l := if_congr h rfl rfl

/-- An accumulator's partner in `mac2`: the other of accumulators 0 and 1, or of 2 and 3. -/
theorem xor_one_eq (acc : Nat) : Nat.xor acc 1 = if acc % 2 = 0 then acc + 1 else acc - 1 := by
  split
  case isTrue heven => exact Nat.xor_one_of_even (Nat.even_iff.mpr heven)
  case isFalse hodd => exact Nat.xor_one_of_odd (Nat.odd_iff.mpr (Nat.mod_two_ne_zero.mp hodd))

/-- The split form accumulates the product of the first registers of its pairs, and in the partner accumulator that of the second. -/
theorem opMac2_eq (acc gp gq : Nat) (l : Leaf) :
    opMac2 acc gp gq l =
      (l.accResult acc (sat72 ((l.rdAccAdd acc).toInt + l.prod gp gq))).accResult (if acc % 2 = 0 then acc + 1 else acc - 1)
        (sat72 ((l.rdAccAdd (if acc % 2 = 0 then acc + 1 else acc - 1)).toInt + l.prod (gp + 1) (gq + 1))) := by
  rw [opMac2, xor_one_eq]

/-! ### The parts of an accumulator -/

section

variable (gd acc : Nat) (l : Leaf)

theorem opRdacc_low : opRdacc gd acc 0 l = l.putG true 2 gd ((l.rdAcc acc).setWidth 32) :=
  congrArg (l.putG true 2 gd) (BitVec.ofNat_toNat 32 _)

theorem opRdacc_mid : opRdacc gd acc 1 l = l.putG true 2 gd (BitVec.ofNat 32 ((l.rdAcc acc).toNat / 2 ^ 32)) := rfl

theorem opRdacc_top :
    opRdacc gd acc 2 l = l.putG true 2 gd (BitVec.ofInt 32 (signedN 8 ((l.rdAcc acc).toNat / 2 ^ 64))) := rfl

theorem opRdacc_tag : opRdacc gd acc 3 l = l.putG true 2 gd (BitVec.ofNat 32 (l.rdTag acc)) := rfl

end

/-! ### Completion -/

section

variable {s : State} {n : Nat}

/-- A slot Y instruction without a pair operand completes with its effect. -/
theorem State.slotY_issues_of_noPair (h : (s.chip.leaf n).canIssue = true) {k : Nat} {f : Leaf → Leaf} {i : Bool → Instr}
    (hi : ∀ b, exec (i b) s = s.slotY n b false k f) {l : Leaf} (hl : f (s.chip.leaf n) = l) : Issues s n true i l :=
  State.slotY_issues s n h false k f i hi l ((orIll_false _ _).trans hl)

/-- A slot Y instruction with pair operands completes with ILL where a pair is odd (`P`), and with its effect elsewhere. -/
theorem State.slotY_issues_of_pair (h : (s.chip.leaf n).canIssue = true) {bad : Bool} {k : Nat} {f : Leaf → Leaf} {i : Bool → Instr}
    (hi : ∀ b, exec (i b) s = s.slotY n b bad k f) {P : Prop} [Decidable P] (hbad : bad = true ↔ P) {l : Leaf}
    (hl : f (s.chip.leaf n) = l) :
    Issues s n true i (if P then (s.chip.leaf n).put true 3 .flagSet 4 else l) :=
  State.slotY_issues s n h bad k f i hi _ (hl ▸ orIll_of_iff hbad f _)

end

/-- Settles O28: each operation completes with its effect, which the lemmas above give, and those with pair operands with ILL where a
pair is odd. -/
theorem leafAccumulators : Obligations.LeafAccumulators := by
  unfold Obligations.LeafAccumulators
  intro s n acc gd gs gt sh _ _ hissue l prod put ext ill other
  refine ⟨?mul, ?mac, ?mac2, ?mac2s, ?clr, ?ext, ?exts, ?rdaccLow, ?rdaccMid, ?rdaccTop, ?rdaccTag, ?wracc, ?wraccp⟩
  case mul => exact State.slotY_issues_of_noPair hissue (fun _ => rfl) rfl
  case mac => exact State.slotY_issues_of_noPair hissue (fun _ => rfl) (l.accResult_sat72 acc _)
  case mac2 => exact State.slotY_issues_of_pair hissue (fun _ => rfl) (oddPair_or_iff gs gt) (opMac2_eq acc gs gt l)
  case mac2s => exact State.slotY_issues_of_pair hissue (fun _ => rfl) (oddPair_or_iff gs gt) (l.accResult_sat72 acc _)
  case clr => exact State.slotY_issues_of_noPair hissue (fun _ => rfl) rfl
  case ext => exact State.slotY_issues_of_noPair hissue (fun _ => rfl) (l.yResult_sat32 gd _)
  case exts => exact State.slotY_issues_of_noPair hissue (fun _ => rfl) (l.yResult_sat32 gd _)
  case rdaccLow => exact State.slotY_issues_of_noPair hissue (fun _ => rfl) (opRdacc_low gd acc l)
  case rdaccMid => exact State.slotY_issues_of_noPair hissue (fun _ => rfl) (opRdacc_mid gd acc l)
  case rdaccTop => exact State.slotY_issues_of_noPair hissue (fun _ => rfl) (opRdacc_top gd acc l)
  case rdaccTag => exact State.slotY_issues_of_noPair hissue (fun _ => rfl) (opRdacc_tag gd acc l)
  case wracc => exact State.slotY_issues_of_noPair hissue (fun _ => rfl) rfl
  case wraccp => exact State.slotY_issues_of_pair hissue (fun _ => rfl) (oddPair_iff gs) rfl

end Sys2Proof.Machine

/-!
PROOFS. The registers that a slow cup does not have, the instructions that do nothing but set ILL, and the statement about both (R103,
R116, R137).
-/

namespace Sys2Proof.Machine

/-! ### g0 and the unbanked registers -/

@[simp] theorem Leaf.rdG_zero (l : Leaf) : l.rdG 0 = 0#32 := rfl

@[simp] theorem Leaf.putG_zero (l : Leaf) (y : Bool) (lat : Nat) (v : Word) : l.putG y lat 0 v = l := rfl

theorem Leaf.rdG_of_unbanked {l : Leaf} (hb : l.bankB = true) {r : Nat} (hr : r < 16) : l.rdG r = 0#32 := by
  simp [Leaf.rdG, hb, hr]

theorem Leaf.putG_of_unbanked {l : Leaf} (hb : l.bankB = true) {r : Nat} (h0 : 0 < r) (hr : r < 16) (y : Bool) (lat : Nat) (v : Word) :
    l.putG y lat r v = l.put y 3 .flagSet 16 := by
  simp [Leaf.putG, hb, hr, h0.ne', Leaf.setFlags, flgBGREG]

/-- A register that the bank has takes its result; a cup's bank has every register, a slow cup's those from g16 up. -/
theorem Leaf.putG_of_banked {l : Leaf} {r : Nat} (h0 : 0 < r) (hr : l.bankB = true → 16 ≤ r) (y : Bool) (lat : Nat) (v : Word) :
    l.putG y lat r v = l.put y lat (.g r) v.toNat := by
  have hbanked : ¬(l.bankB && decide (r < 16)) = true := by
    rw [Bool.and_eq_true, decide_eq_true_eq]
    exact fun ⟨hb, hlt⟩ => Nat.not_lt.mpr (hr hb) hlt
  rw [Leaf.putG, if_neg h0.ne', if_neg hbanked]

theorem Leaf.rdA_of_unbanked {l : Leaf} (hb : l.bankB = true) {r : Nat} (hr : r < 4) : l.rdA r = 0#32 := by
  simp [Leaf.rdA, hb, hr]

theorem Leaf.putA_of_unbanked {l : Leaf} (hb : l.bankB = true) {r : Nat} (hr : r < 4) (v : Word) :
    l.putA r v = l.put false 3 .flagSet 16 := by
  simp [Leaf.putA, hb, hr, Leaf.setFlags, flgBGREG]

/-! ### Odd pairs -/

section

variable {s : State} {n : Nat}

/-- A slot Y instruction whose pair is odd (`bad`) completes with ILL. -/
theorem State.slotY_issues_ill (h : (s.chip.leaf n).canIssue = true) {bad : Bool} {k : Nat} {f : Leaf → Leaf} {i : Bool → Instr}
    (hi : ∀ b, exec (i b) s = s.slotY n b bad k f) (hbad : bad = true) :
    Issues s n true i ((s.chip.leaf n).put true 3 .flagSet 4) :=
  State.slotY_issues s n h bad k f i hi _ (if_pos hbad)

/-- A memory instruction whose access leaves the Leaf running completes with what the access makes of the chip. -/
theorem State.mem_issues (h : (s.chip.leaf n).canIssue = true) {op g a aux k : Nat} {post : Bool} {i : Bool → Instr}
    (hi : ∀ b, exec (i b) s = s.mem n b op g a post aux k) {d : Chip}
    (hd : s.chip.opXM s.tb n false op g a post aux (signedN 12 k) = some d) (hstays : (s.chip.leaf n).stays (d.leaf n) = true) {l : Leaf}
    (hl : AlikeButPerf (s.chip.setLeaf n l) d) : Issues s n false i l := by
  refine State.issue_issues s n h false ((decide (op = 0x15 ∨ op = 0x1B)) && oddPair g)
    (fun c => (c.opXM s.tb n false op g a post aux (signedN 12 k)).getD c) i (fun b => ?_) l ?_
  · rw [hi b, State.mem, State.onChip, Chip.issueMem_eq]
    rwa [hd]
  · rwa [hd]

/-- R137: `ldd` and `std` of an odd register touch no memory and set ILL. -/
theorem Chip.opXM_of_oddPair (n : Nat) (c : Chip) (tb : TimeBase) (step : Bool) {op g : Nat} (hop : op = 0x15 ∨ op = 0x1B) (hg : g % 2 = 1)
    (a : Nat) (post : Bool) (aux : Nat) (k : Int) :
    c.opXM tb n step op g a post aux k = some (c.modLeaf n (fun l => l.put false 3 .flagSet 4)) := by
  have hodd : oddPair g = true := (oddPair_iff g).mpr hg
  obtain rfl | rfl := hop
  · exact congrArg some (if_pos hodd)
  · exact congrArg some (if_pos hodd)

/-- `ldd` and `std` of an odd register complete with ILL. -/
theorem State.mem_issues_ill (h : (s.chip.leaf n).canIssue = true) {op g a aux k : Nat} {post : Bool} {i : Bool → Instr}
    (hi : ∀ b, exec (i b) s = s.mem n b op g a post aux k) (hop : op = 0x15 ∨ op = 0x1B) (hg : g % 2 = 1) :
    Issues s n false i ((s.chip.leaf n).put false 3 .flagSet 4) := by
  refine State.mem_issues h hi (Chip.opXM_of_oddPair _ _ _ _ hop hg _ _ _ _) ?stays (AlikeButPerf.refl _)
  simp [Leaf.stays, Leaf.put]

end

/-- Settles O30: an instruction with an odd pair completes with ILL, in slot X by the lemma for memory operands and in slot Y by that for
pair operands; the register rules are the lemmas above. -/
theorem leafRegisterRules : Obligations.LeafRegisterRules := by
  unfold Obligations.LeafRegisterRules
  constructor
  · intro s n g h a acc k post _ hissue hg l
    have hodd : oddPair g = true := (oddPair_iff g).mpr hg
    have hodd_left : (oddPair g || oddPair h) = true := (oddPair_or_iff g h).mpr (.inl hg)
    have hodd_right : (oddPair h || oddPair g) = true := (oddPair_or_iff h g).mpr (.inr hg)
    refine ⟨?ldd, ?std, ?mac2Left, ?mac2Right, ?mac2sLeft, ?mac2sRight, ?clamp, ?wraccp⟩
    case ldd => exact State.mem_issues_ill hissue (fun _ => rfl) (.inl rfl) hg
    case std => exact State.mem_issues_ill hissue (fun _ => rfl) (.inr rfl) hg
    case mac2Left => exact State.slotY_issues_ill hissue (fun _ => rfl) hodd_left
    case mac2Right => exact State.slotY_issues_ill hissue (fun _ => rfl) hodd_right
    case mac2sLeft => exact State.slotY_issues_ill hissue (fun _ => rfl) hodd_left
    case mac2sRight => exact State.slotY_issues_ill hissue (fun _ => rfl) hodd_right
    case clamp => exact State.slotY_issues_ill hissue (fun _ => rfl) hodd
    case wraccp => exact State.slotY_issues_ill hissue (fun _ => rfl) hodd
  · intro l r lat v y
    exact ⟨l.rdG_zero, l.putG_zero y lat v, fun hb => Leaf.rdG_of_unbanked hb, fun hb h0 hr => Leaf.putG_of_unbanked hb h0 hr y lat v,
      fun hb hr => ⟨Leaf.rdA_of_unbanked hb hr, Leaf.putA_of_unbanked hb hr v⟩, fun h0 hr => Leaf.putG_of_banked h0 hr y lat v⟩

end Sys2Proof.Machine

/-!
PROOFS. The search steps and limits of slot Y, the instructions without effect and those that the tables do not list, and the statement
about them (R136, R148, Table 5.7).
-/

namespace Sys2Proof.Machine

/-! ### Search (R148) -/

/-- An element replaces the extreme of a search: it is the first, or strictly greater, or strictly smaller, than the extreme so far. -/
def replacesExtreme (maxi : Bool) (a : Acc) (x : Word) : Bool :=
  decide (a.toNat / 2 ^ 48 % 2 ^ 16 = 0) ||
    (if maxi then decide ((BitVec.ofNat 32 a.toNat).toInt < x.toInt) else decide (x.toInt < (BitVec.ofNat 32 a.toNat).toInt))

/-- The accumulator after a search step: one more in the count, and below it the index and value of the element where it replaces the
extreme (`better`), else those that stood. -/
def searchNext (better : Bool) (a : Nat) (x : Word) : Acc :=
  BitVec.ofNat 72 ((a / 2 ^ 48 % 2 ^ 16 + 1) * 2 ^ 48 +
    (if better then a / 2 ^ 48 % 2 ^ 16 * 2 ^ 32 + x.toNat else a / 2 ^ 32 % 2 ^ 16 * 2 ^ 32 + (BitVec.ofNat 32 a).toNat))

theorem searchStep_of_full {maxi : Bool} {a : Acc} (hfull : a.toNat / 2 ^ 48 % 2 ^ 16 = 0xFFFF) (x : Word) :
    searchStep maxi a x = (a, flgASAT) := if_pos hfull

theorem searchStep_of_room {maxi : Bool} {a : Acc} (hroom : a.toNat / 2 ^ 48 % 2 ^ 16 ≠ 0xFFFF) (x : Word) :
    searchStep maxi a x = (searchNext (replacesExtreme maxi a x) a.toNat x, 0) := by
  refine (if_neg hroom).trans (Prod.ext (congrArg (BitVec.ofNat 72) ?_) rfl)
  -- the model chooses index and value apart, `searchNext` the two together
  change _ + (if replacesExtreme maxi a x then _ else _) * _ + BitVec.toNat (if replacesExtreme maxi a x then _ else _) = _
  cases replacesExtreme maxi a x
  case false => exact Nat.add_assoc _ _ _
  case true => exact Nat.add_assoc _ _ _

/-- R148: in a search for the maximum the element must be strictly greater. -/
theorem replacesExtreme_max (a : Acc) (x : Word) :
    replacesExtreme true a x = decide (a.toNat / 2 ^ 48 % 2 ^ 16 = 0 ∨ (BitVec.ofNat 32 a.toNat).toInt < x.toInt) := by
  rw [replacesExtreme, if_pos rfl, Bool.decide_or]

/-- R148: in a search for the minimum the element must be strictly smaller. -/
theorem replacesExtreme_min (a : Acc) (x : Word) :
    replacesExtreme false a x = decide (a.toNat / 2 ^ 48 % 2 ^ 16 = 0 ∨ x.toInt < (BitVec.ofNat 32 a.toNat).toInt) := by
  rw [replacesExtreme, if_neg Bool.false_ne_true, Bool.decide_or]

/-- A search step on a Leaf: ASAT where the count is full, else the next state of the search in the accumulator. -/
theorem opSearch_eq {maxi better : Bool} {acc gs : Nat} {l : Leaf} (hbetter : replacesExtreme maxi (l.rdAccAdd acc) (l.rdG gs) = better) :
    opSearch maxi acc gs l =
      if (l.rdAccAdd acc).toNat / 2 ^ 48 % 2 ^ 16 = 0xFFFF then l.put true 3 .flagSet 2
      else l.putAcc acc (searchNext better (l.rdAccAdd acc).toNat (l.rdG gs)) := by
  by_cases hcount : (l.rdAccAdd acc).toNat / 2 ^ 48 % 2 ^ 16 = 0xFFFF
  case pos => rw [opSearch, searchStep_of_full hcount, if_pos hcount]; rfl
  case neg => rw [opSearch, searchStep_of_room hcount, if_neg hcount, hbetter]; rfl

/-! ### Limits -/

/-- A result that sets no flag. -/
theorem Leaf.yResult_noFlag (l : Leaf) (gd : Nat) (v : Word) : l.yResult gd (v, 0) = l.putG true 2 gd v := rfl

/-- `satn`: the value limited to `w + 1` bits, with SAT where that changes it. -/
theorem opSatn_eq (gd gs w : Nat) (l : Leaf) :
    opSatn gd gs w l =
      (l.putG true 2 gd (wOf (clampI (-(2 ^ w)) (2 ^ w - 1) (l.rdG gs).toInt))).setFlags true
        (if clampI (-(2 ^ w)) (2 ^ w - 1) (l.rdG gs).toInt = (l.rdG gs).toInt then 0 else 1) := rfl

/-! ### The middle part of an accumulator -/

/-- Count and index of a search are what `rdacc` reads as the middle part of its accumulator. -/
theorem ofNat_div_two_pow_32_eq_count_index (a : Nat) :
    BitVec.ofNat 32 (a / 2 ^ 32) = BitVec.ofNat 32 (a / 2 ^ 48 % 2 ^ 16 * 2 ^ 16 + a / 2 ^ 32 % 2 ^ 16) := by
  apply BitVec.eq_of_toNat_eq
  rw [BitVec.toNat_ofNat, BitVec.toNat_ofNat]
  omega

/-! ### nop and unlisted opcodes -/

section

variable {s : State} {n : Nat}

/-- R136: `nop` completes with the Leaf as it was, in slot X or, where that has its instruction, in slot Y. -/
theorem State.nop_issues (h : (s.chip.leaf n).canIssue = true) : Issues s n (s.chip.leaf n).usedX (.nop n) (s.chip.leaf n) := by
  have hexec : ∀ last, exec (.nop n last) s =
      .next { s with chip := s.chip.issue n (s.chip.leaf n).usedX last true (fun c => c) } := fun _ => rfl
  refine ⟨fun hfree => ⟨_, hexec false, ⟨rfl, ?now⟩, ?closes⟩, fun hused last => ?none⟩
  case now => exact Chip.issue_alike s.chip n _ true (fun c => c) h hfree
  case closes => rw [hexec true, Chip.issue_last _ _ _ _ _ h hfree, State.onChip]
  case none => rw [hexec last, Chip.issue_used _ _ _ _ _ _ hused]

theorem State.reservedOpcode_issues (h : (s.chip.leaf n).canIssue = true) (y : Bool) :
    Issues s n y (.reservedOpcode n y) ((s.chip.leaf n).put y 3 .flagSet 4) :=
  State.slotOr_issues s n h (fun _ => true) y (fun l => l) _ (fun _ => rfl) _ rfl

end

/-- Settles O29: each operation completes with its effect, `clamp` with ILL where its pair is odd; the search steps by the lemma that says
what one does, with the strict comparison of its direction. -/
theorem leafSearchAndLimit : Obligations.LeafSearchAndLimit := by
  unfold Obligations.LeafSearchAndLimit
  constructor
  · intro s n acc gd gs gt w _ _ hissue l x y a cnt cur search lim
    refine ⟨?smax, ?smin, ?max, ?min, ?clamp, ?satn, ?rdaccLow, ?rdaccMid, ?nop⟩
    case smax => exact State.slotY_issues_of_noPair hissue (fun _ => rfl) (opSearch_eq (replacesExtreme_max _ _))
    case smin => exact State.slotY_issues_of_noPair hissue (fun _ => rfl) (opSearch_eq (replacesExtreme_min _ _))
    case max => exact State.slotY_issues_of_noPair hissue (fun _ => rfl) (l.yResult_noFlag gd _)
    case min => exact State.slotY_issues_of_noPair hissue (fun _ => rfl) (l.yResult_noFlag gd _)
    case clamp => exact State.slotY_issues_of_pair hissue (fun _ => rfl) (oddPair_iff gt) (l.yResult_noFlag gd _)
    case satn => exact State.slotY_issues_of_noPair hissue (fun _ => rfl) (opSatn_eq gd gs w l)
    case rdaccLow => exact State.slotY_issues_of_noPair hissue (fun _ => rfl) (opRdacc_low gd acc l)
    case rdaccMid =>
      exact State.slotY_issues_of_noPair hissue (fun _ => rfl)
        ((opRdacc_mid gd acc l).trans (congrArg (l.putG true 2 gd) (ofNat_div_two_pow_32_eq_count_index _)))
    case nop => exact State.nop_issues hissue
  · exact fun s n y _ hissue => State.reservedOpcode_issues hissue y

end Sys2Proof.Machine

/-!
PROOFS. Stream FIFOs: what a change of the words held, a push and a pop leave, which words the command sink takes, and the statement about
both (R387 to R393).
-/

namespace Sys2Proof.Machine

/-! ### Bits of a word -/

/-- A bit of a word after a field has been written: of the value inside the field, of the word outside it. -/
theorem bit_putFld (w : Word) {hi lo : Nat} (v i : Nat) (hhi : hi < 32) :
    bit (putFld w hi lo v) i = if lo ≤ i ∧ i ≤ hi then v.testBit (i - lo) else bit w i := by
  rw [bit_eq_getLsbD, bit_eq_getLsbD, putFld, BitVec.getLsbD_or, BitVec.getLsbD_and, BitVec.getLsbD_and, BitVec.getLsbD_not,
    getLsbD_fmask, BitVec.getLsbD_ofNat, Nat.testBit_mul_two_pow]
  split
  case isTrue hin => simp [show i < 32 by omega, show lo ≤ i by omega, show i < hi + 1 by omega]
  case isFalse hout =>
    have hmask : ¬(i < 32 ∧ lo ≤ i ∧ i < hi + 1) := by omega
    rw [decide_eq_false hmask]
    simpa using BitVec.lt_of_getLsbD

/-! ### Nothing but registers: the blocks that stay -/

theorem OnlyRegs.sfs {l : List Nat} {c d : Chip} (h : OnlyRegs l c d) : d.sfs = c.sfs := by rw [h.1]

theorem OnlyRegs.sf {l : List Nat} {c d : Chip} (h : OnlyRegs l c d) (n : Nat) : d.sf n = c.sf n := by rw [Chip.sf, Chip.sf, h.sfs]

theorem OnlyRegs.cm {l : List Nat} {c d : Chip} (h : OnlyRegs l c d) : d.cm = c.cm := by rw [h.1]

theorem OnlyRegs.port {l : List Nat} {c d : Chip} (h : OnlyRegs l c d) (p : Port) : d.port p = c.port p := by
  rw [Chip.port, Chip.port, h.1]

theorem OnlyRegs.rst {l : List Nat} {c d : Chip} (h : OnlyRegs l c d) : d.rst = c.rst := by rw [h.1]

theorem OnlyRegs.settling {l : List Nat} {c d : Chip} (h : OnlyRegs l c d) : d.settling = c.settling := by rw [h.1]

theorem Chip.perf_onlyRegs (c : Chip) (ev k : Nat) (l : List Nat) : OnlyRegs l c (c.perf ev k) := by
  have halike := Chip.perf_alike c ev k
  refine ⟨?_, fun a _ => halike.reg a⟩
  rw [halike]

/-! ### The gate of a page -/

section

variable {c d : Chip} {p : Port} {a : Nat}

/-- What a write needs to pass the gate of its page. -/
theorem Chip.gate_open_iff :
    c.gate p a = (c, true) ↔ ∃ q, pageAt a = some q ∧ c.absent q.page.type q.inst = false ∧ c.reach p = true ∧
      c.domOn (pageDomain q.page.type) = true ∧ LocksOut c p a = false ∧ c.settling.contains (pageBase a) = false := by
  cases hq : pageAt a with
  | none => simp [Chip.gate, hq]
  | some q =>
    by_cases hreach : c.reach p = true
    · by_cases hhere : c.absent q.page.type q.inst = false
      · by_cases hon : c.domOn (pageDomain q.page.type) = true
        · rw [Chip.gate_powered hq hreach hhere hon]
          split_ifs with hlock hset <;> simp_all
        · rw [Chip.gate_unpowered hq hreach hhere hon]
          simp [hon]
      · rw [Chip.gate_absent hq (Bool.eq_true_of_not_eq_false hhere)]
        simp [hhere]
    · simp [Chip.gate, hq, hreach]

/-- A chip with the same reset state, the same settling pages and the same words in CHIP_ID, DOM_ON and the page's PG_LOCK lets a
write through as well. -/
theorem Chip.gate_open_of_alike (hgate : c.gate p a = (c, true)) (hrst : d.rst = c.rst) (hset : d.settling = c.settling)
    (hid : d.reg CHIP.CHIP_ID = c.reg CHIP.CHIP_ID) (hdom : d.reg PWR.DOM_ON = c.reg PWR.DOM_ON)
    (hlock : d.reg (pgLock (pageBase a)) = c.reg (pgLock (pageBase a))) : d.gate p a = (d, true) := by
  have hpart : d.m128 = c.m128 := by rw [Chip.m128, Chip.m128, Chip.rf, Chip.rf, hid]
  have habsent : ∀ k i, d.absent k i = c.absent k i := fun k i => by unfold Chip.absent; rw [hpart]
  have hon : ∀ k, d.domOn k = c.domOn k := fun k => by rw [Chip.domOn, Chip.domOn, Chip.rb, Chip.rb, hdom]
  have hreach : d.reach p = c.reach p := by rw [Chip.reach, Chip.reach, hon, Chip.live, Chip.live, hrst]
  have hlocks : LocksOut d p a = LocksOut c p a := by rw [LocksOut, LocksOut, Chip.locked, Chip.locked, Chip.rb, Chip.rb, hlock]
  rw [Chip.gate_open_iff] at hgate ⊢
  simpa only [habsent, hon, hreach, hlocks, hset] using hgate

end

/-- A write that reaches its register on a page is the effect of that page (R49). -/
theorem State.write_of_reaches {s : State} {p : Port} {a : Nat} {q : PageAt} (h : Reaches s p a) (hq : pageAt a = some q) (v : Word) :
    s.write p 15 a v = s.writeAt p q a v := by
  obtain ⟨_, _, _, hreach, _⟩ := Chip.gate_open_iff.mp h
  have hzone : zoneOf a = .page q := by rw [zoneOf, hq]
  simpa [State.write, hreach, hzone] using State.gated_of_reaches h (fun s => s.writeAt p q a v)

/-- A read of a register whose page is there and has its power (R49). -/
theorem State.read_of_reads {s : State} {p : Port} {q : PageAt} {a : Nat} (h : Reads s p q a) : s.read p 15 a = s.readReg p q a := by
  obtain ⟨hq, hreach, hhere, hon⟩ := h
  have hzone : zoneOf a = .page q := by rw [zoneOf, hq]
  simp [State.read, State.readOn, Chip.offFor, hreach, hzone, hhere, hon]

/-! ### Trouble counters -/

theorem Chip.trouble_counted {c : Chip} {a : Nat} (ha : a ≠ pgErrcnt (pageBase a)) : Counted c (c.trouble a) a := by
  unfold Chip.trouble
  split
  case isTrue hfull =>
    have hfull : (c.reg a).toNat = 0xFFFFFFFF := hfull
    rw [Counted, hfull]
    rfl
  case isFalse hroom =>
    have hup : c.satUp a = c.bump a := if_neg hroom
    rw [← hup, Counted, Chip.errCount, (Chip.satUp_onlyRegs _ _).2 a (by simpa using ha)]
    exact Chip.satUp_counted c a

/-- A trouble counter that comes with an event counts as without it. -/
theorem Chip.trouble_evt_counted {c : Chip} {a b : Nat} (i : Nat) (ha : a ≠ pgErrcnt (pageBase a)) (hb : a ≠ pgEvtRaw b) :
    Counted c ((c.trouble a).evt b i) a := by
  rw [Counted, Chip.reg_evt, if_neg hb]
  exact Chip.trouble_counted ha

/-! ### The registers of an SF page -/

/-- The registers in which a FIFO tells of errors in its words. -/
def sfErrRegs (n : Nat) : List Nat := [SF.CORR n, SF.UE n, pgErrcnt (pgSf n), pgEvtRaw (pgSf n)]

/-- The registers in which a FIFO tells of its words. -/
def sfRegs (n : Nat) : List Nat := [SF.SF_STAT n, pgEvtRaw (pgSf n), SF.WORDS n] ++ sfErrRegs n

theorem mem_sfRegs_iff (n a : Nat) :
    a ∈ sfRegs n ↔ ∃ k ∈ [0x58, 0x10, 0x74, 0x68, 0x6C, 0x20], a = 0xC0000 + k + 0x1000 * n := by
  simp only [sfRegs, sfErrRegs, List.cons_append, List.nil_append, List.mem_cons, List.not_mem_nil, or_false, exists_eq_or_imp,
    exists_eq_left, SF.SF_STAT, SF.WORDS, SF.CORR, SF.UE, pgEvtRaw, pgErrcnt, pgSf]
  omega

theorem sfWords_not_mem_flowRegs (n : Nat) : SF.WORDS n ∉ [SF.SF_STAT n, pgEvtRaw (pgSf n)] := by
  simp only [List.mem_cons, List.not_mem_nil, or_false, SF.WORDS, SF.SF_STAT, pgEvtRaw, pgSf]
  omega

theorem sfWords_not_mem_errRegs (n : Nat) : SF.WORDS n ∉ sfErrRegs n := by
  simp only [sfErrRegs, List.mem_cons, List.not_mem_nil, or_false, SF.WORDS, SF.CORR, SF.UE, pgErrcnt, pgEvtRaw, pgSf]
  omega

theorem pageBase_sfUe (n : Nat) : pageBase (SF.UE n) = pgSf n := by unfold pageBase SF.UE pgSf; omega

theorem sfOverrun_ne_pgErrcnt (n : Nat) : SF.OVERRUN n ≠ pgErrcnt (pageBase (SF.OVERRUN n)) := by
  unfold SF.OVERRUN pgErrcnt pageBase; omega

theorem sfOverrun_ne_pgEvtRaw (n : Nat) : SF.OVERRUN n ≠ pgEvtRaw (pgSf n) := by unfold SF.OVERRUN pgEvtRaw pgSf; omega

theorem sfUnderrun_ne_pgErrcnt (n : Nat) : SF.UNDERRUN n ≠ pgErrcnt (pageBase (SF.UNDERRUN n)) := by
  unfold SF.UNDERRUN pgErrcnt pageBase; omega

theorem sfUnderrun_ne_pgEvtRaw (n : Nat) : SF.UNDERRUN n ≠ pgEvtRaw (pgSf n) := by unfold SF.UNDERRUN pgEvtRaw pgSf; omega

/-- They stand on the SF pages, and none of them is PG_CTRL or PG_LOCK. -/
theorem not_mem_sfRegs {n a : Nat} (ha : a < 0xC0000 ∨ a % 0x1000 = 0x08 ∨ a % 0x1000 = 0x24) : a ∉ sfRegs n := by
  rw [mem_sfRegs_iff]
  rintro ⟨k, hk, rfl⟩
  simp only [List.mem_cons, List.not_mem_nil, or_false] at hk
  omega

theorem pgCtrl_not_mem_sfRegs (n a : Nat) : pgCtrl (pageBase a) ∉ sfRegs n :=
  not_mem_sfRegs (.inr (.inl (by unfold pgCtrl pageBase; omega)))

theorem pgLock_not_mem_sfRegs (n a : Nat) : pgLock (pageBase a) ∉ sfRegs n :=
  not_mem_sfRegs (.inr (.inr (by unfold pgLock pageBase; omega)))

/-! ### Words held -/

/-- F follows the fill with HI and LO, and nothing else (R388). -/
theorem Chip.sfFlow_onlyRegs (c : Chip) (n : Nat) : OnlyRegs [SF.SF_STAT n, pgEvtRaw (pgSf n)] c (c.sfFlow n) := by
  unfold Chip.sfFlow
  simp only
  split
  · exact OnlyRegs.refl _ _
  · exact ((Chip.setF_onlyRegs c _ _ _ _).mono (by simp)).trans ((Chip.evt_onlyRegs _ _ _).mono (by simp))

theorem Chip.sfPut_onlyRegs (c : Chip) (n : Nat) (l : List (DWord × Nat)) :
    OnlyRegs [SF.SF_STAT n, pgEvtRaw (pgSf n)] (c.modSf n (fun f => { f with fifo := l })) (c.sfPut n l) := Chip.sfFlow_onlyRegs _ _

@[simp] theorem Chip.sf_modSf_same (c : Chip) (n : Nat) (f : Sf → Sf) : (c.modSf n f).sf n = f (c.sf n) := by simp [Chip.sf_modSf]

@[simp] theorem Chip.modSf_modSf (c : Chip) (n : Nat) (f g : Sf → Sf) : (c.modSf n f).modSf n g = c.modSf n (fun x => g (f x)) := by
  simp only [Chip.modSf, Chip.sf, Tab.get_set, if_true, Tab.set_set]

@[simp] theorem Chip.port_modSf (c : Chip) (n : Nat) (f : Sf → Sf) (p : Port) : (c.modSf n f).port p = c.port p := rfl

@[simp] theorem Chip.sfPut_sf (c : Chip) (n : Nat) (l : List (DWord × Nat)) : (c.sfPut n l).sf n = { c.sf n with fifo := l } := by
  rw [(Chip.sfPut_onlyRegs c n l).sf, Chip.sf_modSf_same]

@[simp] theorem Chip.port_sfPut (c : Chip) (n : Nat) (l : List (DWord × Nat)) (p : Port) : (c.sfPut n l).port p = c.port p := by
  rw [(Chip.sfPut_onlyRegs c n l).port, Chip.port_modSf]

/-! ### Effects on the chip -/

section

variable {s : State} {f : Chip → Chip}

theorem State.onChip_of_eq {d : Chip} (h : f s.chip = d) : s.onChip f = { s with chip := d } := by rw [State.onChip, h]

theorem State.onChip_of_same (h : f s.chip = s.chip) : s.onChip f = s := State.onChip_of_eq h

end

/-! ### Pushes -/

section

variable {s : State} {p : Port} {n : Nat}

theorem sfInbound_of_lt (hn : n < 2) : sfInbound n = true := decide_eq_true hn

theorem sfInbound_of_le (hn : 2 ≤ n) : sfInbound n = false := decide_eq_false (Nat.not_lt.mpr hn)

theorem exec_dataLoWrite (h : Reaches s p (SF.DATA_LO n)) (v : Word) :
    exec (.dataLoWrite p n v) s = .next (s.onChip (fun c => c.dataLoWrite p n v)) :=
  congrArg Host.Outcome.next (State.onChip_of_eq (Chip.gated_of_reaches h _))

theorem exec_dataHiWrite (h : Reaches s p (SF.DATA_HI n)) (v : Word) :
    exec (.dataHiWrite p n v) s = .next (s.onChip (fun c => c.dataHiWrite p n v)) :=
  congrArg Host.Outcome.next (State.onChip_of_eq (Chip.gated_of_reaches h _))

theorem exec_flush (h : Reaches s p (SF.SF_CTRL n)) : exec (.flush p n) s = .next (s.onChip (fun c => c.sfFlush n)) :=
  congrArg Host.Outcome.next (State.onChip_of_eq (Chip.gated_of_reaches h _))

theorem exec_resume (h : Reaches s p (SF.SF_CTRL n)) : exec (.resume p n) s = .next (s.onChip (fun c => c.sfResume n)) :=
  congrArg Host.Outcome.next (State.onChip_of_eq (Chip.gated_of_reaches h _))

end

section

variable {c : Chip} {p : Port} {n : Nat} {lo : Word}

/-- The port holds no low word for the FIFO any more (R387). -/
def Chip.useLow (c : Chip) (p : Port) (n : Nat) : Chip :=
  c.modPort p (fun t => { t with data := Tab.set (fun _ => none) t.data n none })

theorem Chip.useLow_data : Tab.get (fun _ => none) ((c.useLow p n).port p).data n = none := by
  simp [Chip.useLow, Chip.port_modPort]

/-- Both halves of a word push it, and the low word that the port held for the FIFO is used (R387). -/
theorem Chip.dataHiWrite_of_low (hn : n < 2) (hlow : Tab.get (fun _ => none) (c.port p).data n = some lo) (v : Word) :
    c.dataHiWrite p n v = (c.useLow p n).sfPush n (BitVec.ofNat 64 (lo.toNat + 2 ^ 32 * v.toNat)) := by
  simp [Chip.dataHiWrite, sfInbound_of_lt hn, hlow, Chip.useLow]

theorem Chip.dataHiWrite_of_noLow (hn : n < 2) (hlow : Tab.get (fun _ => none) (c.port p).data n = none) (v : Word) :
    c.dataHiWrite p n v = c.trouble (SF.PAIR_ERR n) := by
  simp [Chip.dataHiWrite, sfInbound_of_lt hn, hlow]

/-- A FIFO that is enabled and has room takes a push (R389). -/
theorem Chip.sfPush_of_room (hen : c.en (pgSf n) = true) (hroom : c.sfFill n < c.sfDepth n) (w : DWord) :
    c.sfPush n w = c.sfPut n ((c.sf n).fifo ++ [(w, 0)]) := by
  simp [Chip.sfPush, hen, hroom]

/-- A FIFO that is not enabled or has no room drops a push (R389). -/
theorem Chip.sfPush_of_noRoom (h : c.en (pgSf n) = false ∨ c.sfDepth n ≤ c.sfFill n) (w : DWord) :
    c.sfPush n w = (c.trouble (SF.OVERRUN n)).evt (pgSf n) 2 := by
  have hdrop : ¬(c.en (pgSf n) && decide (c.sfFill n < c.sfDepth n)) = true := by
    rw [Bool.and_eq_true, decide_eq_true_eq]
    rintro ⟨hen, hroom⟩
    obtain hoff | hfull := h
    · rw [hoff] at hen; cases hen
    · omega
  rw [Chip.sfPush, if_neg hdrop]

end

/-! ### Pops -/

/-- The word that the consumer gets of a word with error `e`: 0 for one that cannot be corrected (R390). -/
def checkedWord (w : DWord) (e : Nat) : DWord := if e = 2 then 0#64 else w

/-- FIFO `n` gives its word `w` with error `e`, `l` is left, and the word is counted (R390). -/
def Chip.giveWord (c : Chip) (n : Nat) (w : DWord) (e : Nat) (l : List (DWord × Nat)) : Chip :=
  (((c.modSf n (fun f => { f with last := checkedWord w e })).sfPut n l).bump (SF.WORDS n)).perf 0x94 1

/-- The error of a word that has been read is told (R390). -/
def Chip.tellError (c : Chip) (n e : Nat) : Chip :=
  if e = 1 then c.satUp (SF.CORR n) else if e = 2 then (c.trouble (SF.UE n)).evt (pgSf n) 5 else c

section

variable (c : Chip) (n : Nat) (w : DWord) (e : Nat) (l : List (DWord × Nat))

theorem Chip.giveWord_onlyRegs :
    OnlyRegs [SF.SF_STAT n, pgEvtRaw (pgSf n), SF.WORDS n] (c.modSf n (fun f => { f with fifo := l, last := checkedWord w e }))
      (c.giveWord n w e l) := by
  have hput := Chip.sfPut_onlyRegs (c.modSf n (fun f => { f with last := checkedWord w e })) n l
  rw [Chip.modSf_modSf] at hput
  exact ((hput.mono (by simp)).trans ((Chip.setReg_onlyRegs _ _ _).mono (by simp))).trans (Chip.perf_onlyRegs _ _ _ _)

theorem Chip.giveWord_words : (c.giveWord n w e l).reg (SF.WORDS n) = c.reg (SF.WORDS n) + 1#32 := by
  rw [Chip.giveWord, (Chip.perf_alike _ _ _).reg, Chip.bump, Chip.reg_bumpBy, if_pos rfl,
    (Chip.sfPut_onlyRegs _ n l).2 _ (sfWords_not_mem_flowRegs n)]
  rfl

theorem Chip.tellError_onlyRegs : OnlyRegs (sfErrRegs n) c (c.tellError n e) := by
  unfold Chip.tellError
  split_ifs
  · exact (Chip.satUp_onlyRegs c _).mono (by simp [sfErrRegs])
  · have htrouble := Chip.trouble_onlyRegs c (SF.UE n)
    rw [pageBase_sfUe] at htrouble
    exact (htrouble.mono (by simp [sfErrRegs])).trans ((Chip.evt_onlyRegs _ _ _).mono (by simp [sfErrRegs]))
  · exact OnlyRegs.refl _ _

end

/-- FIFO `n` has given its word `w` with error `e`, and `l` is left: nothing else differs but the registers that tell of it (R390). -/
structure Popped (n : Nat) (w : DWord) (e : Nat) (l : List (DWord × Nat)) (c d : Chip) : Prop where
  frame : OnlyRegs (sfRegs n) (c.modSf n (fun f => { f with fifo := l, last := checkedWord w e })) d
  words : d.reg (SF.WORDS n) = c.reg (SF.WORDS n) + 1#32

/-- What a pop does with the word in front: the FIFO gives it, then its error is told. -/
theorem Chip.sfPop_of_cons {c : Chip} (tb : TimeBase) {n : Nat} {w : DWord} {e : Nat} {l : List (DWord × Nat)}
    (h : (c.sf n).fifo = (w, e) :: l) : ∃ d, c.sfPop tb n = some (checkedWord w e, decide (e = 2), d) ∧ Popped n w e l c d := by
  have hgive := Chip.giveWord_onlyRegs c n w e l
  have htell := Chip.tellError_onlyRegs (c.giveWord n w e l) n e
  refine ⟨(c.giveWord n w e l).tellError n e, ?_, ?frame, ?words⟩
  · simp only [Chip.sfPop, h]
    rfl
  case frame => exact (hgive.mono (by simp [sfRegs])).trans (htell.mono (fun _ => List.mem_append_right _))
  case words => exact (htell.2 _ (sfWords_not_mem_errRegs n)).trans (Chip.giveWord_words c n w e l)

section

variable {n : Nat} {w : DWord} {e : Nat} {l : List (DWord × Nat)} {c d : Chip}

theorem Popped.sf (h : Popped n w e l c d) : d.sf n = { c.sf n with fifo := l, last := checkedWord w e } := by
  rw [h.frame.sf, Chip.sf_modSf_same]

theorem Popped.fifo (h : Popped n w e l c d) : (d.sf n).fifo = l := by rw [h.sf]

theorem Popped.wait (h : Popped n w e l c d) : (d.sf n).wait = (c.sf n).wait := by rw [h.sf]

theorem Popped.reg (h : Popped n w e l c d) {a : Nat} (ha : a ∉ sfRegs n) : d.reg a = c.reg a := h.frame.2 a ha

theorem Popped.cm (h : Popped n w e l c d) : d.cm = c.cm := h.frame.cm

theorem Popped.cgrp (h : Popped n w e l c d) (a : Nat) : d.cgrp (pageBase a) = c.cgrp (pageBase a) := by
  rw [Chip.cgrp, Chip.cgrp, Chip.rf, Chip.rf, h.reg (pgCtrl_not_mem_sfRegs n a)]

theorem Popped.waits (h : Popped n w e l c d) (t : Word) : d.waits t = c.waits t := by
  rw [Chip.waits, Chip.waits, Chip.tickNo, Chip.tickNo, h.frame.tg, Chip.modSf_tg]

/-- A write that reaches its register does so when a word has been taken before it. -/
theorem Popped.reaches {s : State} (h : Popped n w e l s.chip d) {p : Port} {a : Nat} (hreach : Reaches s p a) :
    Reaches { s with chip := d } p a :=
  Chip.gate_open_of_alike hreach h.frame.rst h.frame.settling (h.reg (not_mem_sfRegs (.inl (by decide))))
    (h.reg (not_mem_sfRegs (.inl (by decide)))) (h.reg (pgLock_not_mem_sfRegs n a))

end

/-! ### Reads of DATA_LO -/

theorem pageAt_dataLo : ∀ n < 4, (pageAt (SF.DATA_LO n)).map (fun q => (q.page.type, q.inst, q.off)) = some (0x17, n, 0x50) := by decide

/-- A read of DATA_LO returns the low word to its port (R387). -/
theorem exec_dataLoRead {s : State} {p : Port} {q : PageAt} {n : Nat} (h : Reads s p q (SF.DATA_LO n)) (hn : n < 4) :
    exec (.dataLoRead p n) s =
      .next (s.onChip (fun c => (c.dataLoRead s.tb p n).1.reply p (c.dataLoRead s.tb p n).2)) := by
  have hplace := pageAt_dataLo n hn
  rw [h.1, Option.map_some, Option.some.injEq, Prod.mk.injEq, Prod.mk.injEq] at hplace
  obtain ⟨htype, hinst, hoff⟩ := hplace
  show Host.Outcome.next (s.readFor p (SF.DATA_LO n)) = _
  simp [State.readFor, State.read_of_reads h, State.readReg, htype, hoff, hinst, State.onChip]

section

variable {c : Chip} {p : Port} {n : Nat}

/-- The reply to a read of DATA_LO that finds the word `x`, with the high word latched for the port. -/
def Chip.replyWord (c : Chip) (p : Port) (n : Nat) (x : DWord) : Chip :=
  (c.latchHigh p (SF.DATA_HI n) (BitVec.ofNat 32 (x.toNat / 2 ^ 32))).reply p (BitVec.ofNat 32 x.toNat)

theorem Chip.replyWord_rdata (x : DWord) : ((c.replyWord p n x).port p).rdata = BitVec.ofNat 32 x.toNat := by
  simp [Chip.replyWord, Chip.reply, Chip.port_modPort]

theorem Chip.replyWord_latched (x : DWord) :
    (c.replyWord p n x).latched p (SF.DATA_HI n) = some (BitVec.ofNat 32 (x.toNat / 2 ^ 32)) := by
  simp [Chip.replyWord, Chip.reply, Chip.latched, Chip.latchHigh, Chip.port_modPort]

end

section

variable {s : State} {p : Port} {q : PageAt} {n : Nat} {w : DWord} {e : Nat} {l : List (DWord × Nat)}

/-- A read of an outbound FIFO takes the next word and returns it (R390). -/
theorem exec_dataLoRead_of_cons (h : Reads s p q (SF.DATA_LO n)) (hn : n < 4) (hout : 2 ≤ n) (hfifo : (s.chip.sf n).fifo = (w, e) :: l) :
    ∃ d, Popped n w e l s.chip d ∧ exec (.dataLoRead p n) s = .next { s with chip := d.replyWord p n (checkedWord w e) } := by
  obtain ⟨d, hpop, htook⟩ := Chip.sfPop_of_cons s.tb hfifo
  refine ⟨d, htook, (exec_dataLoRead h hn).trans (congrArg Host.Outcome.next (State.onChip_of_eq ?_))⟩
  simp [Chip.dataLoRead, sfInbound_of_le hout, hpop, Chip.replyWord]

/-- A read of an empty outbound FIFO returns the last word again and is counted (R390). -/
theorem exec_dataLoRead_of_nil (h : Reads s p q (SF.DATA_LO n)) (hn : n < 4) (hout : 2 ≤ n) (hfifo : (s.chip.sf n).fifo = []) :
    exec (.dataLoRead p n) s =
      .next { s with chip := ((s.chip.trouble (SF.UNDERRUN n)).evt (pgSf n) 3).replyWord p n (s.chip.sf n).last } := by
  have hpop : s.chip.sfPop s.tb n = none := by simp only [Chip.sfPop, hfifo]
  refine (exec_dataLoRead h hn).trans (congrArg Host.Outcome.next (State.onChip_of_eq ?_))
  simp [Chip.dataLoRead, sfInbound_of_le hout, hpop, Chip.replyWord]

end

/-! ### The command sink -/

section

variable {c : Chip} {n : Nat} {w : DWord} {e : Nat} {l : List (DWord × Nat)} (tb : TimeBase)

/-- A sink that halts is not ready (R393). -/
theorem Chip.sinkReady_of_halted (h : c.rb (SF.SF_STAT n) 1 = true) : c.sinkReady n = false := by simp [Chip.sinkReady, h]

/-- A sink that is ready does not wait (R392). -/
theorem Chip.wait_of_sinkReady (h : c.sinkReady n = true) : (c.sf n).wait = none := by
  simp only [Chip.sinkReady, Bool.and_eq_true] at h
  exact Option.isNone_iff_eq_none.mp h.2

/-- The sink takes a command of the given OPs, with its effect. -/
theorem Chip.sinkTake_of_op (hfifo : (c.sf n).fifo = (w, e) :: l) (hready : c.sinkReady n = true) (he : e ≠ 2) {ops : Nat → Bool}
    (hop : ops (w.toNat / 2 ^ 60) = true) (f : DWord → Chip → Chip) : ∃ d, Popped n w e l c d ∧ c.sinkTake tb n ops f = f w d := by
  obtain ⟨d, hpop, htook⟩ := Chip.sfPop_of_cons tb hfifo
  refine ⟨d, htook, ?_⟩
  have hword : checkedWord w e = w := if_neg he
  simp only [Chip.sinkTake, hfifo, hready, hop, hpop, hword, decide_eq_true he, Bool.and_self, if_true]

/-- The sink leaves a command of another OP. -/
theorem Chip.sinkTake_of_otherOp (hfifo : (c.sf n).fifo = (w, e) :: l) {ops : Nat → Bool} (hop : ops (w.toNat / 2 ^ 60) = false)
    (f : DWord → Chip → Chip) : c.sinkTake tb n ops f = c := by
  simp only [Chip.sinkTake, hfifo, hop, Bool.and_false, Bool.false_eq_true, if_false]

theorem Chip.sinkTake_of_notReady (h : c.sinkReady n = false) (ops : Nat → Bool) (f : DWord → Chip → Chip) :
    c.sinkTake tb n ops f = c := by
  unfold Chip.sinkTake
  split
  · simp [h]
  · rfl

/-- A word that cannot be corrected, or with a reserved OP, is taken and halts the sink (R393). -/
theorem Chip.sinkBad_of_bad (hfifo : (c.sf n).fifo = (w, e) :: l) (hready : c.sinkReady n = true)
    (hbad : e = 2 ∨ 4 ≤ w.toNat / 2 ^ 60) :
    ∃ d, Popped n w e l c d ∧ c.sinkBad tb n = d.sinkHalt n (if e = 2 then 3 else 1) := by
  obtain ⟨d, hpop, htook⟩ := Chip.sfPop_of_cons tb hfifo
  refine ⟨d, htook, ?_⟩
  simp only [Chip.sinkBad, hfifo, hready, hpop, decide_eq_true hbad, Bool.and_self, if_true, decide_eq_true_eq]

theorem Chip.sinkBad_of_good (hfifo : (c.sf n).fifo = (w, e) :: l) (he : e ≠ 2) (hop : w.toNat / 2 ^ 60 < 4) :
    c.sinkBad tb n = c := by
  have hgood : ¬(e = 2 ∨ 4 ≤ w.toNat / 2 ^ 60) := by omega
  simp only [Chip.sinkBad, hfifo, decide_eq_false hgood, Bool.and_false, Bool.false_eq_true, if_false]

theorem Chip.sinkBad_of_notReady (h : c.sinkReady n = false) : c.sinkBad tb n = c := by
  unfold Chip.sinkBad
  split
  · simp [h]
  · rfl

end

/-! ### The halt -/

section

variable (c : Chip) (n cause : Nat)

theorem sfStat_ne_pgEvtRaw : SF.SF_STAT n ≠ pgEvtRaw (pgSf n) := by unfold SF.SF_STAT pgEvtRaw pgSf; omega

theorem Chip.sinkHalt_sfStat :
    (c.sinkHalt n cause).reg (SF.SF_STAT n) = putFld (putFld (c.reg (SF.SF_STAT n)) 1 1 1) 3 2 cause := by
  rw [Chip.sinkHalt, Chip.reg_evt, if_neg (sfStat_ne_pgEvtRaw n), Chip.reg_setF, if_pos rfl, Chip.reg_setF, if_pos rfl]

theorem Chip.sinkHalt_halted : (c.sinkHalt n cause).rb (SF.SF_STAT n) 1 = true := by
  rw [Chip.rb, Chip.sinkHalt_sfStat, bit_putFld _ _ _ (by decide), bit_putFld _ _ _ (by decide)]
  rfl

theorem Chip.sinkHalt_cause (hcause : cause < 4) : (c.sinkHalt n cause).rf (SF.SF_STAT n) 3 2 = cause := by
  rw [Chip.rf, Chip.sinkHalt_sfStat, fld_putFld _ _ (by decide)]
  exact Nat.mod_eq_of_lt hcause

theorem Chip.sinkHalt_eventSet : EventSet (c.sinkHalt n cause) (pgSf n) 4 := Chip.evt_eventSet _ _ (by decide)

end

/-- RESUME ends the halt (R393). -/
theorem Chip.sfResume_running (c : Chip) (n : Nat) : (c.sfResume n).rb (SF.SF_STAT n) 1 = false := by
  rw [Chip.rb, Chip.sfResume, Chip.reg_setF, if_pos rfl, bit_putFld _ _ _ (by decide)]
  rfl

/-! ### COMMIT of the stream -/

theorem below_testBit_two_pow : ∀ g < 16, below 16 (Nat.testBit (2 ^ g)) = [g] := by decide

section

variable (c : Chip) (tb : TimeBase)

@[simp] theorem Chip.journal_cm (e : Entry) : (c.journal e).cm = c.cm := by unfold Chip.journal; split <;> rfl

@[simp] theorem Chip.journal_sfs (e : Entry) : (c.journal e).sfs = c.sfs := by unfold Chip.journal; split <;> rfl

/-- Capture for a group takes what its pages have staged, and leaves what the others have (R64). -/
theorem Chip.captureGroup_staged (due g : Nat) :
    (c.captureGroup tb due g).cm.staged = c.cm.staged.filter (fun x => !decide (c.cgrp (pageBase x.1) = g)) := by
  unfold Chip.captureGroup
  simp only
  split
  case isTrue hnone =>
    refine (List.filter_eq_self.mpr fun x hx => ?_).symm
    rw [List.isEmpty_iff, List.filter_eq_nil_iff] at hnone
    simpa using hnone x hx
  case isFalse => split <;> simp [Chip.addUnit]

theorem Chip.captureGroup_sfs (due g : Nat) : (c.captureGroup tb due g).sfs = c.sfs := by
  unfold Chip.captureGroup
  simp only
  split
  · rfl
  · split <;> simp [Chip.addUnit]

theorem Chip.captureGroup_sf (due g n : Nat) : (c.captureGroup tb due g).sf n = c.sf n := by
  rw [Chip.sf, Chip.sf, Chip.captureGroup_sfs]

/-- A commit request for one group. -/
theorem Chip.commitMask_of_group {g m : Nat} (hg : g < 16) (hm : m = 2 ^ g) :
    c.commitMask tb m = c.captureGroup tb (c.dueNow tb) g := by
  rw [Chip.commitMask, hm, below_testBit_two_pow g hg]
  rfl

end

/-! ### WRITE of the stream -/

/-- An address to which a WRITE of the stream halts the sink: it is unmapped, or on an SF page (R393). -/
def sinkRefuses (a : Nat) : Bool :=
  match zoneOf a with
  | .unmapped => true
  | .page q => decide (q.page.type = 0x17)
  | _ => false

theorem sinkRefuses_of_bad {a : Nat} (h : zoneOf a = .unmapped ∨ ∃ q, zoneOf a = .page q ∧ q.page.type = 0x17) :
    sinkRefuses a = true := by
  obtain hz | ⟨q, hz, htype⟩ := h
  · simp [sinkRefuses, hz]
  · simp [sinkRefuses, hz, htype]

section

variable {s : State} {n : Nat} {w : DWord} {e : Nat} {l : List (DWord × Nat)}

/-- The sink takes a WRITE, and halts or executes it as its address says. -/
theorem State.streamWrite_of_op (hfifo : (s.chip.sf n).fifo = (w, e) :: l) (hready : s.chip.sinkReady n = true) (he : e ≠ 2)
    (hop : w.toNat / 2 ^ 60 = 1) :
    ∃ d, Popped n w e l s.chip d ∧ s.streamWrite n =
      if sinkRefuses (w.toNat / 2 ^ 32 % 2 ^ 25 / 4 * 4) then { s with chip := d.sinkHalt n 2 }
      else { s with chip := d }.write (sinkPort n) 15 (w.toNat / 2 ^ 32 % 2 ^ 25 / 4 * 4) (BitVec.ofNat 32 w.toNat) := by
  obtain ⟨d, hpop, htook⟩ := Chip.sfPop_of_cons s.tb hfifo
  refine ⟨d, htook, ?_⟩
  have hword : checkedWord w e = w := if_neg he
  simp only [State.streamWrite, hfifo, hready, hpop, hword, decide_eq_true (And.intro he hop), Bool.and_self, if_true]
  rfl

theorem State.streamWrite_of_otherOp (hfifo : (s.chip.sf n).fifo = (w, e) :: l) (hop : w.toNat / 2 ^ 60 ≠ 1) : s.streamWrite n = s := by
  have hother : ¬(e ≠ 2 ∧ w.toNat / 2 ^ 60 = 1) := fun h => hop h.2
  simp only [State.streamWrite, hfifo, decide_eq_false hother, Bool.and_false, Bool.false_eq_true, if_false]

theorem State.streamWrite_of_notReady (h : s.chip.sinkReady n = false) : s.streamWrite n = s := by
  unfold State.streamWrite
  split
  · simp [h]
  · rfl

end

theorem pageAt_lenLo : (pageAt EVX.LEN_LO).map (fun q => (q.page.type, q.off)) = some (0x0F, 0x50) := by decide

theorem sinkRefuses_lenLo : ¬sinkRefuses EVX.LEN_LO = true := by decide

theorem fldsOf_lenLo : fldsOf EVX.LEN_LO = [⟨31, 0, .rw, 0⟩] := by decide

/-- A write of EVX.LEN_LO, a register of one RW field, gives it the word (R407). -/
theorem State.write_lenLo {s : State} {p : Port} (h : Reaches s p EVX.LEN_LO) (v : Word) :
    s.write p 15 EVX.LEN_LO v = s.onChip (fun c => c.setReg EVX.LEN_LO v) := by
  obtain ⟨q, hq, _⟩ := Chip.gate_open_iff.mp h
  have hplace := pageAt_lenLo
  rw [hq, Option.map_some, Option.some.injEq, Prod.mk.injEq] at hplace
  obtain ⟨htype, hoff⟩ := hplace
  have hcodes : ∀ c : Chip, c.writeCodes s.tb EVX.LEN_LO v = c.setReg EVX.LEN_LO v := by
    intro c
    have hall : v &&& 0xFFFFFFFF#32 = v := BitVec.and_allOnes
    simp [Chip.writeCodes, fldsOf_lenLo, maskOf, Field.mask, fmask, hall]
  rw [State.write_of_reaches h hq]
  simp [State.writeAt, htype, hoff, Chip.writeBlock, Chip.writeSingle, pairWritable, hcodes]

/-! ### The commands of the stream -/

section

variable {s : State} {n : Nat} {w : DWord} {e : Nat} {l : List (DWord × Nat)}

theorem exec_streamNop_of_op (hfifo : (s.chip.sf n).fifo = (w, e) :: l) (hready : s.chip.sinkReady n = true) (he : e ≠ 2)
    (hop : w.toNat / 2 ^ 60 = 0) : ∃ d, Popped n w e l s.chip d ∧ exec (.streamNop n) s = .next { s with chip := d } := by
  obtain ⟨d, htook, htake⟩ :=
    Chip.sinkTake_of_op s.tb hfifo hready he (ops := fun k => decide (k = 0)) (decide_eq_true hop) (fun _ c => c)
  exact ⟨d, htook, congrArg Host.Outcome.next (State.onChip_of_eq htake)⟩

theorem exec_streamNop_of_otherOp (hfifo : (s.chip.sf n).fifo = (w, e) :: l) (hop : w.toNat / 2 ^ 60 ≠ 0) :
    exec (.streamNop n) s = .next s :=
  congrArg Host.Outcome.next (State.onChip_of_same
    (Chip.sinkTake_of_otherOp s.tb hfifo (ops := fun k => decide (k = 0)) (decide_eq_false hop) _))

/-- A COMMIT of the stream is a write of its mask to `CHIP.COMMIT`, which reaches it (Table 14.7). -/
theorem exec_streamCommit_of_op (hfifo : (s.chip.sf n).fifo = (w, e) :: l) (hready : s.chip.sinkReady n = true) (he : e ≠ 2)
    (hop : w.toNat / 2 ^ 60 = 2) (hreach : Reaches s (sinkPort n) CHIP.COMMIT) :
    ∃ d, Popped n w e l s.chip d ∧ exec (.streamCommit n) s = .next { s with chip := d.commitMask s.tb (w.toNat % 2 ^ 16) } := by
  obtain ⟨d, htook, htake⟩ :=
    Chip.sinkTake_of_op s.tb hfifo hready he (ops := fun k => decide (k = 2)) (decide_eq_true hop)
      (fun w c => c.gated (sinkPort n) CHIP.COMMIT (fun c => c.commitMask s.tb (w.toNat % 2 ^ 16)))
  exact ⟨d, htook, congrArg Host.Outcome.next (State.onChip_of_eq (htake.trans (Chip.gated_of_reaches (htook.reaches hreach) _)))⟩

/-- WAIT_TICK waits where its tick has not come (R392). -/
theorem exec_waitTick_of_op (hfifo : (s.chip.sf n).fifo = (w, e) :: l) (hready : s.chip.sinkReady n = true) (he : e ≠ 2)
    (hop : w.toNat / 2 ^ 60 = 3) :
    let till := BitVec.ofNat 32 w.toNat
    ∃ d, Popped n w e l s.chip d ∧ exec (.waitTick n) s =
      .next { s with chip := if s.chip.waits till then d.modSf n (fun f => { f with wait := some till }) else d } := by
  intro till
  obtain ⟨d, htook, htake⟩ :=
    Chip.sinkTake_of_op s.tb hfifo hready he (ops := fun k => decide (k = 3)) (decide_eq_true hop)
      (fun w c =>
        if c.waits (BitVec.ofNat 32 w.toNat) then c.modSf n (fun f => { f with wait := some (BitVec.ofNat 32 w.toNat) }) else c)
  refine ⟨d, htook, ?_⟩
  rw [← htook.waits]
  exact congrArg Host.Outcome.next (State.onChip_of_eq htake)

/-- A stream that waits for a tick goes on once the tick has come (R392). -/
theorem exec_waitTickDone {x : Word} (hwait : (s.chip.sf n).wait = some x) :
    exec (.waitTickDone n) s =
      .next { s with chip := if s.chip.waits x then s.chip else s.chip.modSf n (fun f => { f with wait := none }) } := by
  refine congrArg Host.Outcome.next (State.onChip_of_eq ?_)
  rw [hwait]

theorem exec_streamReservedOp_of_bad (hfifo : (s.chip.sf n).fifo = (w, e) :: l) (hready : s.chip.sinkReady n = true)
    (hbad : e = 2 ∨ 4 ≤ w.toNat / 2 ^ 60) :
    ∃ d, Popped n w e l s.chip d ∧
      exec (.streamReservedOp n) s = .next { s with chip := d.sinkHalt n (if e = 2 then 3 else 1) } := by
  obtain ⟨d, htook, hhalt⟩ := Chip.sinkBad_of_bad s.tb hfifo hready hbad
  exact ⟨d, htook, congrArg Host.Outcome.next (State.onChip_of_eq hhalt)⟩

/-- A halted sink leaves the machine as it is, whatever word stands in front (R393). -/
theorem exec_of_halted (h : s.chip.rb (SF.SF_STAT n) 1 = true) :
    ∀ i ∈ [Instr.streamNop n, .streamWrite n, .streamCommit n, .waitTick n, .streamReservedOp n], exec i s = .next s := by
  have hready := Chip.sinkReady_of_halted h
  have htake := Chip.sinkTake_of_notReady s.tb hready
  simp only [List.forall_mem_cons, List.not_mem_nil, false_imp_iff, implies_true, and_true]
  exact ⟨congrArg Host.Outcome.next (State.onChip_of_same (htake _ _)),
    congrArg Host.Outcome.next (State.streamWrite_of_notReady hready),
    congrArg Host.Outcome.next (State.onChip_of_same (htake _ _)),
    congrArg Host.Outcome.next (State.onChip_of_same (htake _ _)),
    congrArg Host.Outcome.next (State.onChip_of_same (Chip.sinkBad_of_notReady s.tb hready))⟩

end

/-- Settles O54: a push or a drop by what `sfPush` does with room and without, a read by what a pop leaves, and each word of the sink by
what its pop leaves and the effect of its OP on that. -/
theorem streamFifos : Obligations.StreamFifos := by
  unfold Obligations.StreamFifos
  intro s p q n e g v lo w l hn c fifo word op a till waits next took low
  have hwaits_iff : ∀ x, s.chip.waits x = true ↔ waits x := fun x => decide_eq_true_iff
  refine ⟨?lowHeld, ?outbound, ?pushed, ?dropped, ?noLow, ?read, ?readEmpty, ?control, ?nop, ?notNop, ?commit, ?waits, ?noWait,
    ?waitDone, ?waitOn, ?bad, ?notBad, ?badWrite, exec_of_halted, ?write, ?notWrite⟩
  case lowHeld =>
    intro hreach hin
    simp only [exec_dataLoWrite hreach, Chip.dataLoWrite, sfInbound_of_lt hin, if_true]
  case outbound =>
    intro hreach hout
    refine ⟨?_, fun hreachHi => ?_⟩
    · simp [exec_dataLoWrite hreach, Chip.dataLoWrite, sfInbound_of_le hout, State.onChip]
    · simp [exec_dataHiWrite hreachHi, Chip.dataHiWrite, sfInbound_of_le hout, State.onChip]
  case pushed =>
    intro hreach hin hlow hen hroom
    have hpush := (Chip.dataHiWrite_of_low hin hlow v).trans (Chip.sfPush_of_room (c := c.useLow p n) hen hroom _)
    refine ⟨_, (exec_dataHiWrite hreach v).trans (congrArg _ (State.onChip_of_eq hpush)), congrArg Sf.fifo (Chip.sfPut_sf _ _ _), ?_⟩
    show Tab.get (fun _ => none) (Chip.port (Chip.sfPut _ _ _) p).data n = none
    rw [Chip.port_sfPut, Chip.useLow_data]
  case dropped =>
    intro hreach hin hlow hfull
    have hpush := (Chip.dataHiWrite_of_low hin hlow v).trans (Chip.sfPush_of_noRoom (c := c.useLow p n) hfull _)
    exact ⟨_, (exec_dataHiWrite hreach v).trans (congrArg _ (State.onChip_of_eq hpush)), (Chip.trouble_onlyRegs _ _).sfs,
      Chip.trouble_evt_counted (c := c.useLow p n) 2 (sfOverrun_ne_pgErrcnt n) (sfOverrun_ne_pgEvtRaw n), Chip.evt_eventSet _ _ (by decide)⟩
  case noLow =>
    intro hreach hin hlow
    exact (exec_dataHiWrite hreach v).trans (congrArg _ (State.onChip_of_eq (Chip.dataHiWrite_of_noLow hin hlow v)))
  case read =>
    intro hreads hout hfifo
    obtain ⟨d, htook, hexec⟩ := exec_dataLoRead_of_cons hreads hn hout hfifo
    exact ⟨_, hexec, Chip.replyWord_rdata _, Chip.replyWord_latched _, htook.fifo⟩
  case readEmpty =>
    intro hreads hout hfifo
    exact ⟨_, exec_dataLoRead_of_nil hreads hn hout hfifo,
      Chip.trouble_evt_counted (c := c) 3 (sfUnderrun_ne_pgErrcnt n) (sfUnderrun_ne_pgEvtRaw n), Chip.replyWord_rdata _⟩
  case control =>
    intro hreach
    exact ⟨⟨_, exec_flush hreach, congrArg Sf.fifo (Chip.sfPut_sf c n [])⟩,
      ⟨_, exec_resume hreach, Chip.sfResume_running c n, rfl, Chip.setF_onlyRegs c _ _ _ _⟩⟩
  case nop =>
    rintro ⟨hfifo, hready⟩ he hop
    obtain ⟨d, htook, hexec⟩ := exec_streamNop_of_op hfifo hready he hop
    exact ⟨_, hexec, htook.fifo, htook.words, htook.cm⟩
  case notNop => exact fun ⟨hfifo, _⟩ hop => exec_streamNop_of_otherOp hfifo hop
  case commit =>
    rintro ⟨hfifo, hready⟩ he hop hg hmask hreach
    obtain ⟨d, htook, hexec⟩ := exec_streamCommit_of_op hfifo hready he hop hreach
    rw [Chip.commitMask_of_group _ _ hg hmask] at hexec
    refine ⟨_, hexec, (congrArg Sf.fifo (Chip.captureGroup_sf d s.tb _ g n)).trans htook.fifo, ?_⟩
    rw [Chip.captureGroup_staged, htook.cm]
    simp only [htook.cgrp]
    rfl
  case waits =>
    rintro ⟨hfifo, hready⟩ he hop hwaits
    obtain ⟨d, htook, hexec⟩ := exec_waitTick_of_op hfifo hready he hop
    rw [if_pos ((hwaits_iff _).mpr hwaits)] at hexec
    exact ⟨_, hexec, (congrArg Sf.fifo (Chip.sf_modSf_same d n _)).trans htook.fifo, congrArg Sf.wait (Chip.sf_modSf_same d n _)⟩
  case noWait =>
    rintro ⟨hfifo, hready⟩ he hop hpast
    obtain ⟨d, htook, hexec⟩ := exec_waitTick_of_op hfifo hready he hop
    rw [if_neg (mt (hwaits_iff _).mp hpast)] at hexec
    exact ⟨_, hexec, htook.fifo, htook.wait.trans (Chip.wait_of_sinkReady hready)⟩
  case waitDone =>
    intro x hwait hpast
    rw [exec_waitTickDone hwait, if_neg (mt (hwaits_iff x).mp hpast)]
    rfl
  case waitOn =>
    intro x hwait hwaits
    rw [exec_waitTickDone hwait, if_pos ((hwaits_iff x).mpr hwaits)]
  case bad =>
    rintro ⟨hfifo, hready⟩ hbad
    obtain ⟨d, htook, hexec⟩ := exec_streamReservedOp_of_bad hfifo hready hbad
    exact ⟨_, hexec, htook.fifo, Chip.sinkHalt_halted d n _, Chip.sinkHalt_cause d n _ (by split <;> decide),
      Chip.sinkHalt_eventSet d n _⟩
  case notBad =>
    exact fun ⟨hfifo, _⟩ he hop => congrArg Host.Outcome.next (State.onChip_of_same (Chip.sinkBad_of_good s.tb hfifo he hop))
  case badWrite =>
    rintro ⟨hfifo, hready⟩ he hop hzone
    obtain ⟨d, htook, hwrite⟩ := State.streamWrite_of_op hfifo hready he hop
    rw [if_pos (sinkRefuses_of_bad hzone)] at hwrite
    exact ⟨_, congrArg Host.Outcome.next hwrite, htook.fifo, Chip.sinkHalt_halted d n 2, Chip.sinkHalt_cause d n 2 (by decide),
      Chip.sinkHalt_eventSet d n 2⟩
  case write =>
    rintro ⟨hfifo, hready⟩ he hop haddr hreach
    obtain ⟨d, htook, hwrite⟩ := State.streamWrite_of_op hfifo hready he hop
    have haddr : w.toNat / 2 ^ 32 % 2 ^ 25 / 4 * 4 = EVX.LEN_LO := haddr
    rw [haddr, if_neg sinkRefuses_lenLo, State.write_lenLo (htook.reaches hreach)] at hwrite
    exact ⟨_, congrArg Host.Outcome.next hwrite, htook.fifo, Chip.reg_setReg_same _ _ _⟩
  case notWrite => exact fun hop hfifo => congrArg Host.Outcome.next (State.streamWrite_of_otherOp hfifo hop)

end Sys2Proof.Machine
